-- ==== Sys2Proof/Word.lean ====
section
/-! DEFINITION. The word types of the module and their plainest arithmetic (R8, R9). -/

namespace Sys2Proof

/-- One byte. -/
abbrev Byte := BitVec 8

/-- A 32-bit word: one pail element, one word of a tile command. -/
abbrev Word := BitVec 32

/-- A 64-bit word: a scalar register, an instruction word, a synchronisation object's value. -/
abbrev Dword := BitVec 64

end Sys2Proof
end

