-- ==== Sys2Proof/Syntax.lean ====
section
/-! DEFINITION. The commands of the module: one constructor of Instr per row of spec/opcode_table.json, and the operand
types they carry. A command is an operation issued by a core, an engine or the host, or an event of the module's
surroundings; its operands are what the table row leaves to the sender. -/

namespace Sys2Proof

/-- The issue of one instruction by a core. `core` is the physical core, 1024 * die + 32 * row + column. `replays` is how
often a 64-bit word the instruction moves met a parity mismatch (R390): 0, 1 or 2 replays; 3 is a third mismatch. The
instruction itself is the word at the core's program counter. -/
structure Issue where
  core    : BitVec 12
  replays : BitVec 2
  deriving DecidableEq, Repr

/-- Who waits on a synchronisation object (R211): a core in SWAIT, the running context's WAIT entry, or a DMA queue. -/
inductive Waiter where
  | core (c : BitVec 12)
  | plan
  | queue (engine : BitVec 2) (ctx : BitVec 6) (q : BitVec 2)
  deriving DecidableEq, Repr

/-- A DMA queue (R137): engine of CDn, context, queue q0-q3. -/
structure QRef where
  engine : BitVec 2
  ctx    : BitVec 6
  q      : BitVec 2
  deriving DecidableEq, Repr

/-- Why a unit of a transfer fails for a cause outside the module's state: a third parity mismatch (R390), or a host-space
access that the link does not complete (R318). -/
inductive XferFail where
  | replayFailed
  | hostError
  deriving DecidableEq, Repr

/-- What a read meets in a sector (R131, R132): no error, a single-bit or a double-bit error in the array, a parity error in
the slice, a single-bit error in the slice's tag or state bits. -/
inductive EccFinding where
  | clean
  | single
  | double
  | parity
  | tag
  deriving DecidableEq, Repr

/-- What the surroundings do to one DMA transfer: each replay that succeeds, with the stack whose base die requests it or none for
a replay within the engine (R130, R390), the lowest transfer offset at which a unit fails and why, the first page-list entry,
counted from the descriptor's first, whose read fails its replays (R146), the bytes the host returns, in transfer-offset
order, and the errors found in sectors it reads (R131, R132). -/
structure XferEnv where
  replays  : List (Option (BitVec 3))
  failAt   : Option (Nat × XferFail)
  listFail : Option Nat
  hostData : List Byte
  ecc      : List (BitVec 34 × EccFinding)
  deriving DecidableEq, Repr

/-- What an operation other than a DMA transfer meets in module memory: the stacks whose base dies request a replay that succeeds,
the MA of the first access that fails its second replay (R130), and the errors in the sectors it reads (R131, R132). -/
structure MemEnv where
  replays : List (BitVec 3)
  failAt  : Option (BitVec 39)
  ecc     : List (BitVec 34 × EccFinding)
  deriving DecidableEq, Repr

/-- What a calibration found (R65-R67): the logical rows (true) and columns (false) beyond the residual bound, the slots
beyond the noise bound, the spare rows and columns 128 to 131 that the probes found unusable, and the measured values that
OD 0x2203:01-04 report. -/
structure CalFinding where
  residual : List (Bool × BitVec 7)
  noisy    : BitVec 4
  spareRows : BitVec 4
  spareCols : BitVec 4
  noise    : BitVec 16
  offset   : BitVec 16
  gain     : BitVec 16
  temp     : BitVec 16
  deriving DecidableEq, Repr

/-- A packet (Table 12-2): the header's fields and the payload. -/
structure Packet where
  typ     : BitVec 2
  epoch   : Bool
  last    : Bool
  tc      : BitVec 2
  esc     : Bool
  hops    : BitVec 8
  job     : BitVec 16
  dx      : BitVec 6
  dy      : BitVec 6
  dz      : BitVec 6
  mcAxis  : BitVec 2
  mcNeg   : Bool
  mcHops  : BitVec 6
  sx      : BitVec 6
  sy      : BitVec 6
  sz      : BitVec 6
  rxq     : BitVec 16
  msgId   : BitVec 16
  msgLen  : BitVec 32
  offset  : BitVec 32
  payLen  : BitVec 16
  lost    : Bool
  refused : Bool
  stale   : Bool
  inject  : BitVec 32
  payload : List Byte
  deriving DecidableEq, Repr

/-- A plan-agreement message of a control block (R234): plan number, transmit and receive masks of the sender, and for
channels it leaves with the light age in picoseconds and the pass-throughs made so far. -/
structure AgreeMsg where
  plan  : BitVec 6
  tx    : BitVec 32
  rx    : BitVec 32
  light : List (BitVec 5 × Nat × Nat)
  deriving DecidableEq, Repr

/-- A port's control block as received (R231, Tables 11-4, 12-5): the slot it was sent in, whether a frame of it was marked bad, the
frames of that slot that arrived with errors on the port's receive lanes, the time exchange, the agreement
messages, the channels on which the peer takes no payload (R239), and bits [1023:448] of the block. The places of the time exchange, of
agreement messages and of what the peer refuses are not stated, so these come as values; the beacon word arrives by its own command. -/
structure CtlBlock where
  slot          : BitVec 64
  bad           : Bool
  errors        : List (BitVec 256)
  timeValid     : Bool
  offsetPs      : Int
  delayPs       : BitVec 32
  parentTime    : BitVec 64
  agree         : List AgreeMsg
  refused       : BitVec 32
  fields        : BitVec 576
  deriving DecidableEq, Repr

/-- A flit as received (R256, R258, R261): its 64 bytes, the channel of the lane it came on, whether a frame of it was marked bad, and
the transmit slot and position of its first transmission. -/
structure RxFlit where
  bytes   : List Byte
  channel : BitVec 5
  bad     : Bool
  slot    : BitVec 64
  pos     : BitVec 12
  deriving DecidableEq, Repr

/-- A lane (R228): transmit or receive, index 96 * n + LLL. -/
structure LaneRef where
  tx  : Bool
  idx : BitVec 9
  deriving DecidableEq, Repr

/-- What holds light on a channel (R228, R242-R245): a lane's laser or modulator, or a port's add or drop ring. -/
inductive OpticRef where
  | lane (l : LaneRef)
  | addRing (port : BitVec 6) (ring : BitVec 5)
  | dropRing (port : BitVec 6) (ring : BitVec 5)
  deriving DecidableEq, Repr

/-- Which message is complete (R270): that of a reassembly entry, or one of a firmware routine, whose transport the manual
leaves to the routine: the rows of a parcel from a sender, a dK and dV section, a gather segment of storage block g. -/
inductive MsgDone where
  | entry (i : Nat)
  | parcel (k : Nat) (sender : BitVec 6) (rows : List Byte)
  | dkvSection (k : Nat) (bytes : List Byte)
  | segment (k : Nat) (g : Nat) (bytes : List Byte)
  deriving DecidableEq, Repr

/-- What a reduction hop receives (R289, R293, R296): a partner's segment of one storage block, the OR of the partners'
bitmaps after an attempt, or a pair of norm totals with whether it comes from the same tray. -/
inductive HopInput where
  | segment (bucket : Nat) (block : Nat) (bytes : List Byte)
  | agreement (satMap : List Nat) (badMap : List Nat)
  | trayPair (sumL sumO : BitVec 64)
  | trayTotals (totals : List (BitVec 64 × BitVec 64))
  deriving DecidableEq, Repr

/-- A job-ring entry as read from host memory: its 64 bytes (Table 14-3). -/
structure JobEntry where
  bytes : List Byte
  deriving DecidableEq, Repr

/-- A UDP datagram as it arrives on a service lane (R325, R326): the lane, source and destination addresses and ports, whether its
checksum is bad, its data. -/
structure Lly where
  lane   : Bool
  origin : BitVec 128
  target : BitVec 128
  port   : BitVec 16
  toPort : BitVec 16
  badSum : Bool
  bytes  : List Byte
  deriving DecidableEq, Repr

/-- A debug access request: the 96 bits that Update-DR submits (Table 20-2). -/
abbrev DbgReq := BitVec 96

/-- What a fuse operation meets (R379, R380): the words programmed before it ends early, none when every word is programmed,
and whether it ends early because SAFE is entered or the input is lost, rather than by a failed read-back. -/
structure FuseEnv where
  failAfter : Option Nat
  cut       : Bool
  deriving DecidableEq, Repr

/-- The input power as the cap controller measures it (R347): means over 100 µs and 1 s and the activity estimate of the input (R349), in
tenths of a watt. -/
structure PowerReading where
  mean100us : Nat
  mean1s    : Nat
  estimate  : Nat
  deriving DecidableEq, Repr

/-- The channels whose resonance a port's ring reaches, the least heater power first (R243). -/
structure RingFinding where
  drop  : Bool
  port  : BitVec 6
  ring  : BitVec 5
  reach : List (BitVec 5)
  deriving DecidableEq, Repr

/-- What start-up found (Table 18-4): physical cores that failed their self-test, stacks that failed training, channels with
a DQ lane that failed training (stack, channel; R135), the lanes whose laser or modulator found no lock and what the searches of port
rings found (R242, R243; a ring k that is not listed reaches channel k alone), and of each churn the slots that locked and what the calibration that ends WAKING found (R51, R65). -/
structure StartFinding where
  cores  : List (BitVec 12)
  failed : List (BitVec 3)
  lanes  : List (BitVec 3 × BitVec 5)
  unlocked : List LaneRef
  rings  : List RingFinding
  churns : List (BitVec 4 × CalFinding)
  deriving DecidableEq, Repr

/-- The commands. One constructor per row of spec/opcode_table.json, in the table's order. -/
inductive Instr where
  -- core instructions (chapter 04)
  | nop (i : Issue)
  | sadd (i : Issue)
  | ssub (i : Issue)
  | smul (i : Issue)
  | sand (i : Issue)
  | sor (i : Issue)
  | sxor (i : Issue)
  | sshl (i : Issue)
  | sshr (i : Issue)
  | ssra (i : Issue)
  | sli (i : Issue)
  | slih (i : Issue)
  | br (i : Issue)
  | sld (i : Issue)
  | sst (i : Issue)
  | srdsys (i : Issue)
  | endp (i : Issue)
  | vadd (i : Issue)
  | vsub (i : Issue)
  | vmul (i : Issue)
  | vfma (i : Issue)
  | vmax (i : Issue)
  | vmin (i : Issue)
  | vabs (i : Issue)
  | vneg (i : Issue)
  | vscale2 (i : Issue)
  | vcmp (i : Issue)
  | vsel (i : Issue)
  | vcvt (i : Issue)
  | vmov (i : Issue)
  | vbcast (i : Issue)
  | rsum (i : Issue)
  | rmax (i : Issue)
  | rmin (i : Issue)
  | rsumsq (i : Issue)
  | trans (i : Issue)
  | func (i : Issue)
  | deriv (i : Issue)
  | tmul (i : Issue)
  | pld (i : Issue)
  | pst (i : Issue)
  | pldw (i : Issue)
  | pstn (i : Issue)
  | cissue (i : Issue)
  | cpop (i : Issue)
  | cpopnb (i : Issue)
  | ssig (i : Issue) (badCopies : BitVec 2)
  | swait (i : Issue) (badCopies : BitVec 2)
  | fence (i : Issue)
  | breakpointHit (core : BitVec 12)
  | waitResume (w : Waiter)
  -- churn commands and events (chapters 02, 03); churn 16 * d + K
  | load (ch : BitVec 6) (parity : Option (BitVec 12))
  | swap (ch : BitVec 6)
  | stream (ch : BitVec 6) (symbols : Nat) (parity : Option (BitVec 12))
  | tileFence (ch : BitVec 6)
  | cal (ch : BitVec 6)
  | shadowBankValid (ch : BitVec 6)
  | codeRelease (ch : BitVec 6)
  | calibrationDue (ch : BitVec 6)
  | calibrationDone (ch : BitVec 6) (f : CalFinding)
  | slotLockLoss (ch : BitVec 6) (slot : BitVec 2)
  | slotRelockAttemptEnd (ch : BitVec 6) (slot : BitVec 2) (ok : Bool)
  | lightLoss (ch : BitVec 6)
  | relightAttemptEnd (ch : BitVec 6) (reference : Bool) (locked : BitVec 4) (f : CalFinding)
  | wakeDone (ch : BitVec 6) (locked : BitVec 4) (f : CalFinding)
  | darkTimeout (ch : BitVec 6)
  -- DMA and slice operations (chapters 06, 07)
  | descriptorFetch (q : QRef) (env : XferEnv)
  | copy (q : QRef) (env : XferEnv)
  | fill (q : QRef) (env : XferEnv)
  | pageRead (q : QRef) (env : XferEnv)
  | pageWrite (q : QRef) (env : XferEnv)
  | send (q : QRef) (env : XferEnv)
  | atAddU32 (q : QRef) (env : XferEnv)
  | atAddU64 (q : QRef) (env : XferEnv)
  | atAddF32 (q : QRef) (env : XferEnv)
  | atMaxI32 (q : QRef) (env : XferEnv)
  | atMinI32 (q : QRef) (env : XferEnv)
  | atMaxU32 (q : QRef) (env : XferEnv)
  | atMinU32 (q : QRef) (env : XferEnv)
  | atMaxF32 (q : QRef) (env : XferEnv)
  | atMinF32 (q : QRef) (env : XferEnv)
  | atAnd (q : QRef) (env : XferEnv)
  | atOr (q : QRef) (env : XferEnv)
  | atXor (q : QRef) (env : XferEnv)
  | atSwapU32 (q : QRef) (env : XferEnv)
  | atSwapU64 (q : QRef) (env : XferEnv)
  | atCasU32 (q : QRef) (env : XferEnv)
  | atCasU64 (q : QRef) (env : XferEnv)
  | rdAddF32 (q : QRef) (env : XferEnv)
  | rdAddBf16F32 (q : QRef) (env : XferEnv)
  | rdAddI32 (q : QRef) (env : XferEnv)
  | rdMaxF32 (q : QRef) (env : XferEnv)
  | rdMinF32 (q : QRef) (env : XferEnv)
  | rdAddBs8I32 (q : QRef) (env : XferEnv)
  | dmaCompletion (q : QRef)
  | stackTempReading (stack : BitVec 3) (temp : BitVec 16)
  | patrolScrub (stack : BitVec 3) (sector : BitVec 31) (found : EccFinding)
  | dqLaneSteer (stack : BitVec 3) (channel : BitVec 5)
  -- attention and long sequences (chapters 08, 09); region 16 * n + KK
  | attnForward (region : BitVec 6) (env : MemEnv)
  | attnBackward (region : BitVec 6) (env : MemEnv)
  | milkRoundStart (k : Nat) (env : MemEnv)
  | parcelForward (k : Nat) (free : BitVec 64) (env : MemEnv)
  | gatherTileConvert (k : Nat) (tile : Nat)
  | waitWorkStart (env : MemEnv)
  -- step plans (chapter 10): the running context's entry that is due
  | lanePlan
  | epoch
  | deadline
  | stepEnd (env : MemEnv)
  | switch
  | wait
  | signalObj
  | syncSet
  | start
  | milk (env : MemEnv)
  | gather (env : MemEnv)
  | coll (env : MemEnv)
  | opt (env : MemEnv)
  | stash (env : MemEnv)
  | skipif (env : MemEnv)
  | phase
  | slotBoundary (env : MemEnv)
  | beaconReceive (port : BitVec 6) (word : BitVec 64)
  | verdict (env : MemEnv)
  | undoRestore (env : MemEnv)
  | contextSwitch (env : MemEnv)
  | switchRequest (v : BitVec 64)
  | syncObjectWrite (obj : BitVec 16) (typ : BitVec 2) (v : BitVec 64)
  | controlBlockReceive (port : BitVec 6) (b : CtlBlock)
  | parentLoss
  | holdoverTimeout
  -- fabric optics (chapter 11)
  | lanePlanWrite (plan : BitVec 6) (bytes : List Byte)
  | planSelectRequest (v : BitVec 64)
  | pathSwitch (out : Bool) (port : BitVec 6) (channel : BitVec 5) (connect : Bool)
  | preambleCheck (lane : BitVec 9) (channel : BitVec 5) (plan : BitVec 6)
  | preambleTimeout (lane : BitVec 9)
  | wrongLock (e : OpticRef) (found : BitVec 5)
  | laneLockLoss (e : OpticRef)
  | laneRelockAttemptEnd (e : OpticRef) (ok : Bool)
  | spareSubstitution (l : LaneRef)
  | portOpen (port : BitVec 6) (power : BitVec 16)
  | probeSend (port : BitVec 6)
  | probeReceive (port : BitVec 6) (slot : BitVec 64) (seen : BitVec 8)
  | portRelight (port : BitVec 6)
  -- routing and flow control (chapter 12)
  | routeTableWrite (version : Bool) (bytes : List Byte)
  | epochSelectRequest (v : BitVec 64)
  | windowReset (v : BitVec 32)
  | packetInject (k : Nat)
  | packetReceive (port : BitVec 6) (flits : List RxFlit)
  | truncation (port : BitVec 6) (vc : BitVec 3)
  | routeTimeout (port : BitVec 6) (vc : BitVec 3)
  | messageComplete (m : MsgDone) (env : MemEnv)
  | returnInject
  | returnReceive (p : Packet)
  | repairBoundary (port : BitVec 6)
  | congestionMapLatch
  | reductionHop (k : Nat) (i : HopInput) (env : MemEnv)
  -- host attachment (chapter 14)
  | headLineSnoop (head rspDone : BitVec 64)
  | jobNop (e : JobEntry)
  | loadContext (e : JobEntry) (hostDesc : Option (List Byte)) (env : MemEnv)
  | unloadContext (e : JobEntry)
  | startContext (e : JobEntry)
  | stopContext (e : JobEntry)
  | contextFirstRun (env : MemEnv)
  | ringActivate (v : BitVec 8) (head rspDone : BitVec 64)
  | hostMemRead (offset : BitVec 37) (len : BitVec 7) (env : MemEnv)
  | hostMemWrite (offset : BitVec 37) (bytes : List Byte) (env : MemEnv)
  | biSnoopResponse (line : BitVec 33) (dirty : Option (List Byte))
  | coherenceTimeout (line : BitVec 33)
  | cxlLinkDown
  | cxlLinkUp (width speed : BitVec 8) (head rspDone : BitVec 64)
  | functionReset
  | hostRstNAssert
  | hostRstNRelease
  -- dictionary and service network (chapter 15)
  | openSession (m : Lly)
  | closeSession (m : Lly)
  | ping (m : Lly)
  | read (m : Lly)
  | write (m : Lly)
  | describe (m : Lly)
  | sessionTimeout (session : BitVec 32)
  | heldRequestTimeout (session seq : BitVec 32)
  | apertureSelect (k : BitVec 4) (v : BitVec 32)
  | apertureRead (off : BitVec 21) (len : BitVec 4)
  | apertureWrite (off : BitVec 21) (bytes : List Byte)
  | odWrite (index : BitVec 16) (sub : BitVec 8) (off : BitVec 16) (bytes : List Byte)
  | stateCommandStandby (cleared : Bool)
  | stateCommandReady
  | stateCommandRun
  | stateCommandService
  | stateChangeComplete
  | startUpComplete (f : StartFinding)
  | performanceLevelCommand (v : BitVec 8)
  -- power and heat (chapter 16)
  | currentLimit (rail : BitVec 5) (peak : BitVec 16)
  | currentLimitRelease (rail : BitVec 5)
  | rampStep (die : BitVec 2) (up : Bool) (ballast : Bool)
  | droopDetect (region : BitVec 6)
  | droopRelease (region : BitVec 6)
  | sustainedStretchCheck (die : BitVec 2)
  | capEvaluation (r : PowerReading)
  | estimateDisagreement (rail : BitVec 5) (ended : Bool)
  | thermalEvaluation (die : BitVec 2) (temp junction : Int)
  -- clocks and resets (chapter 17)
  | triggerEvent (line : BitVec 2) (rising : Bool)
  | clockStop (domain : BitVec 5) (inst : BitVec 6)
  | clockWake (domain : BitVec 5) (inst : BitVec 6)
  | crossingReset (group : BitVec 4) (inst : BitVec 6)
  -- start-up and security (chapter 18)
  | coldStart
  | powerLoss
  | modRstNAssert (ns : Nat)
  | modRstNRelease
  | imageChunkWrite (bytes : List Byte)
  | imageVerify (v : BitVec 8)
  | ownerKeyReplace (bytes : List Byte) (env : FuseEnv)
  | ownerSlotRevoke (slot : BitVec 8) (env : FuseEnv)
  | vendorKeyRevoke (key : BitVec 8) (env : FuseEnv)
  | svnRaise (n : BitVec 8) (env : FuseEnv)
  | debugEnable (v : BitVec 8)
  | debugDisable (v : BitVec 8)
  | presenceSample (jumper sealIntact : Bool)
  | attestationRequest (nonce : List Byte)
  -- safety (chapter 19)
  | inputOvercurrent
  | inputVoltage
  | railOutOfRange (rail : BitVec 5)
  | coolantLoss
  | runawayTemperature (inst : BitVec 4)
  | laserSupplyCut (port : BitVec 6)
  | heartbeatLoss
  | monitorSelfCheck (ok : Bool)
  | herdIntervalEnd
  | herdBookClear (v : BitVec 8)
  -- debug and trace (chapter 20)
  | tapReset
  | extest (pins cells : BitVec 64)
  | idcode
  | samplePreload (pins cells : BitVec 64)
  | bypass
  | debugNop (r : DbgReq)
  | halt (r : DbgReq)
  | resume (r : DbgReq)
  | dbgStep (r : DbgReq)
  | setAddr (r : DbgReq)
  | debugRead (r : DbgReq) (env : MemEnv)
  | debugWrite (r : DbgReq) (env : MemEnv)
  | setBp (r : DbgReq)
  | readReg (r : DbgReq)
  | writeReg (r : DbgReq)
  | traceRecordWrite
  -- rows the table lists last
  | laneSearchEnd (e : OpticRef) (locked : Bool)
  | hostCompletionTimeout (q : QRef)
  | malformedDatagram (m : Lly)
  | icmpv6Echo (lane : Bool) (origin target : BitVec 128) (payload : List Byte)
  | neighbourDiscovery (lane : Bool) (origin target : BitVec 128)
  | serviceLaneDown (lane : Bool)
  | serviceLaneUp (lane : Bool)
  | hdmDecoderCommit (commit : Bool)
  deriving DecidableEq, Repr

end Sys2Proof
end

