-- ==== Sys2Proof/Machine/Bytes.lean ====
section
/-! DEFINITION. Little-endian numbers and bit fields of byte structures (R9). -/

namespace Sys2Proof.Machine

/-- The number that little-endian bytes hold (R9). -/
def leNat : List Byte → Nat
  | [] => 0
  | b :: t => b.toNat + 256 * leNat t

/-- The `n` little-endian bytes of a number, taken modulo 256^n (R9). -/
def leBytes : Nat → Nat → List Byte
  | 0, _ => []
  | n + 1, v => BitVec.ofNat 8 v :: leBytes n (v / 256)

/-- `n` bytes of a structure from byte `o`; bytes beyond its end are 0. -/
def sliceBytes (bs : List Byte) (o n : Nat) : List Byte :=
  let t := (bs.drop o).take n
  t ++ List.replicate (n - t.length) 0

/-- The unsigned field of `n` bytes at byte `o` of a structure (R9). -/
def fld (bs : List Byte) (o n : Nat) : Nat := leNat ((bs.drop o).take n)

/-- Bits [hi:lo] of a number. -/
def bits (v hi lo : Nat) : Nat := v / 2 ^ lo % 2 ^ (hi + 1 - lo)

/-- Bit n of a number. -/
def bit (v n : Nat) : Bool := v.testBit n

/-- The two's complement reading of the low `w` bits of a number (R9). -/
def sInt (w v : Nat) : Int :=
  let u := v % 2 ^ w
  if u < 2 ^ (w - 1) then (u : Int) else (u : Int) - (2 ^ w : Nat)

/-- The `w` two's complement bits of an integer, as a number (R9). -/
def uNat (w : Nat) (i : Int) : Nat := (i % ((2 ^ w : Nat) : Int)).toNat

/-- Replace the bytes of a structure from byte `o` on; bytes that fall beyond its end are dropped. -/
def putBytes (bs : List Byte) (o : Nat) (new : List Byte) : List Byte :=
  (bs.take o ++ new ++ bs.drop (o + new.length)).take bs.length

/-- 1 for true. -/
def b2n (b : Bool) : Nat := if b then 1 else 0

/-- How many of the numbers below `n` satisfy a test. -/
def countBelow (p : Nat → Bool) : Nat → Nat
  | 0 => 0
  | n + 1 => countBelow p n + b2n (p n)

/-- The numbers below `n` that satisfy a test, rising. -/
def listBelow (p : Nat → Bool) (n : Nat) : List Nat := (List.range n).filter p

/-- The sum of f over the numbers below n. -/
def sumBelow (f : Nat → Nat) : Nat → Nat
  | 0 => 0
  | n + 1 => sumBelow f n + f n

/-- Saturate an integer to a closed interval. -/
def clampInt (lo hi x : Int) : Int := if x < lo then lo else if hi < x then hi else x

end Sys2Proof.Machine
end

