-- ==== Sys2Proof/Config.lean ====
section
/-! DEFINITION. What the manual leaves open or takes from outside it: the free values. Each is a constant without a body,
so nothing in Lean can learn a value of it; a statement about one holds whatever it is. The assumption log names each. -/

namespace Sys2Proof.Config

/-- The code the ADC delivers for the draw number and the ideal code c_star (R27, R46, R57). The model clamps it to
-511 .. 511. FREE VALUE, log entry 1. -/
opaque analogCode : Nat → Int → Int

/-- The FUNC result of the table unit for a selector and an input, apart from the special inputs of R82; the model holds it to the
bound of R81. The coefficient tables are published outside the manual. FREE VALUE, log entry 2. -/
opaque funcTable : Nat → BitVec 32 → BitVec 32

/-- The DERIV result of the table unit for a selector and an input, apart from the special inputs of R82,
held to the bound of R81. FREE VALUE, log entry 2. -/
opaque derivTable : Nat → BitVec 32 → BitVec 32

/-- The coefficient tables' version, OD 0x2302:01. FREE VALUE, log entry 2. -/
opaque tableVersion : BitVec 32

/-- Whether a byte at or above the failing transfer offset of a stopped descriptor was written (R148), by draw number
and transfer offset. FREE VALUE, log entry 3. -/
opaque writtenPast : Nat → Nat → Bool

/-- The nanoseconds by which a time stamp taken outside the fabric-time domain exceeds fabric time, by draw number; the
model takes it modulo 33 (R361). FREE VALUE, log entry 4. -/
opaque stampSkew : Nat → Nat

/-- A byte the manual calls undefined after an operation that goes on (R177, R292, R390), by draw number and position.
FREE VALUE, log entry 5. -/
opaque undefByte : Nat → Nat → BitVec 8

/-- The session number that OPEN draws (R327), by draw number. The model makes it nonzero and unused. FREE VALUE, log entry 6. -/
opaque sessionDraw : Nat → BitVec 32

/-- SHAKE256 of a message, as a function from the index of an output byte (R371, R377, R381, R382). The manual names the
function and does not define it. FREE VALUE, log entry 7. -/
opaque shake256 : List (BitVec 8) → Nat → BitVec 8

/-- Whether an Ed448 signature (third) over a message (second) verifies under a public key (first) (R371). FREE VALUE, log entry 7. -/
opaque ed448Verify : List (BitVec 8) → List (BitVec 8) → List (BitVec 8) → Bool

/-- The Ed448 signature of a message under the attestation key derived from the given secret bytes, by byte index (R382).
FREE VALUE, log entry 7. -/
opaque ed448Sign : List (BitVec 8) → List (BitVec 8) → Nat → BitVec 8

/-- The Ed448 public key of a private key, by byte index (R382). FREE VALUE, log entry 7. -/
opaque ed448Public : List (BitVec 8) → Nat → BitVec 8

/-- The boot ROM's vendor keys 0 .. 3, by byte index (R371). FREE VALUE, log entry 8. -/
opaque vendorKey : Nat → Nat → BitVec 8

/-- The contents of the boot ROM that extend M0 (R381). FREE VALUE, log entry 8. -/
opaque romBytes : List (BitVec 8)

/-- The 772 fuse bytes as shipped (R377), by byte offset. FREE VALUE, log entry 8. -/
opaque shippedFuse : Nat → BitVec 8

/-- The device secret's 64 fuse bytes (R377), never readable. FREE VALUE, log entry 8. -/
opaque deviceSecret : List (BitVec 8)

/-- Module addresses and identities of the part that R336 leaves to it: the MAC addresses of SL0 and SL1. FREE VALUE, log entry 8. -/
opaque macAddress : Nat → BitVec 48

/-- The type-specific reading of a regulator, thermometer or estimator that no command of the table delivers
(those of freeEntries), by entry key and draw number. FREE VALUE, log entry 9. -/
opaque reading : Nat → Nat → Nat

/-- The bit pattern of a value whose encoding the manual leaves unstated, by draw number. FREE VALUE, log entry 5. -/
opaque freeWord : Nat → BitVec 64

/-- Whether a MOD_RST_N low pulse of a length between 0.90 ms and 1.00 ms causes the cold start (R417), by its length in
nanoseconds and a draw number. FREE VALUE, log entry 10. -/
opaque shortResetActs : Nat → Nat → Bool

/-- The package straps of a die, in the order of OD 0x1000:04 (R374). FREE VALUE, log entry 8. -/
opaque strap : Nat → BitVec 6

/-- The identity word of a die, in the order of OD 0x1000:04 (R374). FREE VALUE, log entry 8. -/
opaque identity : Nat → BitVec 16

/-- The tray position that the carrier's straps give (R417). FREE VALUE, log entry 8. -/
opaque trayPosition : BitVec 3

/-- The core whose context file takes the numeric flags that a firmware routine raises (R101, R112), by draw number; the model takes it modulo
4,096. FREE VALUE, log entry 47. -/
opaque routineCore : Nat → Nat

/-- The set of a slice, modulo 16,384, that a line number MA div 128 of its stack belongs to (R126). FREE VALUE, log entry 48. -/
opaque sliceSet : Nat → Nat

/-- The line of a full set that a new line replaces, by draw number; the model takes it modulo 24 (R126). FREE VALUE, log entry 48. -/
opaque sliceVictim : Nat → Nat

/-- The correction code over bits [243:0] of a lane frame (R230, Table 11-4); the manual says what it corrects and detects, not the code.
FREE VALUE, log entry 49. -/
opaque frameCheck : BitVec 244 → BitVec 12

end Sys2Proof.Config
end

