-- ==== Sys2Proof/Machine/Num.lean ====
section
/-! DEFINITION. Number formats, rounding, the generator and exact arithmetic (chapter 05, R77-R80, R97-R103, R108-R112).
Values are computed exactly, as integers over powers of two or as quotients, and rounded once at the end. -/

namespace Sys2Proof.Machine

/-- A value of a floating-point format: NaN, an infinity, or ± mag × 2^exp (R97). -/
inductive FVal where
  | nan
  | inf (neg : Bool)
  | fin (neg : Bool) (mag : Nat) (exp : Int)
  deriving DecidableEq, Repr

/-- A floating-point format (Table 05-1): precision, smallest normal exponent, width, whether it has infinities, and the
encoding of its largest finite magnitude. -/
structure Fmt where
  p      : Nat
  emin   : Int
  w      : Nat
  hasInf : Bool
  top    : Nat
  deriving DecidableEq, Repr

/-- FP32 (Table 05-1). -/
def fp32 : Fmt := ⟨24, -126, 32, true, 0x7F7FFFFF⟩
/-- BF16 (Table 05-1). -/
def bf16 : Fmt := ⟨8, -126, 16, true, 0x7F7F⟩
/-- FP8 E4M3 (Table 05-1): no infinity, NaN 0x7F and 0xFF only. -/
def e4m3 : Fmt := ⟨4, -6, 8, false, 0x7E⟩
/-- FP8 E5M2 (Table 05-1). -/
def e5m2 : Fmt := ⟨3, -14, 8, true, 0x7B⟩
/-- IEEE 754 binary64 (Table 15-1). -/
def f64 : Fmt := ⟨53, -1022, 64, true, 0x7FEFFFFFFFFFFFFF⟩

/-- The canonical NaN of FP32 (R77, R99). -/
def nan32 : Word := 0x7FC00000

/-- The value of an encoding (R97). -/
def Fmt.decode (f : Fmt) (v : Nat) : FVal :=
  let neg := v.testBit (f.w - 1)
  let m := v % 2 ^ (f.w - 1)
  let frac := m % 2 ^ (f.p - 1)
  let ex := m / 2 ^ (f.p - 1)
  if f.top < m then (if f.hasInf && decide (m = f.top + 1) then .inf neg else .nan)
  else if ex = 0 then .fin neg frac (f.emin - (f.p - 1 : Nat))
  else .fin neg (frac + 2 ^ (f.p - 1)) ((ex : Int) - 1 + f.emin - (f.p - 1 : Nat))

/-- ⌊log2 (n / d)⌋ for n, d > 0. -/
def flog2 (n d : Nat) : Int :=
  let l : Int := (Nat.log2 n : Int) - (Nat.log2 d : Int)
  if 0 ≤ l then (if n < d * 2 ^ l.toNat then l - 1 else l)
  else (if n * 2 ^ (-l).toNat < d then l - 1 else l)

/-- The quotient n / d over 2^k, as numerator and denominator. -/
def scaleBy (n d : Nat) (k : Int) : Nat × Nat :=
  if 0 ≤ k then (n, d * 2 ^ k.toNat) else (n * 2 ^ (-k).toNat, d)

/-- Round n / d to an integer in mode RND with the drawn word u (R100, with q = 1). -/
def roundQ (n d mode u : Nat) : Nat :=
  let lo := n / d
  let r := n % d
  if r = 0 then lo
  else if mode = 0 then (if d < 2 * r ∨ (d = 2 * r ∧ lo % 2 = 1) then lo + 1 else lo)
  else if mode = 1 then lo
  else if u < r * 2 ^ 32 / d then lo + 1 else lo

/-- Round the magnitude n / d into a format (R100): the magnitude's encoding, which may exceed the largest finite one. -/
def Fmt.roundMag (f : Fmt) (n d mode u : Nat) : Nat :=
  if n = 0 then 0 else
  let l := flog2 n d
  let qe := (if l < f.emin then f.emin else l) - ((f.p - 1 : Nat) : Int)
  let s := scaleBy n d qe
  (qe + (f.p - 1 : Nat) - f.emin).toNat * 2 ^ (f.p - 1) + roundQ s.1 s.2 mode u

/-- The encoding of a sign and a magnitude encoding. -/
def Fmt.signed (f : Fmt) (neg : Bool) (m : Nat) : Nat := if neg then m + 2 ^ (f.w - 1) else m

/-- The encoding of the canonical NaN (R99). -/
def Fmt.nan (f : Fmt) : Nat :=
  if f.hasInf then f.top + 1 + 2 ^ (f.p - 2) else 2 ^ (f.w - 1) - 1

/-- Round ± n / d to the format in nearest-even mode with overflow to infinity, as an arithmetic result (R77). -/
def Fmt.ofQ (f : Fmt) (neg : Bool) (n d : Nat) : Nat :=
  let m := f.roundMag n d 0 0
  f.signed neg (if f.top < m then f.top + 1 else m)

/-- ± mag × 2^exp as numerator and denominator. -/
def dyQ (mag : Nat) (e : Int) : Nat × Nat := scaleBy mag 1 (-e)

/-- Round the exact sum i × 2^e; a zero sum takes the sign given. -/
def Fmt.ofDy (f : Fmt) (i e : Int) (zeroNeg : Bool) : Nat :=
  if i = 0 then f.signed zeroNeg 0 else let q := dyQ i.natAbs e; f.ofQ (decide (i < 0)) q.1 q.2

/-- The signed integer mantissa of a finite value at a lower exponent e. -/
def atExp (neg : Bool) (mag : Nat) (x e : Int) : Int :=
  let m : Int := (mag * 2 ^ (x - e).toNat : Nat)
  if neg then -m else m

/-- Addition (R77): exact, one rounding to nearest even. -/
def Fmt.addV (f : Fmt) : FVal → FVal → Nat
  | .nan, _ => f.nan
  | _, .nan => f.nan
  | .inf a, .inf b => if a = b then f.signed a (f.top + 1) else f.nan
  | .inf a, .fin .. => f.signed a (f.top + 1)
  | .fin .., .inf b => f.signed b (f.top + 1)
  | .fin na ma ea, .fin nb mb eb =>
    let e := if ea < eb then ea else eb
    f.ofDy (atExp na ma ea e + atExp nb mb eb e) e (na && nb && decide (ma = 0) && decide (mb = 0))

/-- The exact product of two values: infinity times zero is NaN. -/
def FVal.mul : FVal → FVal → FVal
  | .nan, _ => .nan
  | _, .nan => .nan
  | .inf a, .inf b => .inf (a != b)
  | .inf a, .fin b m _ => if m = 0 then .nan else .inf (a != b)
  | .fin a m _, .inf b => if m = 0 then .nan else .inf (a != b)
  | .fin a m x, .fin b n y => .fin (a != b) (m * n) (x + y)

/-- Round a value into a format, to nearest even with overflow to infinity. -/
def Fmt.ofVal (f : Fmt) : FVal → Nat
  | .nan => f.nan
  | .inf a => f.signed a (f.top + 1)
  | .fin a m e => let q := dyQ m e; f.ofQ a q.1 q.2

/-- Negate a value. -/
def FVal.neg : FVal → FVal
  | .nan => .nan
  | .inf a => .inf !a
  | .fin a m e => .fin (!a) m e

/-- The value times 2^n. -/
def FVal.shift (n : Int) : FVal → FVal
  | .fin a m e => .fin a m (e + n)
  | v => v

/-- Whether a value is NaN. -/
def FVal.isNan : FVal → Bool
  | .nan => true
  | _ => false

/-- Whether a value is an infinity. -/
def FVal.isInf : FVal → Bool
  | .inf _ => true
  | _ => false

/-- Whether a value is finite. -/
def FVal.isFin : FVal → Bool
  | .fin .. => true
  | _ => false

/-- The FP32 value of a word. -/
def val32 (w : Word) : FVal := fp32.decode w.toNat

/-- FP32 addition (R77). -/
def add32 (a b : Word) : Word := BitVec.ofNat 32 (fp32.addV (val32 a) (val32 b))
/-- FP32 subtraction (R77). -/
def sub32 (a b : Word) : Word := BitVec.ofNat 32 (fp32.addV (val32 a) (val32 b).neg)
/-- FP32 multiplication (R77). -/
def mul32 (a b : Word) : Word := BitVec.ofNat 32 (fp32.ofVal ((val32 a).mul (val32 b)))
/-- FP32 fused multiply-add, one rounding (R77, R28). -/
def fma32 (a b c : Word) : Word := BitVec.ofNat 32 (fp32.addV ((val32 a).mul (val32 b)) (val32 c))
/-- FP32 multiplication by 2^n, one rounding (R77). -/
def scale32 (a : Word) (n : Int) : Word := BitVec.ofNat 32 (fp32.ofVal ((val32 a).shift n))
/-- The FP32 word of an integer, to nearest even; used where the integer is exact or Table 05-3 rounds it. -/
def int32 (i : Int) : Word := BitVec.ofNat 32 (fp32.ofDy i 0 false)

/-- The order of finite and infinite values: whether a < b (false on NaN). -/
def FVal.lt : FVal → FVal → Bool
  | .nan, _ => false
  | _, .nan => false
  | .inf a, .inf b => a && !b
  | .inf a, .fin .. => a
  | .fin .., .inf b => !b
  | .fin na ma ea, .fin nb mb eb =>
    let e := if ea < eb then ea else eb
    decide (atExp na ma ea e < atExp nb mb eb e)

/-- Whether two values are equal (false on NaN). -/
def FVal.eq : FVal → FVal → Bool
  | .nan, _ => false
  | _, .nan => false
  | a, b => !a.lt b && !b.lt a

/-- FP32 maximum (R77): NaN if either is, +0.0 above -0.0. -/
def max32 (a b : Word) : Word :=
  let x := val32 a; let y := val32 b
  if x.isNan || y.isNan then nan32 else if x.lt y then b else if y.lt x then a
  else if a.getLsbD 31 then b else a

/-- FP32 minimum (R77): NaN if either is, -0.0 below +0.0. -/
def min32 (a b : Word) : Word :=
  let x := val32 a; let y := val32 b
  if x.isNan || y.isNan then nan32 else if x.lt y then a else if y.lt x then b
  else if a.getLsbD 31 then a else b

/-- Numeric flags (R95). -/
def flagNan : BitVec 4 := 1
/-- An infinity produced from finite operands (R95). -/
def flagInf : BitVec 4 := 2
/-- An I32 wrap (R95). -/
def flagWrap : BitVec 4 := 4
/-- A NaN operand seen (R95). -/
def flagSeen : BitVec 4 := 8

/-- Narrow an FP32 value into BF16 or FP8 (Table 05-3): the encoding and the flags. -/
def Fmt.narrow (f : Fmt) (v : FVal) (mode u : Nat) : Nat × BitVec 4 :=
  match v with
  | .nan => (f.nan, flagSeen)
  | .inf a => if f.hasInf then (f.signed a (f.top + 1), 0) else (f.nan, flagNan)
  | .fin a m e =>
    let q := dyQ m e
    let r := f.roundMag q.1 q.2 mode u
    if f.top < r then
      (if f.w = 16 then (if mode = 1 then (f.signed a f.top, 0) else (f.signed a (f.top + 1), flagInf))
       else (f.signed a f.top, 0))
    else (f.signed a r, 0)

/-- Narrow an FP32 value to an integer within ±lim, an infinity going to the limit (Table 05-3). -/
def narrowInt (v : FVal) (mode u : Nat) (lo hi : Int) : Int × BitVec 4 :=
  match v with
  | .nan => (0, flagSeen)
  | .inf a => (if a then lo else hi, 0)
  | .fin a m e =>
    let q := dyQ m e
    let k : Int := (roundQ q.1 q.2 mode u : Nat)
    (clampInt lo hi (if a then -k else k), 0)

/-- Widen an encoding exactly to FP32 (R99). -/
def Fmt.widen (f : Fmt) (v : Nat) : Word := BitVec.ofNat 32 (fp32.ofVal (f.decode v))

/-- A churn input or weight code, or a BS8 value, from its byte: 0x80 reads as -127 (R24, R98). -/
def codeOf (b : Byte) : Int := if b = 0x80 then -127 else b.toInt

/-- One round of the generator (R102). -/
def philoxRound (c0 c1 c2 c3 k0 k1 : Nat) : Nat × Nat × Nat × Nat :=
  let p0 := 0xD2511F53 * c0
  let p1 := 0xCD9E8D57 * c2
  (((p1 / 2 ^ 32).xor c1).xor k0, p1 % 2 ^ 32, ((p0 / 2 ^ 32).xor c3).xor k1, p0 % 2 ^ 32)

/-- The rounds of the generator (R102). -/
def philoxRounds : Nat → Nat × Nat × Nat × Nat → Nat → Nat → Nat × Nat × Nat × Nat
  | 0, c, _, _ => c
  | n + 1, c, k0, k1 =>
    philoxRounds n (philoxRound c.1 c.2.1 c.2.2.1 c.2.2.2 k0 k1) ((k0 + 0x9E3779B9) % 2 ^ 32) ((k1 + 0xBB67AE85) % 2 ^ 32)

/-- Philox4x32-10 (R102). -/
def philox (c : Nat × Nat × Nat × Nat) (seed : Nat) : Nat × Nat × Nat × Nat :=
  philoxRounds 10 c (seed % 2 ^ 32) (seed / 2 ^ 32 % 2 ^ 32)

/-- The word drawn for an element (R102, Table 05-4): job seed, step number, tensor identifier, purpose code, index. -/
def drawU (seed step tensor purpose e : Nat) : Nat :=
  let e := e % 2 ^ 42
  let g := e / 4
  let c := (g % 2 ^ 32, g / 2 ^ 32 % 2 ^ 8 + purpose % 2 ^ 8 * 2 ^ 8 + tensor % 2 ^ 16 * 2 ^ 16,
    tensor / 2 ^ 16 % 2 ^ 16 + step % 2 ^ 16 * 2 ^ 16, step / 2 ^ 16 % 2 ^ 32)
  let o := philox c seed
  if e % 4 = 0 then o.1 else if e % 4 = 1 then o.2.1 else if e % 4 = 2 then o.2.2.1 else o.2.2.2

/-- A BS8 block: values, exponent, SAT and INVALID (R108). -/
structure Bs8 where
  q       : List Int
  e       : Int
  sat     : Bool
  invalid : Bool
  deriving DecidableEq, Repr

/-- Whether |v| ≤ 127 × 2^e. -/
def fits127 (e : Int) : FVal → Bool
  | .fin _ m x => let s := scaleBy m 1 (e - x); decide (s.1 ≤ 127 * s.2)
  | _ => false

/-- The smallest exponent from e on, within the fuel, at which every value fits (R109). -/
def freeExp (vs : List FVal) : Nat → Int → Int
  | 0, e => e
  | n + 1, e => if vs.all (fits127 e) then e else freeExp vs n (e + 1)

/-- One quantised value at exponent e: value and saturation (R109). -/
def quantOne (e : Int) (mode u : Nat) : FVal → Int × Bool
  | .fin a m x =>
    let s := scaleBy m 1 (e - x)
    let k := roundQ s.1 s.2 mode u
    let c : Int := ((if 127 < k then 127 else k : Nat) : Int)
    (if a then -c else c, decide (127 < k))
  | _ => (0, false)

/-- Quantise a block (R109): a given exponent, or none for the free one; `us` are the words drawn. -/
def quantise (vs : List FVal) (given : Option Int) (mode : Nat) (us : List Nat) : Bs8 :=
  if vs.any fun v => !v.isFin then ⟨vs.map fun _ => 0, -128, false, true⟩ else
  let e := match given with
    | some e => e
    | none => if vs.all (fun v => v.eq (.fin false 0 0)) then -128 else freeExp vs 249 (-128)
  let r := (vs.zip us).map fun x => quantOne e mode x.2 x.1
  ⟨r.map Prod.fst, e, r.any Prod.snd, false⟩

/-- Requantise exact sums held at e_in to e_out ≥ e_in (R110). -/
def requantise (sums : List Int) (eIn eOut : Int) (mode : Nat) (us : List Nat) (sat invalid : Bool) : Bs8 :=
  let r := (sums.zip us).map fun x => quantOne eOut mode x.2 (.fin (decide (x.1 < 0)) x.1.natAbs eIn)
  ⟨r.map Prod.fst, eOut, sat || r.any Prod.snd, invalid⟩

/-- Whether an exponent is reserved (R98). -/
def expReserved (e : Int) : Bool := decide (122 ≤ e)

/-- The widened value q × 2^e; a reserved exponent widens to an infinity for nonzero q (R110). -/
def widenBs8 (q e : Int) : FVal :=
  if expReserved e then (if q = 0 then .fin false 0 0 else .inf (decide (q < 0)))
  else .fin (decide (q < 0)) q.natAbs e

/-- The bytes of a BS8 segment (Table 05-6): 32 blocks. -/
def segBytes (bs : List Bs8) : List Byte :=
  (bs.map fun b => b.q.map (BitVec.ofInt 8)).flatten ++ bs.map (fun b => BitVec.ofInt 8 b.e) ++
    bs.map fun b => BitVec.ofNat 8 (b2n b.sat + 2 * b2n b.invalid)

/-- Block b of a segment (Table 05-6). -/
def segBlock (bs : List Byte) (b : Nat) : Bs8 :=
  let st := fld bs (1056 + b) 1
  ⟨(sliceBytes bs (32 * b) 32).map codeOf, sInt 8 (fld bs (1024 + b) 1), bit st 0, bit st 1⟩

/-- The padding block of a segment (R108). -/
def padBlock : Bs8 := ⟨List.replicate 32 0, -128, false, false⟩

/-- A BS8 value as a churn weight code under a tile exponent e_t (R111). -/
def weightCode (q e et : Int) : Int :=
  let s := scaleBy q.natAbs 1 (et - e)
  let k : Int := (roundQ s.1 s.2 0 0 : Nat)
  if q < 0 then -k else k

/-- The update of a parameter and its whey (R112): new parameter and new whey, as BF16 encodings. -/
def wheyUpdate (delta : Word) (p w : Nat) : Nat × Nat :=
  let a := add32 delta (bf16.widen w)
  let s := add32 (bf16.widen p) a
  let p1 := (bf16.narrow (val32 s) 0 0).1
  if (bf16.decode p1).isFin then (p1, (bf16.narrow (val32 (sub32 s (bf16.widen p1))) 0 0).1) else (p1, 0)

/-- The numeric flags that the whey update raises (R95, R112): a sum s that is not finite, and an overflow of p1. -/
def wheyFlags (delta : Word) (p w : Nat) : BitVec 4 :=
  let a := add32 delta (bf16.widen w)
  let s := add32 (bf16.widen p) a
  let finite := (val32 a).isFin && (bf16.decode p).isFin
  (if (val32 s).isNan then (if (val32 a).isNan || (bf16.decode p).isNan then flagSeen else flagNan)
    else if (val32 s).isInf && finite then flagInf else 0) ||| (if (val32 s).isFin then (bf16.narrow (val32 s) 0 0).2 else 0)

/-- The ideal output code of the exact sum P at gain g (R26). -/
def idealCode (p : Int) (g : Nat) : Int :=
  let k := roundQ (511 * p.natAbs * 2 ^ g) 2064512 0 0
  let c : Int := ((if 511 ≤ k then 511 else k : Nat) : Int)
  if p < 0 then -c else c

/-- Whether an output code counts as clipped (R26, R27). -/
def clippedCode (c : Int) : Bool := decide (511 ≤ c.natAbs)

end Sys2Proof.Machine
end

