-- ==== Sys2Proof/Machine/Sparse.lean ====
section
/-! DEFINITION. A sparse table: a list of key and value pairs in one canonical form, keys strictly rising and no entry
equal to what an unlisted key holds. Memory, register files and every large array of the module are held so. -/

namespace Sys2Proof.Machine

/-- A table from keys to values. What an unlisted key holds is an argument of the operations. -/
abbrev Sparse (α : Type) := List (Nat × α)

/-- The listed value at a key. -/
def Sparse.find {α : Type} : Sparse α → Nat → Option α
  | [], _ => none
  | (a, b) :: t, k => if k = a then some b else Sparse.find t k

/-- The value at a key, `d k` where none is listed. -/
def Sparse.get {α : Type} (d : Nat → α) (m : Sparse α) (k : Nat) : α := (Sparse.find m k).getD (d k)

/-- The table without the key. -/
def Sparse.del {α : Type} : Sparse α → Nat → Sparse α
  | [], _ => []
  | (a, b) :: t, k => if k = a then Sparse.del t k else (a, b) :: Sparse.del t k

/-- The table with the key listed, in its place. -/
def Sparse.ins {α : Type} (k : Nat) (v : α) : Sparse α → Sparse α
  | [] => [(k, v)]
  | (a, b) :: t => if k < a then (k, v) :: (a, b) :: t else if k = a then (k, v) :: t else (a, b) :: Sparse.ins k v t

/-- Write a value: a value that an unlisted key holds removes the entry. -/
def Sparse.set {α : Type} [DecidableEq α] (d : Nat → α) (m : Sparse α) (k : Nat) (v : α) : Sparse α :=
  if v = d k then Sparse.del m k else Sparse.ins k v m

/-- Keys strictly rising, all above `lo`, and no entry equal to what an unlisted key holds. -/
def Sparse.okFrom {α : Type} [DecidableEq α] (d : Nat → α) (lo : Nat) : Sparse α → Bool
  | [] => true
  | (a, b) :: t => decide (lo ≤ a) && (!decide (b = d a) && Sparse.okFrom d (a + 1) t)

/-- The canonical form. -/
def Sparse.wf {α : Type} [DecidableEq α] (d : Nat → α) (m : Sparse α) : Bool := Sparse.okFrom d 0 m

/-- Remove every entry whose key satisfies a test. -/
def Sparse.dropKeys {α : Type} (p : Nat → Bool) : Sparse α → Sparse α
  | [] => []
  | (a, b) :: t => if p a then Sparse.dropKeys p t else (a, b) :: Sparse.dropKeys p t

/-- The keys listed. -/
def Sparse.keys {α : Type} (m : Sparse α) : List Nat := m.map Prod.fst

/-- The table with every listed value passed through a function of its key and itself. -/
def Sparse.mapAll {α : Type} [DecidableEq α] (d : Nat → α) (f : Nat → α → α) (m : Sparse α) : Sparse α :=
  (Sparse.keys m).foldl (fun t k => Sparse.set d t k (f k (Sparse.get d m k))) m

end Sys2Proof.Machine
end

