-- ==== Sys2Proof/Machine/Types.lean ====
section
/-! DEFINITION. The parts of the module's state: one structure per unit of the manual. -/

namespace Sys2Proof.Machine

/-- The module states (Table 15-6). -/
inductive ModState where
  | off | standby | ready | run | service | safe
  deriving DecidableEq, Repr

/-- The time states (R207). -/
inductive TimeState where
  | unlocked | locked | holdover | lost
  deriving DecidableEq, Repr

/-- The control cluster's own state: monitor self-checks passed in succession (Table 19-5) and the clock
at the next one, whether the host commanded the state (R384), module state and change in progress with the
slot of its acceptance (R332), when the start-up began, whether MOD_RST_N is
held low and whether the input is present (R417),
level change waiting (R334), the physical cores retired (R386), the clock since the cold start in ns, entries into SAFE by cause and clock (R394), storage
events of cores by core, word and clock with the cores to retire at the next step boundary (R386), and by die one more than the
clock at which the slope last exceeded 4 °C/ms (R353). -/
structure Ctl where
  mstate     : ModState
  change     : Option ModState
  changeFrom : Nat
  startMark  : Nat
  resetHeld  : Bool
  hostReset  : Bool
  selfOk     : Nat
  selfDue    : Nat
  commanded  : Bool
  inputUp : Bool
  levelDue   : Option Nat
  deadCores  : List Nat
  clock      : Nat
  safeTimes  : List (Nat × Nat)
  coreEvents : List (Nat × Nat × Nat)
  coreRetire : List Nat
  slopeBad   : Sparse Nat
  deriving DecidableEq, Repr

/-- Fabric time of the module (R205, R207): the count in nanoseconds, whether the period has had its first lock, the
difference to the parent in picoseconds, whether time is taken from the alternate port, the last slot
boundary processed, the ports from which a beacon arrived since then and one more than the word that last came from each port, absent
where it is missing (R220), the last time stamp of each instance (R361), and the clock at the latest entry into HOLDOVER. -/
structure TimeUnit where
  fabric    : Nat
  state     : TimeState
  everLock  : Bool
  offsetPs  : Int
  usesAlt   : Bool
  slotDone  : Nat
  heard     : List Nat
  words     : Sparse Nat
  stamps    : Sparse Nat
  heldSince : Nat
  deriving DecidableEq, Repr

/-- One context's entry of a core's context file (R92, R93): scalar and mask registers, program counter, numeric flags,
whether a program runs, what it waits for, whether a core fault stopped it, its halt and breakpoints (R409). -/
structure CoreFile where
  regs    : Sparse Dword
  masks   : Sparse (BitVec 256)
  pc      : Nat
  flags   : BitVec 4
  running : Bool
  waiting : Option (Nat × Nat)
  faulted : Bool
  halted  : Bool
  bpHit   : Bool
  stepOne : Bool
  bpPass  : Bool
  bps     : Sparse Nat
  deriving DecidableEq, Repr

/-- A command executing in a churn (R36, R41). For a STREAM: next vector not yet launched, vectors awaiting re-launch with
their retry count r and whether a lock loss (true) or a clip discarded their codes, vectors in flight as (vector, slot, r), vectors accumulated, the bank it streams through. -/
structure ChExec where
  cmd       : List Byte
  next      : Nat
  relaunch  : List (Nat × Nat × Bool)
  air       : List (Nat × Nat × Nat)
  acc       : Nat
  bank      : Bool
  clips     : Nat
  replays   : Nat
  overflow  : Bool
  unresolved : Bool
  aborted   : Bool
  lightLost : Bool
  fallback  : Bool
  tainted   : Bool
  drifted   : Bool
  outside   : Bool
  deriving DecidableEq, Repr

/-- The churn states (Table 02-10). -/
inductive ChState where
  | dark | waking | ready | streaming | calibrating | relighting | retired
  deriving DecidableEq, Repr

/-- What a context owns of a churn (R55): its queue, unread and held completion records, the commands in execution, the banks
with their sources, and the TIME of the latest completion (Table 02-8, FENCE). -/
structure ChWork where
  queue   : List (List Byte)
  fifo    : List (List Byte)
  held    : List (List Byte × Option Nat)
  exec    : List ChExec
  bank0   : List Byte
  bank1   : List Byte
  src0    : Option Nat
  src1    : Option Nat
  active  : Bool
  lastDone : Option Nat
  deriving DecidableEq, Repr

/-- One churn: state, state held before a calibration, what the calibration is for, slots being relocked with their
failed attempts, failed relights, the logical rows and columns retired, the repair map (R23) from logical to physical rows and
columns with the physical ones given up, the rate in use, whether a new rate waits for a command boundary and whether one taken in
a calibration owes another (R32), the clock at the end of the latest calibration (R48) and of the latest activity (Table 02-11),
and whether the banks wait for their reload behind a calibration (R55). -/
structure Churn where
  st        : ChState
  before    : ChState
  work      : ChWork
  relock    : Sparse Nat
  rejoin    : List Nat
  attempts  : Nat
  badRows   : List Nat
  badCols   : List Nat
  rowMap    : Sparse Nat
  colMap    : Sparse Nat
  rowsOut   : List Nat
  colsOut   : List Nat
  rate      : Nat
  rateDue   : Bool
  rateCal   : Bool
  calEnd    : Nat
  idleAt    : Nat
  reload    : Bool
  calDue    : Bool
  deriving DecidableEq, Repr

/-- A fetched descriptor of a DMA queue or an attention queue (R139, R156): number, bytes, the status decided at its fetch
(nonzero: unreadable, or of an attention descriptor rejected), whether it has started, whether a SEND's packets wait for
injection, the flags its record will carry, and the record formed when it has finished. -/
structure Desc where
  h      : Nat
  bytes  : List Byte
  status : Nat
  started : Bool
  handed : Bool
  flags  : Nat
  record : Option (List Byte)
  deriving DecidableEq, Repr

/-- A queue of descriptors: the next number to fetch, the descriptors fetched whose completion records are not yet
written, the number of completion records written. -/
structure DescQ where
  next    : Nat
  items   : List Desc
  written : Nat
  deriving DecidableEq, Repr

/-- A 16-byte position of a step plan (Table 10-2). -/
structure PlanEntry where
  lo : BitVec 64
  hi : BitVec 64
  deriving DecidableEq, Repr

/-- A flow entry that has started and not completed: its position and the slot it was due at. -/
structure RunEntry where
  pos : Nat
  due : Nat
  deriving DecidableEq, Repr

/-- Context states (OD 0x2801:04); `loaded` is loaded and not yet started, `started` has an accepted START_CONTEXT. -/
inductive CtxState where
  | empty | loaded | started | running | paused | stopped
  deriving DecidableEq, Repr

/-- A vote (R220). -/
structure Vote where
  done    : Bool
  stretch : Bool
  stop    : Bool
  deriving DecidableEq, Repr

/-- The verdict of a step (R221). -/
inductive Verdict where
  | commit | repeated | stop
  deriving DecidableEq, Repr

/-- The cellar as a step sees it (R195, R197): usable lines, mark, policy, spill lines, the usable frames (MA div 2 MiB) and the outcome array, all
fixed at the step boundary; the mode (0 full, 1 spill, 2 checkpoint), the runs held as (layer, micro, spilled, first, lines),
and what R201 reports. -/
structure Cellar where
  cap       : Nat
  mark      : Nat
  policy    : Nat
  spill     : Nat
  frames    : List Nat
  outMa     : Nat
  mode      : Nat
  runs      : List (Nat × Nat × Bool × Nat × Nat)
  peak      : Nat
  peakSpill : Nat
  reduced   : Option Nat
  mismatch  : Nat
  reached   : Bool
  deriving DecidableEq, Repr

/-- One resident context (R215): its descriptor, its plan versions as loaded, the step in progress with its cursors over
the plan, the vote, the events of the step and what its report holds, the stash outcome words written in the step. -/
structure Ctx where
  st        : CtxState
  desc      : List Byte
  plan0     : List PlanEntry
  plan1     : List PlanEntry
  step      : Nat
  version   : Nat
  slots     : Nat
  base      : Nat
  startSlot : Nat
  stepOn    : Bool
  timedPos  : Nat
  flowPos   : Nat
  skipLeft  : Nat
  runs      : List RunEntry
  stashJ    : Nat
  noStart   : Bool
  refused   : Bool
  exhausted : Bool
  repeatEv  : Bool
  storageEv : Bool
  lostEv    : Bool
  sawThrot  : Bool
  sawBehind : Bool
  vote      : Option Vote
  combined  : Option Vote
  verdict   : Option Verdict
  restoring : Bool
  repeats   : Nat
  calm      : Nat
  verdicts  : Nat
  stopTag   : Option Nat
  stopWhy   : Nat
  startT    : Nat
  deadlineT : Nat
  throtSlots : Nat
  maxLag    : Nat
  phases    : Sparse Nat
  reruns    : Nat
  fails     : Nat
  invalids  : Nat
  norms     : Sparse (Nat × Nat × Nat × Nat)
  undo      : List (List Byte)
  early     : List Nat
  groupDir  : List Nat
  cellar    : Cellar
  outcomes  : List Nat
  deriving DecidableEq, Repr

/-- Synchronisation objects (R211, R387): value and type, objects whose both copies failed and whose bank waits for its
remapping, banks on spares, banks retired. -/
structure SyncUnit where
  value   : Sparse Dword
  typ     : Sparse (BitVec 2)
  lost    : List Nat
  spared  : List Nat
  retired : List Nat
  deriving DecidableEq, Repr

/-- HBM (chapter 06): the bytes, the poisoned sectors (sector number MA div 32), corrected errors by row with their clock,
repair rows used per bank, rows on repair rows, hard and soft repairs recorded per stack, retired frames (stack + 8 × frame)
in the order of retirement, stacks to retire at the next step boundary, spare DQ lanes used per channel, since when a
stack's readings have stayed below its step, the slices' lines (R126) as line number MA div 128 to valid bits [3:0] and dirty bits
[7:4] of its four sectors, the sector whose transfer fails its replays in the operation in progress (R130), and the ranges that the operation in
progress has accessed (R315). -/
structure Hbm where
  mem       : Sparse Byte
  poison    : Sparse Bool
  corrLog   : List (Nat × Nat)
  rowsUsed  : Sparse Nat
  repaired  : List Nat
  softRows  : List Nat
  recorded  : Sparse Nat
  frames    : List Nat
  retireDue : List Nat
  dqUsed    : Sparse Nat
  coolSince : Sparse Nat
  scrubPos  : Sparse Nat
  slice     : Sparse Byte
  replayBad : Option Nat
  touched   : Option (List (Nat × Nat))
  deriving DecidableEq, Repr

/-- A herd-book record before its position is given (Table 19-6). -/
structure HerdRec where
  seq      : Nat
  boot     : Nat
  kind     : Nat
  inst     : Nat
  count    : Nat
  qmin     : Int
  qmax     : Int
  arg      : Nat
  hist     : List Nat
  interval : Nat
  ms       : Nat
  flags    : Nat
  last     : Nat
  merged   : Nat
  deriving DecidableEq, Repr

/-- The herd book (R396, R397): records by position, accumulators of the interval in progress, the overflow accumulator,
sequence number and boot count of the next record, interval index and its length. -/
structure Herd where
  recs     : Sparse HerdRec
  next     : Nat
  accs     : List HerdRec
  spill    : Option HerdRec
  seq      : Nat
  boot     : Nat
  interval : Nat
  ms       : Nat
  deriving DecidableEq, Repr

/-- Trace (R412, R413): records waiting in the queue, records accepted, written, dropped since the last accepted. -/
structure Trace where
  queue    : List (List Byte)
  accepted : Nat
  written  : Nat
  dropped  : Nat
  deriving DecidableEq, Repr

/-- The host attachment (chapter 14): the head line in the module's cache, the largest RSP_DONE read, entries taken,
responses formed and waiting, snoop filter entries (line numbers, oldest first) and lines with a snoop outstanding, with its clock,
HDM decoder committed, link up, what the module wrote into host memory. -/
structure HostUnit where
  headHeld  : Bool
  head      : Nat
  rspDone   : Nat
  taken     : Nat
  rspNext   : Nat
  held      : List (List Byte)
  filter    : List Nat
  snooping  : List Nat
  asked     : Sparse Nat
  committed : Bool
  linkUp    : Bool
  mem       : Sparse Byte
  deriving DecidableEq, Repr

/-- A message that is open at its source (R272): its number, the bytes reserved for it and not yet returned, the job, and
the context and plan position of the routine that sent it, if any. -/
structure OpenMsg where
  id    : Nat
  left  : Nat
  job   : Nat
  owner : Option (Nat × Nat)
  deriving DecidableEq, Repr

/-- The window of a destination and class (R272): bytes outstanding, size in effect, next message number, open messages. -/
structure Win where
  out    : Nat
  size   : Nat
  nextId : Nat
  msgs   : List OpenMsg
  deriving DecidableEq, Repr

/-- A packet waiting for injection, with the DMA queue and descriptor, or the routine, that formed it. -/
structure Inj where
  pkt   : Packet
  dma   : Option (Nat × Nat)
  owner : Option (Nat × Nat)
  job   : Nat
  deriving DecidableEq, Repr

/-- A packet held by the router: its number, input port and virtual channel (port 48 at its own source), the packet with the payload that
has arrived, the flits arrived, since which slot it has found no usable port (R263), whether its
local copy was taken (R266), the output port and escape bit it is being sent with, and the flits sent (R260). -/
structure Held where
  id     : Nat
  port   : Nat
  vc     : Nat
  pkt    : Packet
  come   : Nat
  since  : Nat
  copied : Bool
  via    : Option (Nat × Bool)
  sent   : Nat
  deriving DecidableEq, Repr

/-- A reassembly entry in use (R269-R271); the payloads of a signal message by their offsets (R213). -/
structure Reasm where
  msgId : Nat
  job   : Nat
  rxq   : Nat
  len   : Nat
  got   : Nat
  last  : Bool
  stale : Bool
  body  : Sparse (List Byte)
  deriving DecidableEq, Repr

/-- One virtual channel of a link (R260, R278): the sender's free credits, flits sent and credits read; the receiver's
flits accepted, freed and held, and the slot before which a flit must have been first transmitted to be discarded (R279). -/
structure VcSt where
  free     : Nat
  sent     : Nat
  got      : Nat
  accepted : Nat
  freed    : Nat
  held     : Nat
  after    : Nat
  deriving DecidableEq, Repr

/-- The audit of a link in progress (R278): its slot A, by virtual channel SENT, the flits ACCEPTED so far that were first transmitted
before A, the FREED count of the block of slot A - 1, and the credit count read from the peer's block of that slot once it has come;
the channels compared, and whether that block arrived bad. -/
structure Audit where
  slot     : Nat
  sent     : List Nat
  accepted : List Nat
  freed    : List Nat
  got      : Option (List Nat)
  done     : List Nat
  badPrev  : Bool
  deriving DecidableEq, Repr

/-- A flit that has been transmitted (R261): the slot of its latest transmission, slot and position of its first, its virtual channel, its
bytes. -/
structure TxFlit where
  at_   : Nat
  slot  : Nat
  pos   : Nat
  vc    : Nat
  bytes : List Byte
  deriving DecidableEq, Repr

/-- The packet that is arriving on a link (R262): the number of its entry in the router, its virtual channel, the flits still to come, the
fabric time of the last, whether what comes is discarded. -/
structure RxCur where
  id   : Nat
  vc   : Nat
  left : Nat
  lastAt : Nat
  dead : Bool
  deriving DecidableEq, Repr

/-- A link (R258-R264): UP, its virtual channels, the position the next flit takes and the slot it belongs to, the flits of the last four
slots, the packet arriving, the bad flit (position, slot) that this end names and the one it named last, the position that the peer
names and the one it named before, whether a replay waits for a packet boundary, the flits still to be resent, consecutive bad control
blocks, the CREDIT values of the last two blocks sent with their slots, the slot of the latest block read with the credit counts then, the
slot of the latest bad block, the audit, the repair requested by this end as (channel, R, acknowledged), channels with a violation that
wait for theirs, the repair the peer requested, how many slots the announced epochs have differed, and the class whose turn it is with
the flits left in it (R267). -/
structure Link where
  up       : Bool
  vcs      : Sparse VcSt
  nextPos  : Nat
  posSlot  : Nat
  history  : List TxFlit
  cur      : Option RxCur
  nack     : Option (Nat × Nat)
  again    : Option (Nat × Nat)
  named    : Option (Nat × Nat)
  lastNack : Option (Nat × Nat)
  replay   : Bool
  resend   : List TxFlit
  badRun   : Nat
  blocks   : List (Nat × List Nat)
  read     : Option (Nat × List Nat)
  lastBad  : Option Nat
  audit    : Option Audit
  repairOwn : Option (Nat × Nat × Bool)
  repairMore : List Nat
  repairPeer : Option (Nat × Nat)
  epochDiff : Nat
  turn     : Nat
  quota    : Nat
  deriving DecidableEq, Repr

/-- The router (chapter 12): packets waiting for injection, packets held with the number of the next, windows, reassembly entries, complete
messages that are not yet signalled as (index, entry), links, window returns, a selected epoch, the figures of the congestion map. -/
structure Router where
  inject   : List Inj
  held     : List Held
  seq      : Nat
  wins     : Sparse Win
  reasm    : Sparse Reasm
  done     : List (Nat × Reasm)
  links    : Sparse Link
  returns  : List Packet
  owed     : List Packet
  epochReq : Option (Nat × Nat)
  cong     : Sparse Nat
  congFrom : Nat
  congLen  : Nat
  deriving DecidableEq, Repr

/-- A milk round in progress (R185, R186): context and plan position, ring descriptor, rounds started, parcels complete, the rounds
whose rows and the number of rounds whose sections are in their buffers, rounds whose rows and whose section were forwarded, rows
and sections that have arrived and wait for their buffer (Table 09-3). -/
structure MilkTask where
  ctx     : Nat
  pos     : Nat
  desc    : List Byte
  started : Nat
  have_   : Nat
  rows    : List Nat
  sects   : Nat
  fwdRows : Nat
  fwdSect : Nat
  rowsWait : List (List Byte)
  sectWait : List (List Byte)
  deriving DecidableEq, Repr

/-- A gather in progress (R191, R192): segments arrived by block, tiles converted. -/
structure GatherTask where
  ctx   : Nat
  pos   : Nat
  bytes : List Byte
  segs  : Sparse (List Byte)
  tiles : List Nat
  deriving DecidableEq, Repr

/-- A block of a bucket in an attempt (R289): its segment and the stages it has passed; absent once sent or final. -/
structure BlkSt where
  seg   : List Byte
  stage : Nat
  deriving DecidableEq, Repr

/-- A bucket in a collective: the table entry, attempt, blocks under way, whether it still runs, SAT and INVALID seen in
finalised blocks, and the least advised base exponent that its exact values need (R294). -/
structure BucketSt where
  entry   : List Byte
  attempt : Nat
  blocks  : Sparse BlkSt
  sat     : Bool
  bad     : Bool
  need    : Option Int
  reran   : Nat
  failed  : Bool
  deriving DecidableEq, Repr

/-- A collective in progress (R285-R297): group, member, phase (0 reducing, 1 agreeing, 2 tray norms, 3 totals), attempt,
buckets re-run in this attempt, running norm pair, tray exchanges done, worst status so far. -/
structure CollTask where
  ctx     : Nat
  pos     : Nat
  ma      : Nat
  bytes   : List Byte
  g       : Nat
  p       : Nat
  own     : Nat
  members : List Nat
  phase   : Nat
  attempt : Nat
  active  : List Nat
  buckets : List BucketSt
  pair    : Nat × Nat
  level   : Nat
  worst   : Nat
  deriving DecidableEq, Repr

/-- The firmware routines in progress (chapters 09, 13). -/
structure Routines where
  milks   : List MilkTask
  gathers : List GatherTask
  colls   : List CollTask
  deriving DecidableEq, Repr

/-- What a port has learned of plan agreement (R234, R237): for each plan its neighbour's transmit and receive masks, and by
plan × 32 + channel the light age in ps and the pass-throughs made. -/
structure PeerPlans where
  masks : Sparse (Nat × Nat)
  light : Sparse (Nat × Nat)
  deriving DecidableEq, Repr

/-- A shut port's probing (R248): probes received, the neighbour's count of ours, the slot we proposed, the latest slot of
either. -/
structure Probe where
  got      : Nat
  seen     : Nat
  proposed : Nat
  latest   : Nat
  deriving DecidableEq, Repr

/-- The fabric optics (chapter 11): the requested plan and its slot, the plan in effect before a change with its boundary and the ports whose
lanes it applied to, receive lanes waiting for a preamble with the boundary it follows and those that refused one, transmit lanes told to send no payload
and those that send a preamble at the next boundary, relock attempts per
lane (transmit at n, receive at 384 + n) or ring (768 + 64 × port + ring, drop at + 32), elements blocked (32 ×
port + channel, outputs at + 1,536), rings searching and rings that have lost lock (64 × port + ring, drop at + 32), whether the rings were
assigned since the cold start, ports whose loopback switch is closed (R226), what ports know of their neighbours, probing, and whether the laser supply is removed. -/
structure Optics where
  planReq   : Option (Nat × Nat)
  oldPlan   : Nat
  changeAt  : Option Nat
  scope     : List Nat
  await     : Sparse Nat
  refused   : List Nat
  told      : List Nat
  resume    : List Nat
  attempts  : Sparse Nat
  blocked   : List Nat
  searching : List Nat
  ringDown  : List Nat
  ringsSet  : Bool
  loopback  : List Nat
  peers     : Sparse PeerPlans
  probes    : Sparse Probe
  supplyCut : Bool
  deriving DecidableEq, Repr

/-- A write of a Llynmi session under way (R329): entry, first byte, next byte, the copy with the segments in it. -/
structure Staging where
  idx   : Nat
  sub   : Nat
  first : Nat
  next  : Nat
  bytes : List Byte
  deriving DecidableEq, Repr

/-- A response given (R328). -/
structure Answer where
  seq   : Nat
  bytes : List Byte
  deriving DecidableEq, Repr

/-- A Llynmi session (R327-R329): number, next SEQ, clock of the last request, requests held with their arrival, the last 16
responses, the snapshot as (index, subindex, bytes), the staging. -/
structure Session where
  num     : Nat
  next    : Nat
  used    : Nat
  held    : List (Nat × Lly)
  answers : List Answer
  snap    : Option (Nat × Nat × List Byte)
  stage   : Option Staging
  deriving DecidableEq, Repr

/-- An aperture of the dictionary window (R331). -/
structure Aperture where
  snap  : Option (List Byte)
  stage : Option (List Byte)
  deriving DecidableEq, Repr

/-- The paths to the dictionary (chapter 15). -/
structure Service where
  sessions : List Session
  aps      : Sparse Aperture
  deriving DecidableEq, Repr

/-- The limiters (chapter 16), clocks in MHz, fractions in eighths: the cap's clock term, churn launch and array command
fractions, whether a reduction is under way and when the last step back was taken; the cap before a write with the clock from which
the new one governs; f_ilim and f_ramp by die, the clock at which droop last changed f_ilim; the stretches of the last millisecond as region,
start and end, and by region one more than the clock at which one in progress began; rails whose limiting action is in effect with the value
it holds and its clock; dies with ballast; by die one more than the clock since when a thermal step's exit has been met; one more than the
clock since when the input has stayed above the cap, and below 90 % of it; whether a reading lies above the cap with every stage at its
limit; by rail one more than the clock at which a disagreement began; by die the photonic-die readings of the last 250 µs and the one before,
newest first. -/
structure Power where
  fCap     : Nat
  pace     : Nat
  rate     : Nat
  reducing : Bool
  undoAt   : Nat
  capWas   : Nat × Nat
  fIlim    : Sparse Nat
  fRamp    : Sparse Nat
  ilimAt   : Sparse Nat
  droops   : List (Nat × Nat × Nat)
  droopAt  : Sparse Nat
  limited  : List (Nat × Nat × Nat)
  ballast  : List Nat
  coolOk   : Sparse Nat
  overAt   : Nat
  underAt  : Nat
  stuck    : Bool
  oddAt    : Sparse Nat
  temps    : Sparse (List (Nat × Int))
  deriving DecidableEq, Repr

/-- Clock domains (chapter 17): stopped instances (64 × domain + instance) the trigger modes in effect (R362), and for each line the clock
(plus 1) at its latest event and its latest fall. -/
structure Clocks where
  stopped : List Nat
  mode    : Nat
  trigAt  : Sparse Nat
  fellAt  : Sparse Nat
  deriving DecidableEq, Repr

/-- Start-up and security (chapter 18): the image buffer, the fuses, the measurements M0-M3, what verified (version, SVN, owner
slot, vendor key), debug and seal since cold start, presence sampled held for so many ms and the clock at its next sample, the key mismatch of R382, and a fuse
operation interrupted, as (entry, subindex, words written). -/
structure Security where
  buf        : Sparse Byte
  fuses      : Sparse Byte
  meas       : List (List Byte)
  verified   : Option (Nat × Nat × Nat × Nat)
  everDebug  : Bool
  sealSeen   : Bool
  sealBroken : Bool
  heldMs     : Nat
  sampleDue  : Nat
  keyBad     : Bool
  broken     : Option (Nat × Nat × Nat)
  deriving DecidableEq, Repr

/-- The TAP (chapter 20): the instruction in effect, the boundary cells, the pins as the logic sees them during EXTEST, the access
address, the selector of the last READ_REG, the response of the last request as (status, halted, breakpoint, result), the requests
completed, and the core and context of the last request where it was a STEP, whose response shows how far the step has come, and
a READ or WRITE that waits for snoops. -/
structure Tap where
  ir     : Nat
  cells  : Nat
  frozen : Option Nat
  space  : Nat
  addr   : Nat
  sel    : Nat
  last   : Nat × Bool × Bool × Nat
  count  : Nat
  stepOf : Option (Nat × Nat)
  busy   : Option (DbgReq × MemEnv)
  deriving DecidableEq, Repr

end Sys2Proof.Machine
end

