-- ==== Sys2Proof/Machine/State.lean ====
section
/-! DEFINITION. The state of the module, the reasons a step can stop, and the state after reset. -/

namespace Sys2Proof.Machine

/-- Why a step stops with a fault. -/
inductive Fault where
  /-- Raised by a command whose operand names a unit the module does not have (Table 00-1, R12: a port above P47, a lane
  index of 384 or more, a rail above 26, a domain outside 1-18). Safe: no such event exists. -/
  | noSuchUnit
  deriving DecidableEq, Repr

/-- Why a command has no meaning. -/
inductive Refusal where
  /-- Raised by the dispatcher for a command without a meaning. Safe: nothing is claimed about it. -/
  | notModelled (mnemonic : String)
  deriving DecidableEq, Repr

/-- What leaves the module. The list `out` of the state is the model's own record of it. -/
inductive Out where
  | beacon (port : Nat) (word : Dword)
  | lly (lane : Bool) (src dst : BitVec 128) (port : Nat) (bytes : List Byte)
  | echoReply (lane : Bool) (src dst : BitVec 128) (payload : List Byte)
  | neighbour (lane : Bool) (dst : BitVec 128) (target : BitVec 128)
  | flit (port lane slot index : Nat) (bytes : List Byte)
  | control (port lane slot time : Nat) (agree : List AgreeMsg) (refused : List Nat) (fields : Nat)
  | identity (lane slot origin channel plan : Nat)
  | preamble (lane slot origin channel plan : Nat)
  | snoop (line : Nat)
  | msix (vector : Nat)
  | hdm (bytes : List Byte) (poisoned : Bool)
  | aperture (bytes : List Byte)
  | scan (bits : Nat) (value : Nat)
  | probe (port lane proposed got : Nat)
  | odStatus (status : Nat)
  deriving DecidableEq, Repr

/-- The module. `shares` holds, by compute die, the clock at which its cores' share of a context switch ends where it runs past the four
slots (R217). -/
structure State where
  pending : List Instr
  ctl     : Ctl
  time    : TimeUnit
  od      : Sparse Nat
  files   : Sparse CoreFile
  pails   : Sparse Word
  store   : Sparse Byte
  churns  : Sparse Churn
  saved   : Sparse ChWork
  hbm     : Hbm
  dmaq    : Sparse DescQ
  attnq   : Sparse DescQ
  sync    : SyncUnit
  ctxs    : Sparse Ctx
  current : Option Nat
  switchTo : Option (Nat × Nat)
  switchBusy : Nat
  shares  : Sparse Nat
  host    : HostUnit
  rt      : Router
  tasks   : Routines
  opt     : Optics
  svc     : Service
  pow     : Power
  clk     : Clocks
  sec     : Security
  tap     : Tap
  herd    : Herd
  trace   : Trace
  out     : List Out
  free    : Nat
  deriving DecidableEq, Repr

/-! ### The state after reset: STANDBY right after a cold start (Table 18-1), no image written -/

/-- The first n bytes of a function from byte indices. -/
def takeFn (n : Nat) (f : Nat → Byte) : List Byte := (List.range n).map f

/-- Extension of a measurement register (R381). -/
def extendMeas (m rec_ : List Byte) : List Byte := takeFn 64 (Config.shake256 (m ++ rec_))

/-- The fuses as shipped: SERIAL and the rest free, DEVICE_SECRET held apart (R377). -/
def fuseDefault : Nat → Byte := Config.shippedFuse

/-- M0 after a cold start with given fuses (R381). -/
def measRom (fuse : Nat → Byte) : List Byte :=
  extendMeas (extendMeas (List.replicate 64 0) Config.romBytes)
    (takeFn 16 fuse ++ (List.range 692).map fun i => fuse (80 + i))

/-- The attestation private key (R382). -/
def attestKey : List Byte := takeFn 57 (Config.shake256 Config.deviceSecret)

/-- Whether the derived public key differs from DEVICE_KEY (R382). -/
def keyMismatch (fuse : Nat → Byte) : Bool :=
  decide (takeFn 57 (Config.ed448Public attestKey) ≠ (List.range 57).map fun i => fuse (80 + i))

/-- A herd-book accumulator's first record of kind 0x1103 (R382, Table 19-7). -/
def keyRecord : HerdRec :=
  { seq := 0, boot := 0, kind := 0x1103, inst := 0, count := 1, qmin := 0, qmax := 0, arg := 0
    hist := [1, 0, 0, 0, 0, 0, 0, 0], interval := 0, ms := 1000, flags := 0, last := 0, merged := 0 }

/-- The security state after a cold start (R377, R381, R382). -/
def secReset (fuses : List (Nat × Byte)) (fuse : Nat → Byte) : Security :=
  { buf := [], fuses := fuses, meas := [measRom fuse, List.replicate 64 0, List.replicate 64 0, List.replicate 64 0]
    verified := none, everDebug := false, sealSeen := false, sealBroken := false, heldMs := 0, sampleDue := 0
    keyBad := keyMismatch fuse, broken := none }

/-- The limiters at rest. -/
def powReset : Power :=
  { fCap := 1200, pace := 8, rate := 8, reducing := false, undoAt := 0, capWas := (2200, 0), fIlim := [], fRamp := [], ilimAt := []
    droops := [], droopAt := [], limited := [], ballast := [], coolOk := [], overAt := 0, underAt := 0, stuck := false, oddAt := [], temps := [] }

/-- The router with nothing in it. -/
def rtReset : Router :=
  { inject := [], held := [], seq := 0, wins := [], reasm := [], done := [], links := [], returns := [], owed := [], epochReq := none, cong := []
    congFrom := 0, congLen := 4096 }

/-- The fabric optics dark. -/
def optReset : Optics :=
  { planReq := none, oldPlan := 0, changeAt := none, scope := [], await := [], refused := [], told := [], resume := [], attempts := []
    blocked := [], searching := [], ringDown := [], ringsSet := false, loopback := [], peers := [], probes := [], supplyCut := false }

/-- The host interface at its defaults (R319, R321). -/
def hostReset : HostUnit :=
  { headHeld := false, head := 0, rspDone := 0, taken := 0, rspNext := 0, held := [], filter := [], snooping := [], asked := []
    committed := false, linkUp := false, mem := [] }

/-- Fabric time before its first lock (R205). -/
def timeReset : TimeUnit :=
  { fabric := 0, state := .unlocked, everLock := false, offsetPs := 0, usesAlt := false, slotDone := 0
    heard := [], words := [], stamps := [], heldSince := 0 }

/-- The TAP after test-logic reset (R404). -/
def tapReset : Tap := { ir := 1, cells := 0, frozen := none, space := 0, addr := 0, sel := 0, last := (0, false, false, 0), count := 0, stepOf := none, busy := none }

/-- The control cluster right after a cold start: STANDBY. -/
def ctlReset : Ctl :=
  { mstate := .standby, change := none, changeFrom := 0, startMark := 0, resetHeld := false, hostReset := false, selfOk := 0, selfDue := 0, commanded := false
    inputUp := true, levelDue := none, deadCores := [], clock := 0, safeTimes := [], coreEvents := [], coreRetire := [], slopeBad := [] }

/-- The stacks with nothing written, nothing repaired and nothing retired. -/
def hbmReset : Hbm :=
  { mem := [], poison := [], corrLog := [], rowsUsed := [], repaired := [], softRows := [], recorded := [], frames := []
    retireDue := [], dqUsed := [], coolSince := [], scrubPos := [], slice := [], replayBad := none, touched := none }

/-- The herd book after the first cold start (R396): the boot count is 1. -/
def herdReset : Herd :=
  { recs := [], next := 0, accs := if keyMismatch fuseDefault then [keyRecord] else [], spill := none, seq := 0, boot := 1
    interval := 0, ms := 1000 }

/-- The module right after reset. -/
def State.reset : State :=
  { pending := [], ctl := ctlReset, time := timeReset, od := [], files := [], pails := [], store := [], churns := [], saved := []
    hbm := hbmReset, dmaq := [], attnq := [], sync := { value := [], typ := [], lost := [], spared := [], retired := [] }
    ctxs := [], current := none, switchTo := none, switchBusy := 0, shares := [], host := hostReset, rt := rtReset
    tasks := { milks := [], gathers := [], colls := [] }, opt := optReset, svc := { sessions := [], aps := [] }, pow := powReset
    clk := { stopped := [], mode := 0, trigAt := [], fellAt := [] }, sec := secReset [] fuseDefault, tap := tapReset, herd := herdReset
    trace := { queue := [], accepted := 0, written := 0, dropped := 0 }, out := [], free := 0 }

end Sys2Proof.Machine
end

