-- ==== Sys2Proof/Machine/Status.lean ====
section
/-! DEFINITION. The status codes of Table 15-9 (R335), under the manual's names. -/

namespace Sys2Proof.Machine

/-- Dictionary transaction done. -/
def St.OD_OK : Nat := 0x0000

/-- No entry at that index and subindex (R322). -/
def St.OD_NO_ENTRY : Nat := 0x0080

/-- Access right does not permit it (R13). -/
def St.OD_ACCESS_REFUSED : Nat := 0x0081

/-- Reserved bit nonzero in a write (R10). -/
def St.OD_RESERVED_NONZERO : Nat := 0x0082

/-- Value not permitted for the entry (R322). -/
def St.OD_VALUE_RANGE : Nat := 0x0083

/-- Write not whole (R322, R331). -/
def St.OD_SIZE_MISMATCH : Nat := 0x0084

/-- Session unknown or none free (R327). -/
def St.LLY_NO_SESSION : Nat := 0x0085

/-- Malformed Llynmi datagram (R326). -/
def St.LLY_BAD_FRAME : Nat := 0x0086

/-- Segment out of order (R329). -/
def St.LLY_SEGMENT_ORDER : Nat := 0x0087

/-- Reserved field nonzero in a command, descriptor, record or entry. -/
def St.CMD_RESERVED_NONZERO : Nat := 0x0180

/-- Field value or limit broken. -/
def St.CMD_BAD_FIELD : Nat := 0x0181

/-- Firmware signature does not verify against the owner key. -/
def St.FW_BAD_SIGNATURE : Nat := 0x1180

/-- Firmware image malformed. -/
def St.FW_BAD_IMAGE : Nat := 0x1181

/-- Key presented is revoked. -/
def St.SEC_KEY_REVOKED : Nat := 0x1182

/-- Fuse programming failed. -/
def St.FUSE_WRITE_FAILED : Nat := 0x11C0

/-- Die revisions in the package cannot be paired. -/
def St.REV_PAIRING_REFUSED : Nat := 0x11C1

/-- State command not permitted (R332). -/
def St.STATE_REFUSED : Nat := 0x2080

/-- State change in progress (R332). -/
def St.STATE_BUSY : Nat := 0x2081

/-- Churn command done. -/
def St.CHURN_DONE : Nat := 0x2200

/-- Finished in shadow mode after loss of light (R52). -/
def St.CHURN_DONE_FALLBACK : Nat := 0x2240

/-- Clipped after retries (R29). -/
def St.CHURN_CLIP_UNRESOLVED : Nat := 0x2241

/-- Accumulation overflowed to ±Inf (R28). -/
def St.CHURN_ACC_OVERFLOW : Nat := 0x2242

/-- Not executed: no light, or step abandoned (R53, R221). -/
def St.CHURN_FLUSHED : Nat := 0x2280

/-- Stopped on a clipped vector (R29). -/
def St.CHURN_CLIP_ABORT : Nat := 0x22C0

/-- Stopped on loss of light (R52). -/
def St.CHURN_LIGHT_LOST : Nat := 0x22C1

/-- Core fault raised; a storage event (R94, R391). -/
def St.CORE_FAULT : Nat := 0x23C0

/-- Descriptor done. -/
def St.DMA_DONE : Nat := 0x2400

/-- Done; absent pages zero-filled (R146). -/
def St.DMA_DONE_ABSENT : Nat := 0x2440

/-- Block below E_acc not added (R128). -/
def St.MEM_RED_EXPONENT : Nat := 0x2441

/-- Invalid or reserved-exponent block not added (R128). -/
def St.MEM_RED_INVALID : Nat := 0x2442

/-- Element saturated (R128). -/
def St.MEM_RED_SATURATED : Nat := 0x2443

/-- Descriptor field invalid (R147). -/
def St.DMA_BAD_FIELD : Nat := 0x2480

/-- Address outside its space or range (R147). -/
def St.DMA_BAD_ADDRESS : Nat := 0x2481

/-- Source and destination overlap (R147). -/
def St.DMA_OVERLAP : Nat := 0x2482

/-- Not executed; step abandoned (R152). -/
def St.DMA_FLUSHED : Nat := 0x2483

/-- Atomic target misaligned (R127). -/
def St.MEM_ALIGN : Nat := 0x2484

/-- Second replay failed (R130). -/
def St.MEM_REPLAY_FAILED : Nat := 0x24C0

/-- Poisoned sector (R131). -/
def St.MEM_UNCORRECTABLE : Nat := 0x24C1

/-- Retired frame (R134). -/
def St.MEM_FRAME_RETIRED : Nat := 0x24C2

/-- Retired stack (R135). -/
def St.MEM_STACK_RETIRED : Nat := 0x24C3

/-- Absent page (R146). -/
def St.DMA_PAGE_ABSENT : Nat := 0x24C4

/-- Page number beyond pool (R146). -/
def St.DMA_PAGE_RANGE : Nat := 0x24C5

/-- Host-space transfer failed (R318). -/
def St.DMA_HOST_ERROR : Nat := 0x24C6

/-- Lane plan invalid (R233). -/
def St.LANE_PLAN_INVALID : Nat := 0x2580

/-- Lane plan named by a resident context (R233). -/
def St.LANE_PLAN_IN_USE : Nat := 0x2581

/-- Plan selection refused (R236). -/
def St.LANE_SELECT_REFUSED : Nat := 0x2582

/-- Routing table invalid (R252). -/
def St.ROUTE_TABLE_INVALID : Nat := 0x2680

/-- Routing table in use (R252). -/
def St.ROUTE_TABLE_IN_USE : Nat := 0x2681

/-- Epoch selection refused (R276). -/
def St.EPOCH_SELECT_REFUSED : Nat := 0x2682

/-- Fabric area in use (R281). -/
def St.FAB_AREA_IN_USE : Nat := 0x2683

/-- Collective done. -/
def St.COLL_DONE : Nat := 0x2700

/-- Optimiser record done. -/
def St.OPT_DONE : Nat := 0x2701

/-- Bucket with an invalid block (R293). -/
def St.COLL_INVALID : Nat := 0x2740

/-- Bucket failed after re-runs (R293). -/
def St.COLL_OVERFLOW : Nat := 0x2741

/-- Elements left unchanged (R299). -/
def St.OPT_NONFINITE : Nat := 0x2742

/-- Reduction group invalid (R284). -/
def St.COLL_BAD_GROUP : Nat := 0x2780

/-- Exponent disagreement (R292). -/
def St.COLL_EXP_MISMATCH : Nat := 0x27C0

/-- Message lost or refused (R292). -/
def St.COLL_LOST : Nat := 0x27C1

/-- Job-ring entry done. -/
def St.HOST_DONE : Nat := 0x2800

/-- Job-ring entry invalid (R312). -/
def St.HOST_RING_BAD_ENTRY : Nat := 0x2880

/-- Context cannot be loaded, started, stopped or freed in the present context state, module state or time state (R312, R425). -/
def St.CTX_BUSY : Nat := 0x2881

/-- Context not resident. -/
def St.CTX_NOT_RESIDENT : Nat := 0x2882

/-- Ranges overlap a resident context (R215). -/
def St.CTX_OVERLAP : Nat := 0x2883

/-- Step plan invalid (R209). -/
def St.PLAN_BAD_ENTRY : Nat := 0x2884

/-- Plan built for another E (R91, R216). -/
def St.STEP_PLAN_CAPACITY : Nat := 0x2885

/-- Switch request refused (R217). -/
def St.SWITCH_REFUSED : Nat := 0x2886

/-- CXL.mem window committed (R314). -/
def St.HOST_WINDOW_IN_USE : Nat := 0x2887

/-- Host range in use (R317). -/
def St.HOST_RANGE_IN_USE : Nat := 0x2888

/-- Job ring active (R320). -/
def St.HOST_RING_IN_USE : Nat := 0x2889

/-- Stopped by a peer's STOP vote (R221). -/
def St.JOB_STOPPED_PEER : Nat := 0x28C0

/-- Repeat limit reached (R221). -/
def St.STEP_REPEAT_LIMIT : Nat := 0x28C1

/-- Synchronisation object lost; a storage event (R387, R391). -/
def St.SYNC_OBJECT_LOST : Nat := 0x28C2

/-- Attention call done. -/
def St.ATTN_DONE : Nat := 0x2900

/-- Positions beyond 2²⁴ (R162). -/
def St.ATTN_POSITION_RANGE : Nat := 0x2980

/-- Non-finite value (R164, R165, R169). -/
def St.ATTN_NUMERIC : Nat := 0x29C0

/-- Document list invalid (R167). -/
def St.ATTN_BAD_MASK : Nat := 0x29C1

/-- Stash fits nowhere; step restored and context stopped (R200). -/
def St.CELLAR_EXHAUSTED : Nat := 0x29C2

/-- Debug access without enablement. -/
def St.DBG_LOCKED : Nat := 0x3280

end Sys2Proof.Machine
end

