-- ==== Sys2Proof/Machine/Ops.lean ====
section
/-! DEFINITION. The named operations over the state that every unit shares: dictionary registers, free values, time stamps,
herd-book events, trace events, storage events, synchronisation objects, module memory, core stores, contexts. -/

namespace Sys2Proof.Machine

/-! ### Dictionary registers -/

/-- The key of element k of entry idx:sub. -/
def odKey (idx sub k : Nat) : Nat := (idx * 256 + sub) * 65536 + k

/-- The order code and vendor strings (Table 15-10) as bytes. -/
def asciiAt (s : List Nat) (k : Nat) : Nat := s.getD k 0

/-- The physical position of logical index i at shipment in a region with E enabled cores: positions 0 to E - 1 are enabled
(R88, R89). DESIGN CHOICE, log entry 11. -/
def shipE (region : Nat) : Nat := if region % 16 < 8 then 63 else 62

/-- What a register holds that nothing has written: the defaults of the dictionary tables (R321), 0 where they give 0. -/
def odDefault (key : Nat) : Nat :=
  let k := key % 65536
  match key / 65536 with
  | 0x100001 => asciiAt [80, 108, 111, 118, 118, 105, 97] k
  | 0x100002 => asciiAt [80, 76, 86, 45, 67, 55, 45, 52, 50] k
  | 0x100007 => 1
  | 0x200004 => 2200
  | 0x200303 => 100
  | 0x200402 => 1040
  | 0x200404 => 65
  | 0x200503 => 0xFFFF
  | 0x210102 => 0xFFFF
  | 0x211004 => 0xFF
  | 0x211005 => 0xFF
  | 0x220001 => 4
  | 0x220003 => 200000
  | 0x220005 => 1000
  | 0x220102 => 0xF
  | 0x230001 => shipE k
  | 0x230002 => 64 - shipE k
  | 0x230003 => 2 ^ shipE k - 1
  | 0x230004 => if k % 64 < shipE (k / 64) then k % 64 else 0xFF
  | 0x250103 => 0xFE
  | 0x251101 => 1
  | 0x260101 => 1
  | 0x260102 => 262144
  | 0x262002 => 4096
  | 0x270101 => 0x7F
  | 0x280502 => 4
  | 0x280505 => 4
  | 0x280506 => 0xFFFF
  | 0x280608 => 16
  | 0x290102 => 0xFFFF
  | 0x290202 => 1
  | 0x300001 => 1
  | 0x310001 => 1000
  | e => if 0x400000 ≤ e ∧ e < 0x460000 ∧ (e % 0x2000 = 0x09 ∨ e % 0x2000 = 0x0A) then k else 0

/-- Read element k of entry idx:sub. -/
def State.odg (s : State) (idx sub : Nat) (k : Nat := 0) : Nat := Sparse.get odDefault s.od (odKey idx sub k)

/-- Write element k of entry idx:sub. -/
def State.odp (s : State) (idx sub k v : Nat) : State :=
  { s with od := Sparse.set odDefault s.od (odKey idx sub k) v }

/-- Add n to a counter of the dictionary. The register is read modulo its width, so it wraps (log entry 12). -/
def State.bump (s : State) (idx sub k : Nat) (n : Nat := 1) : State := s.odp idx sub k (s.odg idx sub k + n)

/-- The status that answers a write of the dictionary (R322). -/
def State.answered (s : State) (st : Nat) : State := { s with out := .odStatus st :: s.out }

/-! ### Clocks and crossings (chapter 17) -/

/-- The key of an instance of a domain. -/
def clockKey (d i : Nat) : Nat := 64 * d + i

/-- Restart stopped instances (R364): each wake of domains 1, 3 and 11 is counted. -/
def State.wakeClocks (s : State) (p : Nat → Bool) : State :=
  let up := s.clk.stopped.filter p
  let n := (up.filter fun k => decide (k / 64 = 1 ∨ k / 64 = 3 ∨ k / 64 = 11)).length
  let s := if n = 0 then s else s.bump 0x2102 0x01 0 n
  { s with clk := { s.clk with stopped := s.clk.stopped.filter fun k => !p k } }

/-- The domains of a reset group (Table 17-3), in the order of its rows. -/
def groupDomains (g : Nat) : List Nat :=
  [[1, 2, 3, 4, 5, 6, 7, 8, 9, 10, 11, 12, 13, 14, 15, 16, 17], [18], [1, 2, 4, 5, 8, 3, 6], [12, 13], [11], [7], [16], [17], []].getD g []

/-- The instances of a domain on compute die n, photonic die n or of element n of any other domain. -/
def groupHits (g n d i : Nat) : Bool :=
  match g with
  | 2 => decide ((if d = 1 ∨ d = 3 then i / 16 else i) = n)
  | 4 | 5 | 6 => decide (i = n)
  | _ => true

/-- Resets of a group: the two sides of its crossings are reset together (R365, R366), counted, and the stopped clocks it reaches wake. -/
def State.resetGroup (s : State) (g times : Nat) (hits : Nat → Nat → Bool) : State :=
  let s := if times = 0 then s else s.bump 0x2102 0x02 0 times
  s.wakeClocks fun k => (groupDomains g).contains (k / 64) && hits (k / 64) (k % 64)

/-- The resets of all four dies (Table 17-3). -/
def State.resetDies (s : State) : State := s.resetGroup 2 4 fun _ _ => true

/-- The reset of the host interface (Table 17-3). -/
def State.resetHostSide (s : State) : State := s.resetGroup 3 1 fun _ _ => true

/-! ### Free values and time stamps -/

/-- Advance the draw counter of the free values. -/
def State.drawn (s : State) : State := { s with free := s.free + 1 }

/-- A time stamp of a unit outside the fabric-time domain (R361): at least fabric time, at most 32 ns later, never
decreasing in one instance. -/
def State.stampOf (s : State) (inst : Nat) : Nat :=
  Nat.max (Sparse.get (fun _ => 0) s.time.stamps inst) (s.time.fabric + Config.stampSkew s.free % 33)

/-- Record the stamp that an instance has just taken. -/
def State.stamped (s : State) (inst : Nat) : State :=
  { s with time := { s.time with stamps := Sparse.set (fun _ => 0) s.time.stamps inst (s.stampOf inst) }, free := s.free + 1 }

/-! ### The herd book -/

/-- The histogram bin of q (R397). -/
def herdBin (q : Int) : Nat := if q < 2 then 0 else if 128 ≤ q then 7 else Nat.log2 q.toNat

/-- Add one to bin b, saturating at 0xFFFF, with whether it saturated (R398). -/
def histBump (h : List Nat) (b : Nat) : List Nat × Bool :=
  let v := h.getD b 0
  (h.set b (if v < 0xFFFF then v + 1 else v), decide (0xFFFF ≤ v))

/-- A record of one event (R397, R398). -/
def herdFirst (hd : Herd) (kind inst : Nat) (q : Int) (arg : Nat) : HerdRec :=
  { seq := 0, boot := 0, kind := kind, inst := inst, count := 1, qmin := q, qmax := q, arg := arg
    hist := (List.replicate 8 0).set (herdBin q) 1, interval := hd.interval, ms := hd.ms, flags := 0
    last := hd.interval, merged := 0 }

/-- Take one more event into an accumulator (R397): count and histogram saturate and set SATURATED (R398). -/
def HerdRec.more (r : HerdRec) (q : Int) : HerdRec :=
  let h := histBump r.hist (herdBin q)
  let full := decide (0xFFFFFFFF ≤ r.count)
  { r with count := if full then r.count else r.count + 1, qmin := if q < r.qmin then q else r.qmin
           qmax := if r.qmax < q then q else r.qmax, hist := h.1
           flags := if h.2 || full then r.flags ||| 2 else r.flags }

/-- Take an event into the first accumulator of its pair, none where no accumulator holds the pair. -/
def herdTake (kind inst : Nat) (q : Int) : List HerdRec → Option (List HerdRec)
  | [] => none
  | r :: t => if r.kind = kind ∧ r.inst = inst then some (r.more q :: t)
    else (herdTake kind inst q t).map (r :: ·)

/-- Gather an event (R397): in the accumulator of its kind and instance, in a new one while fewer than 512 are in use, else
in the overflow accumulator of kind 0x3102. -/
def State.herdEvent (s : State) (kind inst : Nat) (q : Int) (arg : Nat) : State :=
  match herdTake kind inst q s.herd.accs with
  | some accs => { s with herd := { s.herd with accs := accs } }
  | none =>
    if s.herd.accs.length < 512 then
      { s with herd := { s.herd with accs := s.herd.accs ++ [herdFirst s.herd kind inst q arg] } }
    else
      let r := match s.herd.spill with
        | some r => r.more 0
        | none => herdFirst s.herd 0x3102 0 0 kind
      { (s.bump 0x3100 0x09 0) with herd := { s.herd with spill := some r } }

/-- The position of the most recent record of a kind and instance (R399). -/
def herdLatest (h : Herd) (kind inst : Nat) : Option (Nat × HerdRec) :=
  (h.recs.filter fun x => decide (x.2.kind = kind ∧ x.2.inst = inst)).getLast?

/-- Whether a closing record merges into the most recent one of its kind and instance (R399). -/
def herdSame (a b : HerdRec) : Bool :=
  decide (a.count = b.count ∧ a.qmin = b.qmin ∧ a.qmax = b.qmax ∧ a.arg = b.arg ∧ a.hist = b.hist ∧ a.ms = b.ms
    ∧ a.flags = b.flags ∧ a.merged < 0xFFFF)

/-- The table of herd-book records, whose unlisted positions are not written. -/
def herdNone : Nat → HerdRec := fun _ =>
  { seq := 0, boot := 0, kind := 0, inst := 0, count := 0, qmin := 0, qmax := 0, arg := 0, hist := [], interval := 0
    ms := 0, flags := 0, last := 0, merged := 0 }

/-- A record at the next position (R400, R401). -/
def State.herdNew (s : State) (r : HerdRec) : State :=
  let h := s.herd
  if h.next < 65536 then
    { s with herd := { h with
        recs := Sparse.set herdNone h.recs h.next { r with seq := h.seq, boot := h.boot }
        next := h.next + 1, seq := h.seq + 1 } }
  else s.bump 0x3100 0x03 0

/-- Write one record (R399-R401): merged, or at the next position, or counted in OD 0x3100:03 when the book is full. -/
def State.herdWrite (s : State) (r : HerdRec) : State :=
  let h := s.herd
  match herdLatest h r.kind r.inst with
  | some (p, old) =>
    if herdSame old r then
      { s with herd := { h with recs := Sparse.set herdNone h.recs p { old with last := h.interval, merged := old.merged + 1 } } }
    else s.herdNew r
  | none => s.herdNew r

/-- Close every accumulator (R397): at the end of an interval, or early with TRUNCATED set. -/
def State.herdClose (s : State) (truncated : Bool) : State :=
  let rs := s.herd.accs ++ s.herd.spill.toList
  let s := { s with herd := { s.herd with accs := [], spill := none } }
  rs.foldl (fun s r => s.herdWrite { r with flags := r.flags ||| b2n truncated }) s

/-- Write a record at once, outside the interval mechanism (kinds 0x1102 and 0x3001, R398). -/
def State.herdNow (s : State) (kind inst : Nat) (q : Int) (arg : Nat) : State :=
  s.herdWrite (herdFirst s.herd kind inst q arg)

/-! ### Trace -/

/-- The bytes of a trace record (Table 20-4). -/
def traceBytes (time src fin unit status tag arg seq dropped : Nat) : List Byte :=
  leBytes 8 time ++ leBytes 1 src ++ leBytes 1 fin ++ leBytes 2 unit ++ leBytes 2 status ++ leBytes 2 tag ++ leBytes 8 arg
    ++ leBytes 4 seq ++ leBytes 4 (Nat.min dropped 0xFFFFFFFF)

/-- Trace an event of a source (R412, R413), stamped under R361: nothing while tracing is off or the source's bit is 0; with
the queue of 1,024 full the record is dropped and counted. -/
def State.traced (s : State) (src fin unit status tag arg : Nat) : State :=
  if s.odg 0x3200 0x01 = 1 ∧ bit (s.odg 0x3200 0x02) src then
    if s.trace.queue.length < 1024 then
      let t := s.stampOf (0x10000 + src * 0x10000 + unit)
      let r := traceBytes t src fin unit status tag arg s.trace.accepted s.trace.dropped
      let s := s.stamped (0x10000 + src * 0x10000 + unit)
      { s with trace := { s.trace with queue := s.trace.queue ++ [r], accepted := s.trace.accepted + 1, dropped := 0 } }
    else { s.bump 0x3201 0x04 0 with trace := { s.trace with dropped := s.trace.dropped + 1 } }
  else s

/-! ### Contexts -/

/-- A cellar with nothing in it. -/
def cellarNone : Cellar :=
  { cap := 0, mark := 0, policy := 0, spill := 0, frames := [], outMa := 0, mode := 0, runs := [], peak := 0
    peakSpill := 0, reduced := none, mismatch := 0, reached := false }

/-- A context slot that holds nothing. -/
def ctxNone : Ctx :=
  { st := .empty, desc := [], plan0 := [], plan1 := [], step := 0, version := 0, slots := 0, base := 0, startSlot := 0
    stepOn := false, timedPos := 0, flowPos := 0, skipLeft := 0, runs := [], stashJ := 0, noStart := false
    refused := false, exhausted := false, repeatEv := false, storageEv := false, lostEv := false, sawThrot := false
    sawBehind := false, vote := none, combined := none, verdict := none, restoring := false, repeats := 0, calm := 0
    verdicts := 0, stopTag := none, stopWhy := 0, startT := 0, deadlineT := 0, throtSlots := 0, maxLag := 0
    phases := [], reruns := 0, fails := 0, invalids := 0, norms := [], undo := [], early := [], groupDir := []
    cellar := cellarNone, outcomes := [] }

/-- Context c. -/
def State.ctx (s : State) (c : Nat) : Ctx := Sparse.get (fun _ => ctxNone) s.ctxs c

/-- Write context c. -/
def State.setCtx (s : State) (c : Nat) (x : Ctx) : State := { s with ctxs := Sparse.set (fun _ => ctxNone) s.ctxs c x }

/-- Whether context c is resident. -/
def State.resident (s : State) (c : Nat) : Bool := decide ((s.ctx c).st ≠ .empty)

/-- The context that runs now: the one whose context slots advance. -/
def State.runningCtx (s : State) : Option Nat :=
  match s.current with
  | some c => if (s.ctx c).st = .running then some c else none
  | none => none

/-- The fields of a context descriptor (Table 10-6). -/
def Ctx.fld (x : Ctx) (o n : Nat) : Nat := Machine.fld x.desc o n

/-- JOB of a context (Table 10-6). -/
def Ctx.job (x : Ctx) : Nat := x.fld 0 2
/-- SEED of a context (Table 10-6). -/
def Ctx.seed (x : Ctx) : Nat := x.fld 8 8
/-- PBASE of a context (Table 10-6). -/
def Ctx.pbase (x : Ctx) : Nat := x.fld 16 1
/-- PCOUNT of a context (Table 10-6). -/
def Ctx.pcount (x : Ctx) : Nat := x.fld 17 1
/-- JOB_DIAMETER of a context (Table 10-6). -/
def Ctx.diameter (x : Ctx) : Nat := x.fld 18 1
/-- SBASE of a context (Table 10-6). -/
def Ctx.sbase (x : Ctx) : Nat := x.fld 24 4
/-- SLIMIT of a context (Table 10-6). -/
def Ctx.slimit (x : Ctx) : Nat := x.fld 28 4
/-- SYNC_BASE of a context (Table 10-6). -/
def Ctx.syncBase (x : Ctx) : Nat := x.fld 32 2
/-- SYNC_COUNT of a context (Table 10-6). -/
def Ctx.syncCount (x : Ctx) : Nat := x.fld 34 2

/-- An event after the vote is latched changes it no more: before the verdict it is counted in OD 0x2702:0B (R302). -/
def State.afterVote (s : State) (c : Nat) : State := if (s.ctx c).verdict.isNone then s.bump 0x2702 0x0B 0 else s

/-- Record a storage event (R391): counted, entered in the herd book, and latched for the running step of its context
unless the step's vote is latched already (R302).
Without a context the herd-book instance is unstated and takes a free value (log entry 5). -/
def State.storageEvent (s : State) (c : Option Nat) (status arg : Nat) : State :=
  let a := status + arg % 2 ^ 39 * 2 ^ 16
  match c with
  | some c =>
    let s := (s.bump 0x3003 0x01 0).herdEvent 0x2402 c 0 a
    if (s.ctx c).vote.isSome then s.afterVote c
    else if (s.ctx c).stepOn then s.setCtx c { s.ctx c with storageEv := true, repeatEv := true } else s
  | none => ((s.bump 0x3003 0x01 0).herdEvent 0x2402 ((Config.freeWord s.free).toNat % 2 ^ 32) 0 a).drawn

/-- Count replays and a transfer ended by a third mismatch (R390); the herd book takes the transfer's replays. -/
def State.replayed (s : State) (n where_ : Nat) (ended : Bool) : State :=
  if n = 0 then s else
  let s := (s.bump 0x3004 0x01 0 n).herdEvent 0x2401 where_ (n : Nat) 0
  if ended then s.bump 0x3004 0x02 0 else s

/-- Count n replays that the base die of a stack requests in a transfer (R130): OD 0x2401:03, and OD 0x2401:04 where the last of
them fails and ends the transfer. -/
def State.stackReplays (s : State) (stack n : Nat) (ended : Bool) : State :=
  if n = 0 then s else
  let s := (s.bump 0x2401 0x03 stack n).replayed n (32 + stack) ended
  if ended then s.bump 0x2401 0x04 stack else s

/-- An event that requires a repeat of the running step of a context (R220, R302): numerical overflow is counted, recorded,
and requires the repeat where its bit of OD 0x2701:01 is set; after the vote it is counted in OD 0x2702:0B. -/
def State.numericEvent (s : State) (c : Nat) (status maskBit : Nat) : State :=
  let s := (s.bump 0x2702 0x08 0).herdEvent 0x2701 c 0 status
  if (s.ctx c).vote.isSome then s.afterVote c
  else if bit (s.odg 0x2701 0x01) maskBit then s.setCtx c { s.ctx c with repeatEv := true }
  else s

/-! ### Synchronisation objects -/

/-- The value of an object. -/
def State.objVal (s : State) (i : Nat) : Dword :=
  if s.sync.retired.contains (i / 256) || s.sync.lost.contains i then 0 else Sparse.get (fun _ => 0) s.sync.value i

/-- The type of an object (R211). -/
def State.objTyp (s : State) (i : Nat) : BitVec 2 :=
  if s.sync.retired.contains (i / 256) || s.sync.lost.contains i then 0 else Sparse.get (fun _ => 0) s.sync.typ i

/-- A barrier after n arrivals stand at it (Table 10-5): the generation takes the passages, the rest stays. -/
def barrierTake (v : Dword) (n : Nat) : Dword :=
  let target := v.toNat / 2 ^ 48
  let gen := (v.toNat % 2 ^ 32 + n / target) % 2 ^ 32
  BitVec.ofNat 64 (gen + n % target * 2 ^ 32 + target * 2 ^ 48)

/-- The value of an object of a type after a signal with v (Table 10-5). -/
def signalVal (t : BitVec 2) (old v : Dword) : Dword :=
  if t = 0 then old + v
  else if t = 1 then barrierTake old (old.toNat / 2 ^ 32 % 2 ^ 16 + v.toNat)
  else if t = 2 then old ||| v
  else old

/-- Whether a wait for v is satisfied (Table 10-5). -/
def waitMet (t : BitVec 2) (val v : Dword) : Bool :=
  if v = 0 then true
  else if t = 0 then decide (v ≤ val)
  else if t = 1 then decide (v.toNat % 2 ^ 32 ≤ val.toNat % 2 ^ 32)
  else if t = 2 then decide (val &&& v = v)
  else false

/-- The resident contexts whose object range holds object i (R214). -/
def State.objOwners (s : State) (i : Nat) : List Nat :=
  (Sparse.keys s.ctxs).filter fun c =>
    decide ((s.ctx c).syncBase ≤ i ∧ i < (s.ctx c).syncBase + (s.ctx c).syncCount)

/-- A step that touches an object of a retired bank meets a storage event, once (R387). -/
def State.touchObj (s : State) (i : Nat) : State :=
  if s.sync.retired.contains (i / 256) then
    (s.objOwners i).foldl (fun s c =>
      if (s.ctx c).stepOn && !(s.ctx c).storageEv then s.storageEvent (some c) St.SYNC_OBJECT_LOST i else s) s
  else s

/-- Signal object i with v (R211): applied whole; to an object of a retired bank it is discarded, and to an object whose
value is lost it is lost with it (R387). Traced when the object is watched (R412). -/
def State.signal (s : State) (i : Nat) (v : Dword) : State :=
  let first := s.odg 0x3200 0x06 % 2 ^ 16
  let cnt := s.odg 0x3200 0x06 / 2 ^ 16
  let s := s.touchObj i
  let s := if s.sync.retired.contains (i / 256) || s.sync.lost.contains i then s else
    { s with sync := { s.sync with
        value := Sparse.set (fun _ => 0) s.sync.value i (signalVal (s.objTyp i) (s.objVal i) v) } }
  if first ≤ i ∧ i < first + cnt then s.traced 4 0 0 0 0 (i + v.toNat % 2 ^ 48 * 2 ^ 16) else s

/-- Set the type and value of an object (SYNC_SET, R211): a barrier with arrivals at or above its target is normalised. -/
def State.setObj (s : State) (i : Nat) (t : BitVec 2) (v : Dword) : State :=
  let s := s.touchObj i
  if s.sync.retired.contains (i / 256) || s.sync.lost.contains i then s else
  let w := if t = 1 then barrierTake v (v.toNat / 2 ^ 32 % 2 ^ 16) else v
  { s with sync := { s.sync with value := Sparse.set (fun _ => 0) s.sync.value i w
                                 typ := Sparse.set (fun _ => 0) s.sync.typ i t } }

/-- Whether a wait for v on object i is satisfied now. -/
def State.satisfied (s : State) (i : Nat) (v : Dword) : Bool := waitMet (s.objTyp i) (s.objVal i) v

/-- Both copies of object i are bad (R387): its value is lost, a storage event for every context whose range holds it; the
bank waits for the next slot boundary. -/
def State.loseObj (s : State) (i : Nat) : State :=
  if s.sync.lost.contains i then s else
  let s := { s with sync := { s.sync with lost := i :: s.sync.lost } }
  (s.objOwners i).foldl (fun s c => s.storageEvent (some c) St.SYNC_OBJECT_LOST i) s

/-! ### Module memory -/

/-- What an unlisted byte of module memory reads as: the zeros that start-up writes (R126). -/
def memZero : Nat → Byte := fun _ => 0

/-- The byte at an MA. -/
def State.memByte (s : State) (a : Nat) : Byte := Sparse.get memZero s.hbm.mem a

/-- Write the byte at an MA. -/
def State.putByte (s : State) (a : Nat) (b : Byte) : State :=
  { s with hbm := { s.hbm with mem := Sparse.set memZero s.hbm.mem a b } }

/-- The n bytes from an MA. -/
def State.memBytes (s : State) (a : Nat) : Nat → List Byte
  | 0 => []
  | n + 1 => s.memByte a :: s.memBytes (a + 1) n

/-- Write bytes from an MA on. -/
def State.putMem (s : State) (a : Nat) : List Byte → State
  | [] => s
  | b :: t => (s.putByte a b).putMem (a + 1) t

/-- Whether the sector that holds an MA is poisoned (R131). -/
def State.poisoned (s : State) (a : Nat) : Bool := Sparse.get (fun _ => false) s.hbm.poison (a / 32)

/-- Set or clear the poison of the sector that holds an MA (R131). -/
def State.setPoison (s : State) (a : Nat) (p : Bool) : State :=
  { s with hbm := { s.hbm with poison := Sparse.set (fun _ => false) s.hbm.poison (a / 32) p } }

/-- Whether the stack of an MA is retired (R135). -/
def State.stackRetired (s : State) (a : Nat) : Bool := decide (s.odg 0x2400 0x03 (a / 2 ^ 36) = 1)

/-- The frame of an MA: stack + 8 × frame number (R134, Table 06-7). -/
def frameOf (a : Nat) : Nat := a / 2 ^ 36 + 8 * (a % 2 ^ 36 / 2 ^ 21)

/-- Whether an MA lies in a retired stack or frame (R134, R135). -/
def State.memRetired (s : State) (a : Nat) : Bool := s.stackRetired a || s.hbm.frames.contains (frameOf a)

/-- Whether the transfer of the sector of an MA fails its replays in the operation in progress (R130). -/
def State.replayFails (s : State) (a : Nat) : Bool := decide (s.hbm.replayBad = some (a / 32))

/-- The status with which a read of the sector of an MA fails, 0 where it does not (R130, R131, R134, R135). -/
def State.readStatus (s : State) (a : Nat) : Nat :=
  if s.stackRetired a then St.MEM_STACK_RETIRED
  else if s.hbm.frames.contains (frameOf a) then St.MEM_FRAME_RETIRED
  else if s.replayFails a then St.MEM_REPLAY_FAILED
  else if s.poisoned a then St.MEM_UNCORRECTABLE
  else 0

/-- The status with which a write to the sector of an MA fails (R130, R131, R134, R135): a whole-sector write clears poison. -/
def State.writeStatus (s : State) (a : Nat) (whole : Bool) : Nat :=
  if s.stackRetired a then St.MEM_STACK_RETIRED
  else if s.hbm.frames.contains (frameOf a) then St.MEM_FRAME_RETIRED
  else if s.replayFails a then St.MEM_REPLAY_FAILED
  else if s.poisoned a && !whole then St.MEM_UNCORRECTABLE
  else 0

/-- The offset and status of the first sector that fails a read of n bytes from an MA. -/
def State.readFail (s : State) (a n : Nat) : Option (Nat × Nat) :=
  if n = 0 then none else
  ((List.range (((a + n - 1) / 32) - a / 32 + 1)).map fun j =>
      (((a / 32 + j) * 32) - a, s.readStatus ((a / 32 + j) * 32))).find? fun x => decide (x.2 ≠ 0)

/-- Note a poisoned sector that an operation met (R392): OD 0x3003:02. -/
def State.metPoison (s : State) (status a : Nat) : State :=
  if status = St.MEM_UNCORRECTABLE then s.odp 0x3003 0x02 0 (a / 32 * 32) else s

/-! ### The slices (R126) -/

/-- The line of a slice that holds an MA: valid bits [3:0] and dirty bits [7:4] of its four sectors, 0 where the slice lacks it. -/
def State.sliceLine (s : State) (l : Nat) : Byte := Sparse.get (fun _ => 0) s.hbm.slice l

/-- Write a line of a slice. -/
def State.setLine (s : State) (l : Nat) (v : Byte) : State :=
  { s with hbm := { s.hbm with slice := Sparse.set (fun _ => 0) s.hbm.slice l v } }

/-- Whether the slice holds the sector of an MA. -/
def State.inSlice (s : State) (a : Nat) : Bool := (s.sliceLine (a / 128)).getLsbD (a % 128 / 32)

/-- Whether the slice holds the sector of an MA dirty. -/
def State.dirtySector (s : State) (a : Nat) : Bool := (s.sliceLine (a / 128)).getLsbD (4 + a % 128 / 32)

/-- The set of a line, with its stack. -/
def setOf (l : Nat) : Nat × Nat := (l / 2 ^ 29, Config.sliceSet (l % 2 ^ 29) % 16384)

/-- Place a line in its set: the 25th line of a set replaces one of the 24, which is written back (log entry 48);
while a stack's slices hold fewer than 24 lines no set is full. -/
def State.roomFor (s : State) (l : Nat) : State :=
  if s.sliceLine l ≠ 0 ∨ s.hbm.slice.length < 24 then s else
  let mine := (Sparse.keys s.hbm.slice).filter fun k => decide (setOf k = setOf l)
  if mine.length < 24 then s else (s.setLine (mine.getD (Config.sliceVictim s.free % 24) 0) 0).drawn

/-- Place the sector of an MA in its slice, dirty or clean (R126). -/
def State.fillSlice (s : State) (a : Nat) (dirty : Bool) : State :=
  let s := s.roomFor (a / 128)
  s.setLine (a / 128) (s.sliceLine (a / 128) ||| BitVec.ofNat 8 (2 ^ (a % 128 / 32) * (if dirty then 17 else 1)))

/-- The slice gives up the sector of an MA. -/
def State.dropSector (s : State) (a : Nat) : State :=
  s.setLine (a / 128) (s.sliceLine (a / 128) &&& ~~~ BitVec.ofNat 8 (2 ^ (a % 128 / 32) * 17))

/-- A write to the sector of an MA passes its slice (R126): a sector held becomes dirty; an allocating write places it, fetching
the rest of a sector not written whole; a streaming write of another sector goes to the array. -/
def State.sliceWrites (s : State) (a : Nat) (alloc whole : Bool) : State :=
  if s.inSlice a then s.fillSlice a true
  else if alloc then ((if whole then s else s.bump 0x2403 0x02 (a / 2 ^ 36)).fillSlice a true)
  else s

/-- Note a range that the operation in progress accesses (R315). -/
def State.touches (s : State) (a n : Nat) : State :=
  { s with hbm := { s.hbm with touched := s.hbm.touched.map fun l => (a, n) :: l } }

/-- Write a run of bytes sector by sector, allocating in the slices or not: bytes at or above 2^39 (R118, log entry 48) and sectors
in retired memory are discarded, a partial write of a poisoned sector is not executed, a whole one clears the poison. The
first failing status. -/
def State.writeSectors (s : State) (alloc : Bool) (a : Nat) (bs : List Byte) : State × Nat :=
  if bs.isEmpty then (s, 0) else
  (List.range (((a + bs.length - 1) / 32) - a / 32 + 1)).foldl (fun (acc : State × Nat) j =>
    let base := (a / 32 + j) * 32
    let lo := Nat.max a base
    let hi := Nat.min (a + bs.length) (base + 32)
    let whole := decide (lo = base ∧ hi = base + 32)
    let st := acc.1.writeStatus base whole
    if 2 ^ 39 ≤ base then acc
    else if st = 0 then
      let s := if whole then acc.1.setPoison base false else acc.1
      ((s.putMem lo ((bs.drop (lo - a)).take (hi - lo))).sliceWrites base alloc whole, acc.2)
    else (acc.1, if acc.2 = 0 then st else acc.2)) (s.touches a bs.length, 0)

/-- Write a run of bytes past the slices, as the module's own records do. -/
def State.writeRun (s : State) (a : Nat) (bs : List Byte) : State × Nat := s.writeSectors false a bs

/-! ### Cores, core stores and region stores -/

/-- The number of enabled cores of a region (OD 0x2300:01). -/
def State.enabled (s : State) (region : Nat) : Nat := s.odg 0x2300 0x01 region

/-- The region of a physical core, 16 × n + KK (Table 00-1). -/
def coreRegion (core : Nat) : Nat :=
  16 * (core / 1024) + 4 * (core % 1024 / 32 / 8) + core % 32 / 8

/-- The position of a physical core in its region: 8 × (row mod 8) + (column mod 8). -/
def corePos (core : Nat) : Nat := 8 * (core % 1024 / 32 % 8) + core % 8

/-- The physical core at a position of a region. -/
def coreAt (region pos : Nat) : Nat :=
  1024 * (region / 16) + 32 * (8 * (region % 16 / 4) + pos / 8) + 8 * (region % 4) + pos % 8

/-- The physical core of a logical index of a region (OD 0x2300:04, R89), none at or above E. -/
def State.logical (s : State) (region i : Nat) : Option Nat :=
  let p := s.odg 0x2300 0x04 (64 * region + i)
  if i < s.enabled region ∧ p < 64 then some (coreAt region p) else none

/-- Whether a physical core is enabled (OD 0x2300:03). -/
def State.coreEnabled (s : State) (core : Nat) : Bool := bit (s.odg 0x2300 0x03 (coreRegion core)) (corePos core)

/-- The logical index of a physical core (R89). -/
def State.logicalIndex (s : State) (core : Nat) : Nat :=
  ((List.range 64).find? fun i => decide (s.odg 0x2300 0x04 (64 * coreRegion core + i) = corePos core)).getD 0

/-- The enabled cores of a region in logical order. -/
def State.regionCores (s : State) (region : Nat) : List Nat := (List.range 64).filterMap (s.logical region)

/-- The key of a byte of a core store. -/
def storeKey (core off : Nat) : Nat := core * 2 ^ 18 + off

/-- The byte of a core store; a byte that nothing has written reads 0 (log entry 13). -/
def State.storeByte (s : State) (core off : Nat) : Byte := Sparse.get (fun _ => 0) s.store (storeKey core off)

/-- Write a byte of a core store. -/
def State.putStore (s : State) (core off : Nat) (b : Byte) : State :=
  { s with store := Sparse.set (fun _ => 0) s.store (storeKey core off) b }

/-- The n bytes of a core store from an offset. -/
def State.storeBytes (s : State) (core off : Nat) : Nat → List Byte
  | 0 => []
  | n + 1 => s.storeByte core off :: s.storeBytes core (off + 1) n

/-- Write bytes of a core store from an offset on. -/
def State.putStoreRun (s : State) (core off : Nat) : List Byte → State
  | [] => s
  | b :: t => (s.putStore core off b).putStoreRun core (off + 1) t

/-- The core and offset of byte A of a region store (R33), none beyond its end. -/
def State.regionLoc (s : State) (region a : Nat) : Option (Nat × Nat) :=
  let e := s.enabled region
  if e = 0 ∨ e * 2 ^ 18 ≤ a then none
  else (s.logical region (a / 512 % e)).map fun c => (c, a / (512 * e) * 512 + a % 512)

/-- Byte A of a region store (R33); nothing is mapped beyond its end. -/
def State.regionByte (s : State) (region a : Nat) : Byte :=
  match s.regionLoc region a with
  | some (c, o) => s.storeByte c o
  | none => 0

/-- The n bytes of a region store from A. -/
def State.regionBytes (s : State) (region a : Nat) : Nat → List Byte
  | 0 => []
  | n + 1 => s.regionByte region a :: s.regionBytes region (a + 1) n

/-- Write bytes of a region store from A on (R33). -/
def State.putRegion (s : State) (region a : Nat) : List Byte → State
  | [] => s
  | b :: t => (match s.regionLoc region a with
    | some (c, o) => s.putStore c o b
    | none => s).putRegion region (a + 1) t

/-- Element i of physical pail p of a core. A pail that nothing has written reads 0 (log entry 13). -/
def State.pail (s : State) (core p i : Nat) : Word := Sparse.get (fun _ => 0) s.pails (core * 16384 + p * 256 + i)

/-- Write an element of a pail. -/
def State.setPail (s : State) (core p i : Nat) (w : Word) : State :=
  { s with pails := Sparse.set (fun _ => 0) s.pails (core * 16384 + p * 256 + i) w }

end Sys2Proof.Machine
end

