-- ==== Sys2Proof/Machine/PlanOps.lean ====
section
/-! DEFINITION. Step-plan entries (Table 10-2) and what several commands share about them: an entry starting, an entry
completing, the completion of START entries, the core faults. -/

namespace Sys2Proof.Machine

/-- SLOT of an entry. -/
def PlanEntry.slot (e : PlanEntry) : Nat := bits e.lo.toNat 31 0
/-- OP of an entry. -/
def PlanEntry.op (e : PlanEntry) : Nat := bits e.lo.toNat 36 32
/-- SIGNAL of an entry. -/
def PlanEntry.signal (e : PlanEntry) : Bool := bit e.lo.toNat 37
/-- The keep-0 bits of byte 4. -/
def PlanEntry.resv (e : PlanEntry) : Nat := bits e.lo.toNat 39 38
/-- TARGET of an entry. -/
def PlanEntry.target (e : PlanEntry) : Nat := bits e.lo.toNat 47 40
/-- SYNC of an entry. -/
def PlanEntry.sync (e : PlanEntry) : Nat := bits e.lo.toNat 63 48
/-- ARG of an entry. -/
def PlanEntry.arg (e : PlanEntry) : Nat := e.hi.toNat

/-- The plan version that the running step uses (R222). -/
def Ctx.plan (x : Ctx) : List PlanEntry := if x.version = 0 then x.plan0 else x.plan1

/-- Whether an operation is timed (Table 10-3). -/
def timedOp (op : Nat) : Bool := decide (1 ≤ op ∧ op ≤ 5)

/-- The entries of a plan version with their positions; the position after a STASH holds its record (Table 10-3). -/
def entriesFrom : Nat → Bool → List PlanEntry → List (Nat × PlanEntry)
  | _, _, [] => []
  | n, true, _ :: t => entriesFrom (n + 1) false t
  | n, false, e :: t => (n, e) :: entriesFrom (n + 1) (decide (e.op = 0x10)) t

/-- The entries of the plan in use. -/
def Ctx.entries (x : Ctx) : List (Nat × PlanEntry) := entriesFrom 0 false x.plan

/-- Whether an entry is due (R208). -/
def Ctx.isDue (x : Ctx) (e : PlanEntry) : Bool := decide (x.base + e.slot ≤ x.slots)

/-- The next timed entry: its index in plan order, its position, itself. -/
def Ctx.timedNext (x : Ctx) : Option (Nat × Nat × PlanEntry) :=
  ((x.entries.zipIdx.drop x.timedPos).find? fun e => timedOp e.1.2.op).map fun e => (e.2, e.1.1, e.1.2)

/-- The regions a START names (Table 10-3). -/
def PlanEntry.regions (e : PlanEntry) : List Nat := if bit e.target 7 then List.range 64 else [e.target % 64]

/-- Core file of a core and context: every register 0, no program (log entry 13). -/
def fileNone : CoreFile :=
  { regs := [], masks := [], pc := 0, flags := 0, running := false, waiting := none, faulted := false, halted := false
    bpHit := false, stepOne := false, bpPass := false, bps := [] }

/-- The context-file entry of a core (R92). -/
def State.file (s : State) (core ctx : Nat) : CoreFile := Sparse.get (fun _ => fileNone) s.files (core * 64 + ctx)

/-- Write the context-file entry of a core. -/
def State.setFile (s : State) (core ctx : Nat) (f : CoreFile) : State :=
  { s with files := Sparse.set (fun _ => fileNone) s.files (core * 64 + ctx) f }

/-- A firmware routine of context c raises numeric flags (R95, R101, R112): they stick on one core, which one is free (log entry 47). -/
def State.routineFlags (s : State) (c : Nat) (fl : BitVec 4) : State :=
  if fl = 0 then s else
  let k := Config.routineCore s.free % 4096
  let f := s.file k c
  (s.setFile k c { f with flags := f.flags ||| fl }).drawn

/-- Whether the cores of a compute die have ended their share of the latest context switch (R217). -/
def State.shareOver (s : State) (die : Nat) : Bool := decide (Sparse.get (fun _ => 0) s.shares die ≤ s.ctl.clock)

/-- Scalar register i: s0 reads as 0 (Table 04-1). -/
def CoreFile.reg (f : CoreFile) (i : Nat) : Dword := if i = 0 then 0 else Sparse.get (fun _ => 0) f.regs i

/-- Write scalar register i: writes to s0 are ignored. -/
def CoreFile.setReg (f : CoreFile) (i : Nat) (v : Dword) : CoreFile :=
  if i = 0 then f else { f with regs := Sparse.set (fun _ => 0) f.regs i v }

/-- Mask register i: k0 reads as all ones (Table 04-1). -/
def CoreFile.mask (f : CoreFile) (i : Nat) : BitVec 256 :=
  if i = 0 then BitVec.allOnes 256 else Sparse.get (fun _ => 0) f.masks i

/-- Write mask register i: writes to k0 are ignored. -/
def CoreFile.setMask (f : CoreFile) (i : Nat) (v : BitVec 256) : CoreFile :=
  if i = 0 then f else { f with masks := Sparse.set (fun _ => 0) f.masks i v }

/-- The core word of Table 20-2 bits [19:8]: die, row, column, as trace and the herd book name a core. -/
def coreUnit (core : Nat) : Nat := core / 1024 + core % 1024 / 32 * 4 + core % 32 * 128

/-- A flow entry starts (R210, R412). -/
def State.entryStarts (s : State) (c pos : Nat) : State := s.traced 0 0 0 0 c pos

/-- An entry completes (Table 10-2, R412): it leaves the running entries and signals SYNC when its SIGNAL is 1. -/
def State.entryDone (s : State) (c pos : Nat) : State :=
  let x := s.ctx c
  let s := s.setCtx c { x with runs := x.runs.filter fun r => decide (r.pos ≠ pos) }
  let s := s.traced 0 1 0 0 c pos
  match x.plan[pos]? with
  | some e => if e.signal then s.signal e.sync 1 else s
  | none => s

/-- Whether every enabled core of a region has ended the context's program (Table 10-3, START). -/
def State.regionIdle (s : State) (c region : Nat) : Bool :=
  (s.regionCores region).all fun k => !(s.file k c).running

/-- Complete every START entry of a context whose cores have all issued END (Table 10-3). -/
def State.settleStarts (s : State) (c : Nat) : State :=
  (s.ctx c).runs.foldl (fun s r =>
    match (s.ctx c).plan[r.pos]? with
    | some e => if e.op = 0x0B ∧ e.regions.all (s.regionIdle c) = true then s.entryDone c r.pos else s
    | none => s) s

/-- The value of OD 0x2301:02 for a core fault (Table 04-6). -/
def faultWord (core c code : Nat) : Nat :=
  code + core / 1024 * 2 ^ 8 + core % 1024 / 32 * 2 ^ 10 + core % 32 * 2 ^ 15 + c * 2 ^ 20

/-- Raise a core fault (R94): the core stops issuing for the context, the fault is counted and recorded, and it is a storage
event with status CORE_FAULT (R391). -/
def State.coreFault (s : State) (core c code : Nat) : State :=
  let w := faultWord core c code
  let s := s.setFile core c { s.file core c with faulted := true, waiting := none }
  let s := (s.bump 0x2301 0x01 0).odp 0x2301 0x02 0 w
  (s.herdEvent 0x2301 (coreUnit core) (code : Nat) w).storageEvent (some c) St.CORE_FAULT w

/-- The nanoseconds of 24 hours. -/
def dayNs : Nat := 86400 * 10 ^ 9

/-- A storage event from a word of a core's pails or core store (R386): twice from one word, or three times, within 24 hours
retires the core at the next step boundary. -/
def State.coreEvent (s : State) (core word : Nat) : State :=
  let recent := s.ctl.coreEvents.filter fun e => decide (e.1 = core ∧ s.ctl.clock < e.2.2 + dayNs)
  let again := recent.any (fun e => decide (e.2.1 = word)) || decide (2 ≤ recent.length)
  { s with ctl := { s.ctl with
      coreEvents := (core, word, s.ctl.clock) :: s.ctl.coreEvents
      coreRetire := if again && !s.ctl.coreRetire.contains core then core :: s.ctl.coreRetire else s.ctl.coreRetire } }

end Sys2Proof.Machine
end

