-- ==== Sys2Proof/Machine/ChurnOps.lean ====
section
/-! DEFINITION. What the churn commands share (chapter 02): tile-command fields (Table 02-6), rejection (R39), completion
records (R40, R424), the products (R25), accumulation (R28), the clip policies (R29), launches (R31), shadow mode (R44). -/

namespace Sys2Proof.Machine

/-- A churn's work that holds nothing. A weight bank before any LOAD holds zero codes, which the manual does not say (log entry 13). -/
def workNone : ChWork :=
  { queue := [], fifo := [], held := [], exec := [], bank0 := [], bank1 := [], src0 := none, src1 := none, active := false
    lastDone := none }

/-- A churn after reset: DARK, nothing queued (R47; the symbol rate is OD 0x2200:01's default). -/
def churnNone : Churn :=
  { st := .dark, before := .ready, work := workNone, relock := [], rejoin := [], attempts := 0, badRows := [], badCols := []
    rowMap := [], colMap := [], rowsOut := [], colsOut := [], rate := 4, rateDue := false, rateCal := false, calEnd := 0
    idleAt := 0, reload := false, calDue := false }

/-- Churn ch = 16 × d + K. -/
def State.churn (s : State) (ch : Nat) : Churn := Sparse.get (fun _ => churnNone) s.churns ch

/-- Write churn ch. -/
def State.setChurn (s : State) (ch : Nat) (x : Churn) : State :=
  { s with churns := Sparse.set (fun _ => churnNone) s.churns ch x }

/-- Word n of a tile command (R36). -/
def cmdW (cmd : List Byte) (n : Nat) : Nat := fld cmd (4 * n) 4
/-- OP (Table 02-6). -/
def cmdOp (cmd : List Byte) : Nat := bits (cmdW cmd 0) 3 0
/-- DIR: true for reverse light. -/
def cmdReverse (cmd : List Byte) : Bool := bit (cmdW cmd 0) 4
/-- SWAP_FIRST. -/
def cmdSwapFirst (cmd : List Byte) : Bool := bit (cmdW cmd 0) 5
/-- ACC_INIT. -/
def cmdAccInit (cmd : List Byte) : Bool := bit (cmdW cmd 0) 6
/-- SHADOW. -/
def cmdShadow (cmd : List Byte) : Bool := bit (cmdW cmd 0) 7
/-- GAIN. -/
def cmdGain (cmd : List Byte) : Nat := bits (cmdW cmd 0) 10 8
/-- CLIP_POLICY. -/
def cmdPolicy (cmd : List Byte) : Nat := bits (cmdW cmd 0) 12 11
/-- FALLBACK. -/
def cmdFallback (cmd : List Byte) : Bool := bit (cmdW cmd 0) 13
/-- SIGNAL. -/
def cmdSignal (cmd : List Byte) : Bool := bit (cmdW cmd 0) 14
/-- Rows used. -/
def cmdRows (cmd : List Byte) : Nat := bits (cmdW cmd 0) 22 16 + 1
/-- Columns used. -/
def cmdCols (cmd : List Byte) : Nat := bits (cmdW cmd 0) 30 24 + 1
/-- Vectors. -/
def cmdCount (cmd : List Byte) : Nat := bits (cmdW cmd 1) 15 0 + 1
/-- TAG. -/
def cmdTag (cmd : List Byte) : Nat := bits (cmdW cmd 1) 31 16
/-- SRC. -/
def cmdSrc (cmd : List Byte) : Nat := bits (cmdW cmd 2) 23 0
/-- DST. -/
def cmdDst (cmd : List Byte) : Nat := bits (cmdW cmd 3) 23 0
/-- SCALE. -/
def cmdScale (cmd : List Byte) : Word := BitVec.ofNat 32 (cmdW cmd 4)
/-- SYNC. -/
def cmdSync (cmd : List Byte) : Nat := bits (cmdW cmd 5) 15 0

/-- Whether a keep-0 field of Table 02-6 is nonzero. -/
def cmdKeep0 (cmd : List Byte) : Bool :=
  decide (cmdW cmd 0 &&& 0x80808000 ≠ 0 ∨ cmdW cmd 2 / 2 ^ 24 ≠ 0 ∨ cmdW cmd 3 / 2 ^ 24 ≠ 0 ∨ cmdW cmd 5 / 2 ^ 16 ≠ 0
    ∨ cmdW cmd 6 ≠ 0 ∨ cmdW cmd 7 ≠ 0)

/-- Whether a field that R38 makes reserved for the operation is nonzero (Table 02-7). -/
def cmdUnused (cmd : List Byte) : Bool :=
  if cmdOp cmd = 3 then false
  else decide (cmdW cmd 0 &&& 0x7F7F3FF0 ≠ 0 ∨ bits (cmdW cmd 1) 15 0 ≠ 0 ∨ (cmdOp cmd ≠ 1 ∧ cmdSrc cmd ≠ 0)
    ∨ cmdDst cmd ≠ 0 ∨ cmdW cmd 4 ≠ 0)

/-- The bytes of a churn's region store: E × 256 KiB (R33). -/
def State.regionSize (s : State) (ch : Nat) : Nat := s.enabled ch * 2 ^ 18

/-- The status with which a command is rejected, in the order of R39; 0 where it is not. -/
def State.cmdReject (s : State) (ch : Nat) (cmd : List Byte) : Nat :=
  let op := cmdOp cmd
  let x := s.churn ch
  let v := cmdCount cmd
  if cmdKeep0 cmd then St.CMD_RESERVED_NONZERO
  else if op = 0 ∨ 5 < op then St.CMD_BAD_FIELD
  else if cmdUnused cmd then St.CMD_RESERVED_NONZERO
  else if op = 3 then
    (if cmdPolicy cmd = 3 ∨ (val32 (cmdScale cmd)).isFin = false then St.CMD_BAD_FIELD
     else if cmdSrc cmd % 128 ≠ 0 ∨ cmdDst cmd % 512 ≠ 0 ∨ s.regionSize ch < cmdSrc cmd + 128 * v
        ∨ s.regionSize ch < cmdDst cmd + 512 * v then St.CMD_BAD_FIELD
     else if cmdSrc cmd < cmdDst cmd + 512 * v ∧ cmdDst cmd < cmdSrc cmd + 128 * v then St.CMD_BAD_FIELD
     else if x.badRows.any (fun r => decide (r < cmdRows cmd)) || x.badCols.any (fun c => decide (c < cmdCols cmd)) then
       St.CMD_BAD_FIELD
     else 0)
  else if op = 1 then
    (if cmdSrc cmd % 128 ≠ 0 ∨ s.regionSize ch < cmdSrc cmd + 16384 then St.CMD_BAD_FIELD else 0)
  else 0

/-- The bytes of a completion record (Table 02-8). -/
def chRecord (tag status clips replays time : Nat) : List Byte :=
  leBytes 2 tag ++ leBytes 2 status ++ leBytes 2 (Nat.min clips 0xFFFF) ++ leBytes 2 (Nat.min replays 0xFFFF) ++ leBytes 8 time

/-- A completion record reaches a churn's work (R40): the FIFO takes it and its SYNC object is to be signalled, or it is held while the
FIFO is full. -/
def ChWork.takeRecord (w : ChWork) (r : List Byte) (sig : Option Nat) (time : Nat) : ChWork × Option Nat :=
  if w.fifo.length < 32 ∧ w.held = [] then ({ w with fifo := w.fifo ++ [r], lastDone := some time }, sig)
  else ({ w with held := w.held ++ [(r, sig)], lastDone := some time }, none)

/-- Signal the object of a completed command with 1 (R40; the value is the model's choice, log entry 30). -/
def State.chSignal (s : State) (sig : Option Nat) : State :=
  match sig with
  | some o => s.signal o 1
  | none => s

/-- Whether a STREAM in execution has launched every vector once (R41). -/
def ChExec.launchedAll (e : ChExec) : Bool := decide (cmdOp e.cmd = 3 ∧ cmdCount e.cmd ≤ e.next)

/-- Enter CALIBRATING from READY or STREAMING (Table 02-11). -/
def State.calibrate (s : State) (ch : Nat) : State :=
  let x := s.churn ch
  if x.st = .ready ∨ x.st = .streaming then
    s.setChurn ch { x with before := x.st, st := .calibrating, calDue := false } else s

/-- A command boundary (R32): a new symbol rate takes effect, and a calibration runs before the next launch; while a STREAM is between its
first and its last launch there is no boundary, and WAKING and RELIGHTING end with a calibration anyhow (log entry 30). -/
def State.boundary (s : State) (ch : Nat) : State :=
  let x := s.churn ch
  if x.rateDue && x.work.exec.all (fun e => decide (cmdOp e.cmd ≠ 3) || e.launchedAll) then
    (s.setChurn ch { x with rate := s.odg 0x2200 0x01 ch, rateDue := false
                            rateCal := x.rateCal || decide (x.st = .calibrating) }).calibrate ch
  else s

/-- The TIME that a churn's command would complete with now (Table 02-8, R361). -/
def State.chStamp (s : State) (ch : Nat) : Nat := s.stampOf (0x1000 + ch)

/-- Complete a command with a given TIME (R40): its record, its signal, the trace (R412), the command boundary (R32). -/
def State.chCompleteAt (s : State) (ch : Nat) (cmd : List Byte) (status clips replays time : Nat) : State :=
  let x := s.churn ch
  let r := chRecord (cmdTag cmd) status clips replays time
  let s := (s.stamped (0x1000 + ch)).traced 1 0 ch status (cmdTag cmd) 0
  let p := x.work.takeRecord r (if cmdSignal cmd then some (cmdSync cmd) else none) time
  ((s.setChurn ch { x with work := p.1, idleAt := s.ctl.clock }).chSignal p.2).boundary ch

/-- Complete a command now. -/
def State.chComplete (s : State) (ch : Nat) (cmd : List Byte) (status clips replays : Nat) : State :=
  s.chCompleteAt ch cmd status clips replays (s.chStamp ch)

/-- After a record was read: the oldest held completion is written and signals (R40). -/
def State.chRefill (s : State) (ch : Nat) : State :=
  let x := s.churn ch
  match x.work.held with
  | (r, sig) :: t =>
    if x.work.fifo.length < 32 then
      (s.setChurn ch { x with work := { x.work with fifo := x.work.fifo ++ [r], held := t } }).chSignal sig
    else s
  | [] => s

/-- Complete the rejected commands that stand at the head of the queue while nothing executes (R36, R39). -/
def State.chPump (s : State) (ch : Nat) : Nat → State
  | 0 => s
  | n + 1 =>
    let x := s.churn ch
    match x.work.queue with
    | cmd :: t =>
      let st := s.cmdReject ch cmd
      if st ≠ 0 ∧ x.work.exec = [] ∧ x.work.held = [] then
        ((s.setChurn ch { x with work := { x.work with queue := t } }).chComplete ch cmd st 0 0).chPump ch n
      else s
    | [] => s

/-- Rejections at the head of a queue of at most 32 entries. -/
def State.chSettle (s : State) (ch : Nat) : State := s.chPump ch 33

/-- The tile code W[k][n] of a bank (R24, R34). -/
def tileCode (bank : List Byte) (k n : Nat) : Int := codeOf (bank.getD (128 * k + n) 0)

/-- The bank that a flag names. -/
def ChWork.bankOf (w : ChWork) (b : Bool) : List Byte := if b then w.bank1 else w.bank0

/-- The exact integer sum of output j for input bytes x (R25). -/
def productSum (cmd bank x : List Byte) (j : Nat) : Int :=
  if cmdReverse cmd then
    (List.range (cmdCols cmd)).foldl (fun (a : Int) n => a + codeOf (x.getD n 0) * tileCode bank j n) 0
  else (List.range (cmdRows cmd)).foldl (fun (a : Int) k => a + codeOf (x.getD k 0) * tileCode bank k j) 0

/-- The number of outputs of a command (R25). -/
def cmdOuts (cmd : List Byte) : Nat := if cmdReverse cmd then cmdRows cmd else cmdCols cmd

/-- The analogue code for the ideal code (R27, R46): a free value within -511 .. 511 (log entry 1). -/
def analogOf (ctr : Nat) (cstar : Int) : Int := clampInt (-511) 511 (Config.analogCode ctr cstar)

/-- The output codes of vector v at r retries: ideal in shadow mode, drawn in analogue operation (R26, R27, R44). -/
def State.vectorCodes (s : State) (ch : Nat) (e : ChExec) (v r : Nat) (shadow : Bool) : List Int :=
  let bank := (s.churn ch).work.bankOf e.bank
  let x := s.regionBytes ch (cmdSrc e.cmd + 128 * v) 128
  (List.range (cmdOuts e.cmd)).map fun j =>
    let c := idealCode (productSum e.cmd bank x j) (cmdGain e.cmd - r)
    if shadow then c else analogOf (s.free + j) c

/-- The effective scale after r retries (R28): an overflow takes ±Inf with the sign of SCALE. -/
def sigmaEff (cmd : List Byte) (r : Nat) : Word := scale32 (cmdScale cmd) r

/-- Whether an accumulation overflowed to ±Inf (R28). -/
def accOverflow (sigma d out : Word) : Bool :=
  (val32 sigma).isInf || ((val32 out).isInf && (val32 d).isFin)

/-- Accumulate the codes of vector v (R28). A retired row or column takes no analogue code (R67). A command whose operand
read failed writes values that are not defined (R390): free values. -/
def State.accumulate (s : State) (ch : Nat) (e : ChExec) (v r : Nat) (codes : List Int) (shadow : Bool) : State × Bool :=
  let x := s.churn ch
  let bad := if cmdReverse e.cmd then x.badRows else x.badCols
  let sigma := sigmaEff e.cmd r
  let base := cmdDst e.cmd + 512 * v
  codes.zipIdx.foldl (fun (acc : State × Bool) cj =>
    if !shadow && bad.contains cj.2 then acc else
    let a := base + 4 * cj.2
    let d : Word := if cmdAccInit e.cmd then 0 else BitVec.ofNat 32 (leNat (acc.1.regionBytes ch a 4))
    let out := if e.tainted then (Config.freeWord (s.free + 1000 + cj.2)).setWidth 32 else fma32 (int32 cj.1) sigma d
    (acc.1.putRegion ch a (leBytes 4 out.toNat), acc.2 || (!e.tainted && accOverflow sigma d out))) (s, false)

/-- What the clip policy decides for a vector with its number of clipped codes (R29). -/
inductive ClipAct where
  | accumulate (clips : Nat) (unresolved : Bool)
  | retry
  | abort
  deriving DecidableEq, Repr

/-- The clip policy (Table 02-1): `n` codes clipped, `r` retries so far. -/
def clipAct (cmd : List Byte) (r n : Nat) : ClipAct :=
  if n = 0 then .accumulate 0 false
  else if cmdPolicy cmd = 0 then .accumulate n false
  else if cmdPolicy cmd = 1 then
    (if cmdGain cmd ≤ r then .accumulate n false else if r < 2 then .retry else .accumulate n true)
  else .abort

/-- An execution record for a command that starts. -/
def execNew (cmd : List Byte) (bank : Bool) : ChExec :=
  { cmd := cmd, next := 0, relaunch := [], air := [], acc := 0, bank := bank, clips := 0, replays := 0, overflow := false
    unresolved := false, aborted := false, lightLost := false, fallback := false, tainted := false, drifted := false
    outside := false }

/-- The status of a STREAM that completes (R424). -/
def execStatus (e : ChExec) : Nat :=
  if e.lightLost then St.CHURN_LIGHT_LOST
  else if e.aborted then St.CHURN_CLIP_ABORT
  else if e.overflow then St.CHURN_ACC_OVERFLOW
  else if e.unresolved then St.CHURN_CLIP_UNRESOLVED
  else if e.fallback then St.CHURN_DONE_FALLBACK
  else St.CHURN_DONE

/-- Process one vector's codes under the clip policy (R29): the state, the execution record, its relaunch list extended by a
retry. The codes of retired outputs take part in the check (log entry 30). -/
def State.takeCodes (s : State) (ch : Nat) (e : ChExec) (v r : Nat) (shadow : Bool) : State × ChExec :=
  let codes := s.vectorCodes ch e v r shadow
  let s := { s with free := s.free + 2048 }
  let n := (codes.filter clippedCode).length
  match clipAct e.cmd r n with
  | .accumulate k unres =>
    let a := s.accumulate ch e v r codes shadow
    (a.1.bump 0x2202 0x01 0 k, { e with acc := e.acc + 1, clips := e.clips + k, unresolved := e.unresolved || unres
                                        overflow := e.overflow || a.2 })
  | .retry => (s, { e with relaunch := e.relaunch ++ [(v, r + 1, false)] })
  | .abort =>
    (s, { e with aborted := true, next := cmdCount e.cmd
                 relaunch := e.relaunch.filter (fun x => decide (x.1 < v)), air := e.air.filter fun x => decide (x.1 < v) })

/-- Raise the events of a STREAM's conditions when it completes (R28, R29, R424), for the running context. -/
def State.streamEvents (s : State) (e : ChExec) : State :=
  match s.current with
  | some c =>
    let s := if e.overflow then s.numericEvent c St.CHURN_ACC_OVERFLOW 6 else s
    let s := if e.aborted then s.numericEvent c St.CHURN_CLIP_ABORT 1 else s
    if e.unresolved then s.numericEvent c St.CHURN_CLIP_UNRESOLVED 0 else s
  | none => s

/-- Complete a STREAM that has left the execution list (R40, R424), counted where it fell back (Table 02-12). -/
def State.streamDone (s : State) (ch : Nat) (e : ChExec) : State :=
  let s := if execStatus e = St.CHURN_DONE_FALLBACK then s.bump 0x2202 0x05 0 else s
  (s.streamEvents e).chComplete ch e.cmd (execStatus e) e.clips e.replays

/-- Count the re-launches of a STREAM (R29, R50, Table 02-12): `gain` after a clip, `lost` after a lock loss. -/
def State.relaunched (s : State) (gain lost : Nat) : State := (s.bump 0x2202 0x02 0 gain).bump 0x2202 0x03 0 lost

/-- Run vectors in shadow mode (R44): as listed, each with its retries and whether it is a re-launch after a clip, then the retries
in the order found; `fuel` bounds the launches. -/
def State.shadowRun (s : State) (ch : Nat) (e : ChExec) : Nat → List (Nat × Nat × Bool) → State × ChExec
  | 0, _ => (s, e)
  | n + 1, todo =>
    match todo with
    | [] =>
      match e.relaunch with
      | [] => (s, e)
      | (v, r, _) :: t =>
        let p := (s.relaunched 1 0).takeCodes ch { e with relaunch := t, replays := e.replays + 1 } v r true
        if p.2.aborted then (p.1, { p.2 with relaunch := [] }) else p.1.shadowRun ch p.2 n []
    | (v, r, again) :: t =>
      let p := (s.relaunched (b2n again) 0).takeCodes ch { e with replays := e.replays + b2n again } v r true
      if p.2.aborted then (p.1, { p.2 with relaunch := [] }) else p.1.shadowRun ch p.2 n t

/-- Run vectors of a STREAM in shadow mode and complete it (R44, R45). -/
def State.shadowStream (s : State) (ch : Nat) (e : ChExec) (todo : List (Nat × Nat × Bool)) : State :=
  let p := s.shadowRun ch e (3 * (todo.length + e.relaunch.length) + 1) todo
  p.1.streamDone ch { p.2 with next := cmdCount e.cmd, relaunch := [], air := [] }

/-- The vectors of a STREAM in flight that are not accumulated, in ascending index (R52): those in the air or awaiting re-launch with their
retries, and those not yet launched. -/
def ChExec.unaccumulated (e : ChExec) : List (Nat × Nat × Bool) :=
  let known := e.air.map (fun a => (a.1, a.2.2, false)) ++ e.relaunch.map (fun a => (a.1, a.2.1, !a.2.2))
  (List.range (cmdCount e.cmd)).filterMap fun v =>
    if e.next ≤ v then some (v, 0, false) else known.find? fun a => decide (a.1 = v)

/-- A STREAM in flight without light goes on as its FALLBACK directs (R52). -/
def State.fallBack (s : State) (ch : Nat) (e : ChExec) : State :=
  if cmdFallback e.cmd then s.shadowStream ch { e with fallback := true, air := [], relaunch := [] } e.unaccumulated
  else s.streamDone ch { e with lightLost := true, air := [], relaunch := [], next := cmdCount e.cmd }

/-- The healthy slots of a churn, ascending (OD 0x2201:02). -/
def State.healthy (s : State) (ch : Nat) : List Nat := (List.range 4).filter fun k => bit (s.odg 0x2201 0x02 ch) k

/-- Set the healthy slots of a churn. -/
def State.setHealthy (s : State) (ch : Nat) (slots : List Nat) : State :=
  s.odp 0x2201 0x02 ch ((List.range 4).foldl (fun a k => a + (if slots.contains k then 2 ^ k else 0)) 0)

/-- Launch one symbol of a STREAM (R31): ascending healthy slots carry unlaunched vectors in ascending index, then the
vectors awaiting re-launch, each of which counts in REPLAYS. -/
def launchSymbol (slots : List Nat) (e : ChExec) : ChExec :=
  slots.foldl (fun e k =>
    if e.next < cmdCount e.cmd then { e with next := e.next + 1, air := e.air ++ [(e.next, k, 0)] }
    else match e.relaunch with
      | (v, r, _) :: t => { e with relaunch := t, air := e.air ++ [(v, k, r)], replays := e.replays + 1 }
      | [] => e) e

/-- Whether a STREAM in execution still has vectors to launch. -/
def ChExec.toLaunch (e : ChExec) : Bool := decide (e.next < cmdCount e.cmd) || !e.relaunch.isEmpty

/-- Mark the drift conditions of Table 03-7 on a STREAM that launches now; the slope counts by its magnitude (log entry 30). -/
def State.driftMarks (s : State) (ch : Nat) (e : ChExec) : ChExec :=
  let slope := (sInt 16 (s.odg 0x2004 0x03 (ch / 16))).natAbs
  let temp := sInt 16 (s.odg 0x2004 0x02 (ch / 16))
  { e with drifted := e.drifted || decide (64 < slope ∧ slope ≤ 80)
           outside := e.outside || decide (temp < 880 ∨ 1200 < temp) }

/-- Count a STREAM in OD 0x2203:07 and :08 at the first of its launches under the condition. -/
def State.countDrift (s : State) (old new : ChExec) : State :=
  (s.bump 0x2203 0x07 0 (b2n (new.drifted && !old.drifted))).bump 0x2203 0x08 0 (b2n (new.outside && !old.outside))

/-- One symbol of a STREAM is launched: what it carries, and what is counted. -/
def State.launchOne (s : State) (ch i : Nat) (e : ChExec) : State :=
  let x := s.churn ch
  let e2 := launchSymbol (s.healthy ch) (s.driftMarks ch e)
  let again := e.relaunch.take (e.relaunch.length - e2.relaunch.length)
  let lost := (again.filter fun a => a.2.2).length
  ((s.setChurn ch { x with work := { x.work with exec := x.work.exec.set i e2 } }).countDrift e e2).relaunched
    (again.length - lost) lost

/-- Launch n symbols on the first executing STREAM that has something to launch; one symbol carries vectors of one STREAM
(R31, R41; log entry 16). -/
def State.launch (s : State) (ch : Nat) : Nat → State
  | 0 => s
  | n + 1 =>
    let x := s.churn ch
    match x.work.exec.findIdx? ChExec.toLaunch with
    | some i =>
      match x.work.exec[i]? with
      | some e => if x.st = .streaming ∧ s.healthy ch ≠ [] then (s.launchOne ch i e).launch ch n else s
      | none => s
    | none => s

/-- Whether a swap may happen now: the preceding LOAD has completed and the preceding STREAM has launched its last vector
(R41). -/
def ChWork.maySwap (w : ChWork) : Bool := w.exec.all ChExec.launchedAll

/-- Whether a STREAM runs in shadow mode (R44). -/
def State.runsShadow (s : State) (ch : Nat) (cmd : List Byte) : Bool := cmdShadow cmd || bit (s.odg 0x2200 0x04) ch

/-- Whether the queue holds a startable analogue STREAM (Table 02-11): it stands at the head, is not rejected, and may start (R36, R40). -/
def State.startable (s : State) (ch : Nat) : Bool :=
  let w := (s.churn ch).work
  match w.queue with
  | cmd :: _ => decide (cmdOp cmd = 3 ∧ s.cmdReject ch cmd = 0 ∧ w.held = []) && w.maySwap && !s.runsShadow ch cmd
  | [] => false

/-- Whether a STREAM is in execution. -/
def ChWork.streams (w : ChWork) : Bool := w.exec.any fun e => decide (cmdOp e.cmd = 3)

/-- STREAMING ends when no STREAM is in execution and the queue holds no startable one (Table 02-11), and goes on with a STREAM that a
context switch restored (R55). -/
def State.chIdle (s : State) (ch : Nat) : State :=
  let x := s.churn ch
  if x.st = .ready ∧ x.work.streams = true then s.setChurn ch { x with st := .streaming } else
  if x.st = .streaming ∧ x.work.streams = false ∧ s.startable ch = false then s.setChurn ch { x with st := .ready } else s

/-- Complete every executing STREAM that has nothing left to launch or release, in order (R40). -/
def State.finishStreams (s : State) (ch : Nat) : Nat → State
  | 0 => s
  | n + 1 =>
    let x := s.churn ch
    match x.work.exec.findIdx? fun e => decide (cmdOp e.cmd = 3) && !e.toLaunch && e.air.isEmpty with
    | some i =>
      match x.work.exec[i]? with
      | some e =>
        ((s.setChurn ch { x with work := { x.work with exec := x.work.exec.eraseIdx i } }).streamDone ch e).finishStreams ch n
      | none => s
    | none => s

/-- After an event of a churn: finished STREAMs complete, rejected commands at the head complete, STREAMING may end. -/
def State.chSettleAll (s : State) (ch : Nat) : State := ((s.finishStreams ch 40).chIdle ch).chSettle ch

/-- Discard the codes in flight that a test selects (R50): each vector awaits re-launch. -/
def State.discard (s : State) (ch : Nat) (p : Nat → Bool) : State :=
  let x := s.churn ch
  let exec := x.work.exec.map fun e =>
    let gone := e.air.filter fun a => p a.2.1
    { e with air := e.air.filter (fun a => !p a.2.1), relaunch := e.relaunch ++ gone.map (fun a => (a.1, a.2.2, true)) }
  s.setChurn ch { x with work := { x.work with exec := exec } }

/-- The losses of lock whose relocking RELIGHTING cuts short enter the herd book with the attempts made so far (R51; log entry 30). -/
def State.relockCut (s : State) (ch : Nat) : State :=
  (s.churn ch).relock.foldl (fun s e => s.herdEvent 0x2201 (ch + 256 * e.1) (e.2 : Nat) 0) s

/-- Take the STREAMs out of execution, each to go on as its FALLBACK directs (R52), in their order. -/
def State.dropStreams (s : State) (ch : Nat) : State :=
  let x := s.churn ch
  let s := s.setChurn ch { x with work := { x.work with exec := x.work.exec.filter fun e => decide (cmdOp e.cmd ≠ 3) } }
  (x.work.exec.filter fun e => decide (cmdOp e.cmd = 3)).foldl (fun s e => s.fallBack ch e) s

/-- The churn loses its light (R52): codes in flight are discarded, the churn enters RELIGHTING, and each STREAM in flight
finishes in shadow mode or stops, as its FALLBACK directs. -/
def State.loseLight (s : State) (ch : Nat) : State :=
  let s := s.relockCut ch
  let x := s.churn ch
  let s := s.setChurn ch { x with st := .relighting, attempts := 0, relock := [], rejoin := [], calDue := false }
  ((s.setHealthy ch []).dropStreams ch).chSettle ch

/-- The bytes of a bank reloaded from its recorded source (R55). -/
def State.bankFrom (s : State) (ch : Nat) (src : Option Nat) (old : List Byte) : List Byte :=
  match src with
  | some a => s.regionBytes ch a 16384
  | none => old

/-- The reload that waited behind a calibration (R55): both banks from their recorded sources. -/
def State.reloadBanks (s : State) (ch : Nat) : State :=
  let x := s.churn ch
  if x.reload then
    s.setChurn ch { x with reload := false, work := { x.work with
      bank0 := s.bankFrom ch x.work.src0 x.work.bank0, bank1 := s.bankFrom ch x.work.src1 x.work.bank1 } }
  else s

end Sys2Proof.Machine
end

