-- ==== Sys2Proof/Machine/Flags.lean ====
section
/-! DEFINITION. The numeric flags of an operation (R95). -/

namespace Sys2Proof.Machine

/-- The flags of one FP32 operation from its operands and its result (R95). -/
def flags32 (ins : List Word) (out : Word) : BitVec 4 :=
  let seen := ins.any fun w => (val32 w).isNan
  (if seen then flagSeen else 0) ||| (if (val32 out).isNan && !seen then flagNan else 0)
    ||| (if (val32 out).isInf && ins.all (fun w => (val32 w).isFin) then flagInf else 0)

/-- The flags of a fused multiply-add (R95): an infinity times zero forms a NaN inside the instruction. -/
def flagsFma (a b c out : Word) : BitVec 4 :=
  flags32 [a, b, c] out |||
    (if ((val32 a).mul (val32 b)).isNan && !(val32 a).isNan && !(val32 b).isNan then flagNan else 0)

/-- I32 wrapping of an exact integer with the wrap flag (R77, R95). -/
def wrap32 (i : Int) : Word × BitVec 4 :=
  let w := BitVec.ofInt 32 i
  (w, if w.toInt = i then 0 else flagWrap)

end Sys2Proof.Machine
end

