-- ==== Sys2Proof/Machine/Operands.lean ====
section
/-! DEFINITION. Instruction words (Tables 04-2 to 04-4): their fields, which words are legal (R75), the pails they name, the
operands of the vector forms, and how a core issues one instruction (R73, R92, R94). -/

namespace Sys2Proof.Machine

/-- The fields of a vector-form word (Table 04-2). -/
structure VWord where
  pd : Nat
  pa : Nat
  pb : Nat
  pc : Nat
  km : Nat
  mz : Bool
  bmode : Nat
  fmt : Nat
  rnd : Nat
  ax : Bool
  kd : Nat
  sb : Nat
  sel : Nat
  deriving DecidableEq, Repr

/-- Read a vector-form word (Table 04-2). -/
def vword (w : Nat) : VWord :=
  { pd := bits w 13 8, pa := bits w 19 14, pb := bits w 25 20, pc := bits w 31 26, km := bits w 34 32, mz := bit w 35
    bmode := bits w 37 36, fmt := bits w 40 38, rnd := bits w 42 41, ax := bit w 43, kd := bits w 46 44, sb := bits w 51 47
    sel := bits w 55 52 }

/-- The fields of a scalar-form word (Table 04-3). -/
structure SWord where
  sd : Nat
  sa : Nat
  sb : Nat
  immf : Bool
  cond : Nat
  imm : Int
  deriving DecidableEq, Repr

/-- Read a scalar-form word (Table 04-3): IMM32 is signed. -/
def sword (w : Nat) : SWord :=
  { sd := bits w 12 8, sa := bits w 17 13, sb := bits w 22 18, immf := bit w 23, cond := bits w 27 24
    imm := sInt 32 (bits w 63 32) }

/-- The opcode of a word. -/
def opcOf (w : Nat) : Nat := bits w 7 0

/-- The bits of each field (Tables 04-2, 04-3). -/
def mPD : Nat := 0x3F00
/-- PA. -/
def mPA : Nat := 0xFC000
/-- PB. -/
def mPB : Nat := 0x3F00000
/-- PC. -/
def mPC : Nat := 0xFC000000
/-- KM and MZ, used by every vector-form opcode (R75). -/
def mK : Nat := 0xF00000000
/-- BMODE. -/
def mBM : Nat := 0x3000000000
/-- FMT. -/
def mFMT : Nat := 0x1C000000000
/-- RND. -/
def mRND : Nat := 0x60000000000
/-- AX. -/
def mAX : Nat := 0x80000000000
/-- KD. -/
def mKD : Nat := 0x700000000000
/-- SB of the vector form. -/
def mSB : Nat := 0xF800000000000
/-- SEL. -/
def mSEL : Nat := 0xF0000000000000
/-- SD of the scalar form. -/
def sSD : Nat := 0x1F00
/-- SA of the scalar form. -/
def sSA : Nat := 0x3E000
/-- SB of the scalar form. -/
def sSB : Nat := 0x7C0000
/-- IMMF. -/
def sIF : Nat := 0x800000
/-- COND. -/
def sCD : Nat := 0xF000000
/-- IMM32. -/
def sIM : Nat := 0xFFFFFFFF00000000

/-- The fields that Table 04-4 lists for an opcode, as a mask of bits; none where the opcode is not listed. -/
def usedMask (opc : Nat) : Option Nat :=
  match opc with
  | 0x00 => some 0
  | 0x01 | 0x02 | 0x03 | 0x04 | 0x05 | 0x06 | 0x07 | 0x08 | 0x09 => some (sSD + sSA + sSB + sIF + sIM)
  | 0x0A | 0x0B => some (sSD + sIM)
  | 0x0C => some (sSA + sSB + sCD + sIM)
  | 0x0E => some (sSD + sSA + sIM)
  | 0x0F => some (sSB + sSA + sIM)
  | 0x10 => some (sSD + sIM)
  | 0x11 => some 0
  | 0x20 | 0x21 | 0x22 | 0x24 | 0x25 => some (mK + mPD + mPA + mPB + mBM + mSB + mFMT)
  | 0x23 => some (mK + mPD + mPA + mPB + mBM + mSB + mFMT + mPC)
  | 0x26 | 0x27 => some (mK + mPD + mPA + mFMT)
  | 0x28 => some (mK + mPD + mPA + mSB)
  | 0x29 => some (mK + mKD + mPA + mPB + mBM + mSB + mFMT + mSEL)
  | 0x2A => some (mK + mPD + mPA + mPB + mBM + mSB + 0x70000000000000)
  | 0x2B => some (mK + mPD + mPA + mFMT + mRND + mSB)
  | 0x2C => some (mK + mPD + mPA)
  | 0x2D => some (mK + mPD + mSB)
  | 0x40 | 0x41 | 0x42 | 0x43 => some (mK + mPD + mPA + mAX + mFMT)
  | 0x44 => some (mK + mPD + mPA)
  | 0x60 | 0x61 => some (mK + mPD + mPA + mSEL)
  | 0x80 => some (mK + mPD + mPA + mPB + mPC + mFMT + mSEL)
  | 0xA0 => some (mK + mPD + mSB)
  | 0xA1 => some (mK + mPA + mSB)
  | 0xA2 => some (mK + mPD + mSB + mFMT)
  | 0xA3 => some (mK + mPA + mSB + mFMT + mRND)
  | 0xC0 => some sSA
  | 0xC1 => some sSD
  | 0xC2 => some (sSD + sSB)
  | 0xC3 | 0xC4 => some (sSA + sSB)
  | 0xC5 => some 0
  | _ => none

/-- The format, rounding, selector and register limits of an opcode's row (R75, Table 04-4). -/
def valuesOk (opc w : Nat) : Bool :=
  let v := vword w
  let x := sword w
  match opc with
  | 0x0C => decide (x.cond ≤ 5 ∨ x.cond = 15)
  | 0x10 => decide (0 ≤ x.imm ∧ x.imm ≤ 5)
  | 0x20 | 0x21 | 0x22 | 0x24 | 0x25 | 0x26 | 0x27 => decide (v.fmt = 0 ∨ v.fmt = 4)
  | 0x23 => decide (v.fmt = 0)
  | 0x29 => decide ((v.fmt = 0 ∨ v.fmt = 4) ∧ v.kd ≠ 0 ∧ v.sel ≤ 7)
  | 0x2B => decide (v.fmt ≤ 4 ∧ v.rnd ≤ 2 ∧ (v.rnd = 2 → v.sb ≤ 30))
  | 0x40 => decide (v.fmt = 0 ∨ v.fmt = 4) && !v.mz
  | 0x41 | 0x42 | 0x43 => decide (v.fmt = 0) && !v.mz
  | 0x60 | 0x61 => decide (v.sel ≤ 13)
  | 0x80 => decide (v.sel < 8 ∧ ((v.fmt = 1 ∧ v.sel = 1) ∨ ((v.fmt = 2 ∨ v.fmt = 3) ∧ (v.sel = 2 ∨ v.sel = 3))
      ∨ (v.fmt = 5 ∧ v.sel = 5)))
  | 0xA0 => decide (v.sb ≤ 30)
  | 0xA1 => decide (v.sb ≤ 30) && !v.mz
  | 0xA2 => decide (v.sb ≤ 30 ∧ (v.fmt = 1 ∨ v.fmt = 2 ∨ v.fmt = 3 ∨ v.fmt = 5))
  | 0xA3 => decide (v.sb ≤ 30 ∧ (v.fmt = 1 ∨ v.fmt = 2 ∨ v.fmt = 3 ∨ v.fmt = 5) ∧ v.rnd ≤ 2) && !v.mz
  | 0xC0 => decide (x.sa ≠ 0 ∧ x.sa % 4 = 0)
  | 0xC1 | 0xC2 => decide (x.sd ≠ 0 ∧ x.sd % 2 = 0)
  | _ => true

/-- Whether an instruction word is legal (R75): listed opcode, no bit set outside the fields of its row, permitted values. -/
def legalWord (w : Nat) : Bool :=
  match usedMask (opcOf w) with
  | none => false
  | some m => decide (w &&& (m + 0xFF) = w) && valuesOk (opcOf w) w

/-- The pail fields an instruction names; PB names no pail when BMODE is 3 (R92). -/
def pailsOf (w : Nat) : List Nat :=
  let v := vword w
  match opcOf w with
  | 0x20 | 0x21 | 0x22 | 0x24 | 0x25 | 0x2A => if v.bmode = 3 then [v.pd, v.pa] else [v.pd, v.pa, v.pb]
  | 0x23 => if v.bmode = 3 then [v.pd, v.pa, v.pc] else [v.pd, v.pa, v.pb, v.pc]
  | 0x29 => if v.bmode = 3 then [v.pa] else [v.pa, v.pb]
  | 0x26 | 0x27 | 0x28 | 0x2B | 0x2C | 0x40 | 0x41 | 0x42 | 0x43 | 0x44 | 0x60 | 0x61 => [v.pd, v.pa]
  | 0x2D | 0xA0 | 0xA2 => [v.pd]
  | 0x80 => [v.pd, v.pa, v.pb, v.pc]
  | 0xA1 | 0xA3 => [v.pa]
  | _ => []

/-- Whether a byte range of a core store lies in a context's range (R92). -/
def Ctx.inStore (x : Ctx) (a n : Nat) : Bool := decide (x.sbase ≤ a ∧ a + n ≤ x.slimit)

/-- A breakpoint of the context stands at its PC (R409). -/
def CoreFile.atBp (f : CoreFile) : Bool := f.bps.any fun b => decide (b.2 = f.pc)

/-- Whether a core issues for context c now (R93, R94, R409): its program runs, no fault or halt stopped it, it waits for
nothing, and no breakpoint stands before the instruction. -/
def State.canIssue (s : State) (core c : Nat) : Bool :=
  let f := s.file core c
  s.coreEnabled core && s.shareOver (core / 1024) && f.running && !f.faulted && (!f.halted || f.stepOne) && f.waiting.isNone
    && (!f.atBp || f.bpPass || f.stepOne)

/-- What follows an issued instruction: a pass over a breakpoint is used up, and a STEP halts the core again, its result
traced (R409, R412), unless the instruction left it waiting. -/
def State.afterIssue (s : State) (core c : Nat) : State :=
  let f := s.file core c
  if f.stepOne && f.waiting.isNone then
    (s.setFile core c { f with stepOne := false, halted := true, bpPass := false }).traced 5 0 (coreUnit core) 0 0 f.pc
  else s.setFile core c { f with bpPass := false }

/-- Issue the instruction at a core's PC (R73, R92, R94, R390). `ops` are the opcodes of the command's row: a word of another
opcode is not what this command issues. `body` is the instruction's effect, PC included; `word` names the word its data come
from, for R386. -/
def State.issue (s : State) (i : Issue) (ops : List Nat) (word : Nat → CoreFile → Nat → Nat)
    (body : State → Nat → Nat → Nat → State) : State :=
  let core := i.core.toNat
  match s.runningCtx with
  | none => s
  | some c =>
    if !s.canIssue core c then s else
    let f := s.file core c
    let x := s.ctx c
    if ¬ (f.pc % 8 = 0 ∧ x.inStore f.pc 8 = true) then s.coreFault core c 3 else
    let w := leNat (s.storeBytes core f.pc 8)
    if !legalWord w then s.coreFault core c 1
    else if !ops.contains (opcOf w) then s
    else if (pailsOf w).any fun p => decide (x.pcount ≤ p) then s.coreFault core c 2
    else if i.replays = 3 then
      ((s.replayed 2 (16 + core / 1024) true).coreEvent core (word c f w)).coreFault core c 4
    else (body (s.replayed i.replays.toNat (16 + core / 1024) false) core c w).afterIssue core c

/-- Whether a core stands before a legal word of an opcode and what the word waits for holds, so that it does not issue yet (R36, R85): the
core's state is as it was, a step under way goes on waiting (R409). -/
def State.stalls (s : State) (i : Issue) (op : Nat) (waits : State → Nat → Bool) : Bool :=
  let core := i.core.toNat
  match s.runningCtx with
  | none => false
  | some c =>
    let f := s.file core c
    let w := leNat (s.storeBytes core f.pc 8)
    s.canIssue core c && decide (f.pc % 8 = 0) && (s.ctx c).inStore f.pc 8 && legalWord w && decide (opcOf w = op)
      && waits s (coreRegion core)

/-- The second operand of a scalar instruction: IMM32 sign-extended or s[SB] (Table 04-3). -/
def CoreFile.second (f : CoreFile) (x : SWord) : Dword := if x.immf then BitVec.ofInt 64 x.imm else f.reg x.sb

/-- Write the context file of a core with its PC moved to the next instruction. -/
def State.nextPc (s : State) (core c : Nat) (f : CoreFile) : State := s.setFile core c { f with pc := f.pc + 8 }

/-- The physical pail of a pail field (R92). -/
def Ctx.pailOf (x : Ctx) (p : Nat) : Nat := x.pbase + p

/-- Operand B of element i (Table 04-2, BMODE). -/
def State.operandB (s : State) (core c : Nat) (v : VWord) (i : Nat) : Word :=
  let p := (s.ctx c).pailOf v.pb
  if v.bmode = 0 then s.pail core p i
  else if v.bmode = 1 then s.pail core p (i % 16)
  else if v.bmode = 2 then s.pail core p (i / 16 * 16)
  else ((s.file core c).reg v.sb).setWidth 32

/-- The unmasked element indexes of an instruction (R74). -/
def CoreFile.live (f : CoreFile) (km : Nat) : List Nat := (List.range 256).filter fun i => (f.mask km).getLsbD i

/-- Write a pail under a mask (R74): the results given, in rising index; masked elements keep their value or become zero. -/
def State.writePail (s : State) (core pail : Nat) (mask : BitVec 256) (mz : Bool) (res : List (Nat × Word)) : State :=
  let s := if mz then (List.range 256).foldl (fun s i => if mask.getLsbD i then s else s.setPail core pail i 0) s else s
  res.foldl (fun s r => s.setPail core pail r.1 r.2) s

/-- An elementwise instruction (R74, R77, R95): `op` gives the result and the flags of element i from the state before; the
flags of unmasked elements stick. -/
def State.elementwise (s : State) (core c : Nat) (v : VWord) (op : Nat → Word × BitVec 4) : State :=
  let f := s.file core c
  let res := (f.live v.km).map fun i => (i, op i)
  let fl := res.foldl (fun a r => a ||| r.2.2) f.flags
  let s := s.writePail core ((s.ctx c).pailOf v.pd) (f.mask v.km) v.mz (res.map fun r => (r.1, r.2.1))
  s.nextPc core c { f with flags := fl }

/-- The address in the pails that names an instruction's data for R386. -/
def pailWord (_c : Nat) (_f : CoreFile) (w : Nat) : Nat := 2 ^ 18 + (vword w).pa * 512

/-- Element e's word of the generator for an instruction (R78, R103). -/
def State.coreDraw (s : State) (core c sb i : Nat) : Nat :=
  let f := s.file core c
  let x := s.ctx c
  let hi := (f.reg (sb + 1)).toNat
  drawU x.seed x.step (bits hi 55 24) (bits hi 63 56) ((f.reg sb).toNat + i)

end Sys2Proof.Machine
end

