-- ==== Sys2Proof/Machine/TableUnit.lean ====
section
/-! DEFINITION. The table unit (R81, R82, Table 04-5): an enclosure of the exact value of each function, the bound that the table
puts on the error of a result, and the special inputs. The coefficient tables themselves are free values (log entry 2). -/

namespace Sys2Proof.Machine

/-- An interval of real numbers with ends in units of 2^-256. -/
structure Iv where
  lo : Int
  hi : Int
  deriving DecidableEq, Repr

/-- The unit's reciprocal. -/
def ivOne : Nat := 2 ^ 256

/-- ⌊a / b⌋ for b > 0. -/
def divDown (a : Int) (b : Nat) : Int := a / (b : Int)
/-- ⌈a / b⌉ for b > 0. -/
def divUp (a : Int) (b : Nat) : Int := -((-a) / (b : Int))

/-- The interval of the rational n / d. -/
def Iv.ofQ (n : Int) (d : Nat) : Iv := ⟨divDown (n * ivOne) d, divUp (n * ivOne) d⟩
/-- The interval of a finite value. -/
def Iv.ofVal : FVal → Iv
  | .fin a m e => let q := scaleBy m 1 (-e); Iv.ofQ (if a then -(q.1 : Int) else q.1) q.2
  | _ => ⟨0, 0⟩
/-- Sum. -/
def Iv.add (x y : Iv) : Iv := ⟨x.lo + y.lo, x.hi + y.hi⟩
/-- Opposite. -/
def Iv.neg (x : Iv) : Iv := ⟨-x.hi, -x.lo⟩
/-- Difference. -/
def Iv.sub (x y : Iv) : Iv := x.add y.neg
/-- The least of four integers. -/
def min4 (a b c d : Int) : Int := min (min a b) (min c d)
/-- The greatest of four integers. -/
def max4 (a b c d : Int) : Int := max (max a b) (max c d)
/-- Product. -/
def Iv.mul (x y : Iv) : Iv :=
  ⟨divDown (min4 (x.lo * y.lo) (x.lo * y.hi) (x.hi * y.lo) (x.hi * y.hi)) ivOne,
    divUp (max4 (x.lo * y.lo) (x.lo * y.hi) (x.hi * y.lo) (x.hi * y.hi)) ivOne⟩
/-- The reciprocal of an interval of positive numbers. -/
def Iv.inv (x : Iv) : Iv := ⟨divDown ((ivOne : Int) * ivOne) x.hi.toNat, divUp ((ivOne : Int) * ivOne) x.lo.toNat⟩
/-- Quotient by an interval of positive numbers. -/
def Iv.div (x y : Iv) : Iv := x.mul y.inv
/-- Product with an integer. -/
def Iv.times (x : Iv) (k : Int) : Iv := if 0 ≤ k then ⟨x.lo * k, x.hi * k⟩ else ⟨x.hi * k, x.lo * k⟩
/-- Quotient by a positive number. -/
def Iv.share (x : Iv) (k : Nat) : Iv := ⟨divDown x.lo k, divUp x.hi k⟩
/-- The square root of an interval of numbers that are not negative. -/
def Iv.sqrt (x : Iv) : Iv := ⟨(Nat.sqrt (x.lo.toNat * ivOne) : Nat), (Nat.sqrt (x.hi.toNat * ivOne) + 1 : Nat)⟩
/-- The interval of an integer. -/
def Iv.int (k : Int) : Iv := ⟨k * ivOne, k * ivOne⟩
/-- An interval around, wider by n units on both sides. -/
def Iv.wide (x : Iv) (n : Nat) : Iv := ⟨x.lo - n, x.hi + n⟩

/-- Σ t_k / w k over n terms from k on, where t_(k+1) = t_k z / r k: the series below, term by term. -/
def series (z : Iv) (r w : Nat → Nat) : Nat → Nat → Iv → Iv
  | 0, _, _ => ⟨0, 0⟩
  | n + 1, k, t => (t.share (w k)).add (series z r w n (k + 1) ((t.mul z).share (r k)))

/-- The sum of n terms from the term 1 on. -/
def seriesOf (z : Iv) (r w : Nat → Nat) (n : Nat) : Iv := series z r w n 0 (Iv.int 1)

/-- e^z for 0 ≤ z ≤ 2^-3, where 60 terms leave less than one unit. -/
def expSmall (z : Iv) : Iv := (seriesOf z (· + 1) (fun _ => 1) 60).wide 2

/-- x^(2^n). -/
def squares : Nat → Iv → Iv
  | 0, x => x
  | n + 1, x => squares n (x.mul x)

/-- e^z for 0 ≤ z ≤ 256. -/
def expPos (z : Iv) : Iv := squares 11 (expSmall (z.share 2048))

/-- e^z, z within ±256. -/
def expIv (z : Iv) : Iv := if 0 ≤ z.lo then expPos z else (expPos z.neg).inv

/-- e^-z for z ≥ 0: above 256 between 0 and 2^-256. -/
def expNeg (z : Iv) : Iv := if (Iv.int 256).lo < z.lo then ⟨0, 1⟩ else (expPos z).inv

/-- artanh z for |z| ≤ 1/3, where 90 terms leave less than one unit. -/
def artanh (z : Iv) : Iv := (z.mul (seriesOf (z.mul z) (fun _ => 1) (fun k => 2 * k + 1) 90)).wide 4

/-- ln 2. -/
def ln2 : Iv := (artanh (Iv.ofQ 1 3)).times 2

/-- ln of the positive value m × 2^e. -/
def lnVal (m : Nat) (e : Int) : Iv :=
  let k := Nat.log2 m
  let z := Iv.ofQ ((m : Int) - 2 ^ k) (m + 2 ^ k)
  ((artanh z).times 2).add (ln2.times (e + k))

/-- ln (1 + t) for 0 ≤ t ≤ 1. -/
def ln1p (t : Iv) : Iv := (artanh (t.div (t.add (Iv.int 2)))).times 2

/-- arctan (1 / n) for n ≥ 5, by its alternating series. -/
def arctanInv (n : Nat) : Iv :=
  let z := Iv.ofQ (-1) (n * n)
  ((seriesOf z (fun _ => 1) (fun k => 2 * k + 1) 90).share n).wide 4

/-- π, by Machin's formula. -/
def piIv : Iv := ((arctanInv 5).times 16).sub ((arctanInv 239).times 4)

/-- sin z for |z| ≤ 7. -/
def sinIv (z : Iv) : Iv := (z.mul (seriesOf (z.mul z).neg (fun k => (2 * k + 2) * (2 * k + 3)) (fun _ => 1) 70)).wide 8
/-- cos z for |z| ≤ 7. -/
def cosIv (z : Iv) : Iv := (seriesOf (z.mul z).neg (fun k => (2 * k + 1) * (2 * k + 2)) (fun _ => 1) 70).wide 8

/-- Φ(x) for |x| ≤ 12: ½ + x / √(2π) Σ (-x² / 2)^k / (k! (2k + 1)), where 480 terms leave less than one unit. -/
def phiCum (x : Iv) : Iv :=
  let h := ((x.mul x).share 2).neg
  ((Iv.int 1).share 2).add ((x.mul (seriesOf h (· + 1) (fun k => 2 * k + 1) 480)).div (piIv.times 2).sqrt) |>.wide 16

/-- 2^-100, what is left of the tails that the enclosures cut. -/
def tail : Nat := 2 ^ 156

/-- sigmoid of z. -/
def sigm (z : Iv) : Iv :=
  if 0 ≤ z.lo then ((expNeg z).add (Iv.int 1)).inv else
  let t := expNeg z.neg
  t.div (t.add (Iv.int 1))

/-- sigmoid's derivative s (1 - s). -/
def sigmD (z : Iv) : Iv := let s := sigm z; s.mul ((Iv.int 1).sub s)

/-- √(2/π) (x + 0.044715 x³). -/
def geluArg (x : Iv) : Iv :=
  ((Iv.int 2).div piIv).sqrt.mul (x.add ((Iv.ofQ 44715 1000000).mul (x.mul (x.mul x))))

/-- Its derivative √(2/π) (1 + 3 × 0.044715 x²). -/
def geluArgD (x : Iv) : Iv :=
  ((Iv.int 2).div piIv).sqrt.mul ((Iv.int 1).add ((Iv.ofQ 134145 1000000).mul (x.mul x)))

/-- The reduction of a finite value modulo 2, exact (R82). -/
def mod2 : FVal → Iv
  | .fin a m e =>
    let q := scaleBy m 1 (-e)
    let r := q.1 % (2 * q.2)
    Iv.ofQ (if a then -(r : Int) else r) q.2
  | _ => ⟨0, 0⟩

/-- Whether |x| > n. -/
def beyond (x : FVal) (n : Nat) : Bool := (FVal.fin false n 0).lt x || x.lt (.fin true n 0)

/-- For |x| above the range in which a function differs from its asymptote by more than 2^-100: 0 below and `up` above. -/
def asymptote (x : FVal) (up : Iv) : Iv := if x.lt (.fin false 0 0) then ⟨-(tail : Int), tail⟩ else up.wide tail

/-- An enclosure of the exact function of Table 04-5 at a finite input, none where it has no finite value. -/
def exactFunc (sel : Nat) (x : FVal) : Option Iv :=
  let v := Iv.ofVal x
  let pos := v.lo > 0
  match sel, x with
  | 0, _ => if beyond x 256 then none else some (expIv v)
  | 1, _ => if beyond x 256 then none else some (expIv (v.mul ln2))
  | 2, .fin _ m e => if pos then some (lnVal m e) else none
  | 3, _ => if pos then some v.inv else if v.hi < 0 then some v.neg.inv.neg else none
  | 4, _ => if pos then some v.sqrt.inv else none
  | 5, _ => if pos then some v.sqrt else none
  | 6, _ => some (sigm v)
  | 7, _ => some (((sigm (v.times 2)).times 2).sub (Iv.int 1))
  | 8, _ => some (if beyond x 12 then asymptote x v else v.mul (phiCum v))
  | 9, _ => some (if beyond x 128 then asymptote x v else v.mul (sigm v))
  | 10, _ => some (if beyond x 128 then asymptote x v
      else if 0 ≤ v.lo then v.add (ln1p (expNeg v)) else ln1p (expNeg v.neg))
  | 11, _ => some (if beyond x 12 then asymptote x v else v.mul (sigm ((geluArg v).times 2)))
  | 12, _ => some (sinIv (piIv.mul (mod2 x)) )
  | 13, _ => some (cosIv (piIv.mul (mod2 x)))
  | _, _ => none

/-- An enclosure of what DERIV gives exactly at a finite input (Table 04-5). -/
def exactDeriv (sel : Nat) (x : FVal) : Option Iv :=
  let v := Iv.ofVal x
  let pos := v.lo > 0
  match sel with
  | 0 => exactFunc 0 x
  | 1 => (exactFunc 1 x).map fun y => y.mul ln2
  | 2 => exactFunc 3 x
  | 3 => (exactFunc 3 x).map fun y => (y.mul y).neg
  | 4 => if pos then some ((v.sqrt.inv.mul v.inv).share 2).neg else none
  | 5 => if pos then some (v.sqrt.inv.share 2) else none
  | 6 => some (sigmD v)
  | 7 => some ((sigmD (v.times 2)).times 4)
  | 8 => some (if beyond x 12 then asymptote x (Iv.int 1)
      else (phiCum v).add (v.mul ((expNeg ((v.mul v).share 2)).div (piIv.times 2).sqrt)))
  | 9 => some (if beyond x 128 then asymptote x (Iv.int 1) else (sigm v).add (v.mul (sigmD v)))
  | 10 => some (sigm v)
  | 11 => some (if beyond x 12 then asymptote x (Iv.int 1)
      else
        let u := (geluArg v).times 2
        (sigm u).add ((v.mul (sigmD u)).mul ((geluArgD v).times 2)))
  | 12 => (exactFunc 13 x).map piIv.mul
  | 13 => (exactFunc 12 x).map fun y => (piIv.mul y).neg
  | _ => none

/-- The bound on an error (Table 04-5): units in the last place, and the k of an absolute 2^-k, 256 where there is none. -/
def tableBound (der : Bool) (sel : Nat) : Nat × Nat :=
  match sel with
  | 0 => (2, 256)
  | 1 => (if der then 3 else 2, 256)
  | 2 => if der then (1, 256) else (2, 24)
  | 3 | 4 | 5 => (if der then 2 else 1, 256)
  | 12 | 13 => (0, if der then 21 else 23)
  | _ => if der then (8, 21) else (4, 22)

/-- The unit in the last place of FP32 at a magnitude, in units of 2^-256; of a subnormal it is 2^-149. -/
def ulp32 (m : Nat) : Nat := 2 ^ (Nat.max (Nat.log2 m) 130 - 23)

/-- The greatest distance of a result from the exact value (R81). -/
def tableTol (der : Bool) (sel : Nat) (y : Iv) : Nat :=
  let b := tableBound der sel
  Nat.max (b.1 * ulp32 (Nat.max y.lo.natAbs y.hi.natAbs)) (2 ^ (256 - b.2))

/-- Whether a word is a finite value within a distance of an interval. -/
def nearIv (y : Iv) (tol : Nat) (w : Word) : Bool :=
  (val32 w).isFin && let r := Iv.ofVal (val32 w); decide (y.lo - tol ≤ r.lo ∧ r.hi ≤ y.hi + tol)

/-- The word nearest to the middle of an interval. -/
def midWord (y : Iv) : Word := BitVec.ofNat 32 (fp32.ofDy (y.lo + y.hi) (-257) false)

/-- The least magnitude, in units of 2^-256, that rounds to infinity in FP32. -/
def overAt : Nat := (2 ^ 25 - 1) * 2 ^ (103 + 256)

/-- A result of the coefficient tables held to the bound of R81: a free value within it of the exact one, or any value where the exact
one is not finite in FP32. -/
def boundedTo (der : Bool) (sel : Nat) (y : Option Iv) (free : Word) : Word :=
  match y with
  | none => free
  | some y =>
    if overAt ≤ Nat.max y.lo.natAbs y.hi.natAbs then free
    else if nearIv y (tableTol der sel y) free then free else midWord y

/-- Overflow and underflow of the exponentials (R82): +Inf where the exact result overflows, +0.0 below 2^-150. -/
def expEnds (x : FVal) (y : Option Iv) : Option Word :=
  match y with
  | none => some (if x.lt (.fin false 0 0) then 0 else 0x7F800000)
  | some y =>
    if (overAt : Int) ≤ y.hi then some 0x7F800000 else if y.hi < (2 ^ 106 : Nat) then some 0 else none

/-- Whether a finite value is at least 2^23 in magnitude, and so an integer (R82). -/
def wholeBig (x : FVal) : Bool := !(x.lt (.fin false 1 23)) || !((FVal.fin true 1 23).lt x)

/-- The special results of FUNC and DERIV (R82); none where the coefficient tables decide. `der` is DERIV. The readings are
those of log entry 15; the sign of the limit 0 of GELU and SiLU at -Inf, which the manual does not state, is + by the model's choice (log entry 15). -/
def funcSpecial (der : Bool) (sel : Nat) (a : Word) : Option Word :=
  let x := val32 a
  let neg := a.getLsbD 31
  let zero := decide (a &&& 0x7FFFFFFF = 0)
  let pinf : Word := 0x7F800000
  let ninf : Word := 0xFF800000
  if x.isNan then some nan32 else
  match sel with
  | 0 | 1 =>
    if x.isInf then some (if neg then 0 else pinf) else expEnds x (if der then exactDeriv sel x else exactFunc sel x)
  | 2 => if zero then some ninf else if neg then some nan32 else none
  | 3 => if zero then some (if neg then ninf else pinf) else if x.isInf then some (if neg then 0x80000000 else 0) else none
  | 4 => if zero then (if neg then none else some pinf) else if neg then some nan32 else none
  | 5 => if zero then some (if neg then 0x80000000 else 0) else if neg then some nan32 else none
  | 6 => if x.isInf then some (if der then 0 else if neg then 0 else 0x3F800000) else none
  | 7 => if x.isInf then some (if der then 0 else if neg then 0xBF800000 else 0x3F800000) else none
  | 8 | 9 | 11 => if x.isInf then some (if der then 0 else if neg then 0 else pinf) else none
  | 10 => if x.isInf then some (if der then (if neg then 0 else 0x3F800000) else if neg then 0 else pinf) else none
  | 12 => if x.isInf then some nan32 else if !der && wholeBig x then some 0 else none
  | _ => if x.isInf then some nan32
         else if !der && wholeBig x then
           some (match x with
             | .fin _ m e => if e = 0 ∧ m % 2 = 1 then 0xBF800000 else 0x3F800000
             | _ => 0x3F800000)
         else none

/-- The result of FUNC or DERIV: a special result of R82, else the coefficient tables' (a free value, log entry 2) within the bound of
R81. -/
def funcOne (der : Bool) (sel : Nat) (a : Word) : Word :=
  (funcSpecial der sel a).getD (if der then boundedTo true sel (exactDeriv sel (val32 a)) (Config.derivTable sel a)
    else boundedTo false sel (exactFunc sel (val32 a)) (Config.funcTable sel a))

end Sys2Proof.Machine
end

