-- ==== Sys2Proof/Machine/CoreVector.lean ====
section
/-! DEFINITION. The vector, table and tile instructions of a core (Table 04-4, opcodes 0x20 to 0x80). -/

namespace Sys2Proof.Machine

/-- An elementwise operation on A and B, by format: FP32 or wrapping I32 (R77). -/
def binOp (f32 : Word → Word → Word) (i32 : Int → Int → Int) (s : State) (core c w : Nat) : State :=
  let v := vword w
  let pa := (s.ctx c).pailOf v.pa
  s.elementwise core c v fun i =>
    let a := s.pail core pa i
    let b := s.operandB core c v i
    if v.fmt = 4 then wrap32 (i32 a.toInt b.toInt)
    else (f32 a b, flags32 [a, b] (f32 a b))

/-- An elementwise operation on A (R77). -/
def unOp (op : VWord → Word → Word × BitVec 4) (s : State) (core c w : Nat) : State :=
  let v := vword w
  let pa := (s.ctx c).pailOf v.pa
  s.elementwise core c v fun i => op v (s.pail core pa i)

/-- VADD (R76, R77). -/
def execVadd (i : Issue) (s : State) : Host.Outcome State Fault Refusal :=
  .next (s.issue i [0x20] pailWord (binOp add32 fun a b => a + b))

/-- VSUB (R76, R77). -/
def execVsub (i : Issue) (s : State) : Host.Outcome State Fault Refusal :=
  .next (s.issue i [0x21] pailWord (binOp sub32 fun a b => a - b))

/-- VMUL (R76, R77): I32 keeps the low 32 bits. -/
def execVmul (i : Issue) (s : State) : Host.Outcome State Fault Refusal :=
  .next (s.issue i [0x22] pailWord (binOp mul32 fun a b => a * b))

/-- VFMA (R76, R77): A × B + C, one rounding. -/
def execVfma (i : Issue) (s : State) : Host.Outcome State Fault Refusal :=
  .next (s.issue i [0x23] pailWord fun s core c w =>
    let v := vword w
    let pa := (s.ctx c).pailOf v.pa
    let pc := (s.ctx c).pailOf v.pc
    s.elementwise core c v fun i =>
      let a := s.pail core pa i
      let b := s.operandB core c v i
      let d := s.pail core pc i
      (fma32 a b d, flagsFma a b d (fma32 a b d)))

/-- VMAX (R76, R77). -/
def execVmax (i : Issue) (s : State) : Host.Outcome State Fault Refusal :=
  .next (s.issue i [0x24] pailWord (binOp max32 fun a b => max a b))

/-- VMIN (R76, R77). -/
def execVmin (i : Issue) (s : State) : Host.Outcome State Fault Refusal :=
  .next (s.issue i [0x25] pailWord (binOp min32 fun a b => min a b))

/-- The FP32 word with another sign; a NaN becomes the canonical one (R77). -/
def signed32 (neg : Bool) (a : Word) : Word :=
  if (val32 a).isNan then nan32 else if neg then a ||| 0x80000000 else a &&& 0x7FFFFFFF

/-- VABS (R76, R77). -/
def execVabs (i : Issue) (s : State) : Host.Outcome State Fault Refusal :=
  .next (s.issue i [0x26] pailWord (unOp fun v a =>
    if v.fmt = 4 then wrap32 (a.toInt.natAbs : Int) else (signed32 false a, flags32 [a] (signed32 false a))))

/-- VNEG (R76, R77). -/
def execVneg (i : Issue) (s : State) : Host.Outcome State Fault Refusal :=
  .next (s.issue i [0x27] pailWord (unOp fun v a =>
    if v.fmt = 4 then wrap32 (-a.toInt) else (signed32 (!a.getLsbD 31) a, flags32 [a] (signed32 (!a.getLsbD 31) a))))

/-- VSCALE2 (R76, R77): A × 2^n, n the signed bits [15:0] of s[SB], one rounding. -/
def execVscale2 (i : Issue) (s : State) : Host.Outcome State Fault Refusal :=
  .next (s.issue i [0x28] pailWord fun s core c w =>
    let n := sInt 16 ((s.file core c).reg (vword w).sb).toNat
    unOp (fun _ a => (scale32 a n, flags32 [a] (scale32 a n))) s core c w)

/-- A comparison condition (Table 04-4, R77). -/
def vcmpBit (fmt sel : Nat) (a b : Word) : Bool :=
  if fmt = 4 then
    match sel with
    | 0 => decide (a = b)
    | 1 => decide (a ≠ b)
    | 2 => decide (a.toInt < b.toInt)
    | 3 => decide (a.toInt ≤ b.toInt)
    | 4 => decide (b.toInt < a.toInt)
    | 5 => decide (b.toInt ≤ a.toInt)
    | _ => false
  else
    let x := val32 a
    let y := val32 b
    match sel with
    | 0 => x.eq y
    | 1 => !x.eq y
    | 2 => x.lt y
    | 3 => x.lt y || x.eq y
    | 4 => y.lt x
    | 5 => y.lt x || x.eq y
    | 6 => x.isNan || y.isNan
    | _ => x.isInf

/-- A mask register after unmasked bits are written (R74). -/
def maskWrite (old km : BitVec 256) (mz : Bool) (new : Nat → Bool) : BitVec 256 :=
  (List.range 256).foldl (fun (m : BitVec 256) i =>
    if (if km.getLsbD i then new i else !mz && old.getLsbD i) then m ||| (1 <<< i) else m) 0

/-- VCMP (R76, R77): the bits of k[KD]; a NaN operand that the condition examines is seen (R95). -/
def execVcmp (i : Issue) (s : State) : Host.Outcome State Fault Refusal :=
  .next (s.issue i [0x29] pailWord fun s core c w =>
    let v := vword w
    let f := s.file core c
    let pa := (s.ctx c).pailOf v.pa
    let bitOf := fun i => vcmpBit v.fmt v.sel (s.pail core pa i) (s.operandB core c v i)
    let seen := decide (v.fmt = 0) && (f.live v.km).any fun i =>
      (val32 (s.pail core pa i)).isNan || (decide (v.sel ≠ 7) && (val32 (s.operandB core c v i)).isNan)
    let f := f.setMask v.kd (maskWrite (f.mask v.kd) (f.mask v.km) v.mz bitOf)
    s.nextPc core c (if seen then { f with flags := f.flags ||| flagSeen } else f))

/-- VSEL (R76): A where k[SEL] is 1, else B; a movement of data, which sets no flag (log entry 14). -/
def execVsel (i : Issue) (s : State) : Host.Outcome State Fault Refusal :=
  .next (s.issue i [0x2A] pailWord fun s core c w =>
    let v := vword w
    let m := (s.file core c).mask (v.sel % 8)
    let pa := (s.ctx c).pailOf v.pa
    s.elementwise core c v fun i => (if m.getLsbD i then s.pail core pa i else s.operandB core c v i, 0))

/-- One element of VCVT (R77, R101, Table 05-3). -/
def vcvtOne (fmt rnd u : Nat) (a : Word) : Word × BitVec 4 :=
  let x := val32 a
  if fmt = 0 then
    let q : Int := a.toInt
    let r := fp32.roundMag q.natAbs 1 rnd u
    (BitVec.ofNat 32 (fp32.signed (decide (q < 0)) r), 0)
  else if fmt = 4 then
    let r := narrowInt x rnd u (-2147483648) 2147483647
    (BitVec.ofInt 32 r.1, r.2)
  else
    let t := if fmt = 1 then bf16 else if fmt = 2 then e4m3 else e5m2
    let r := t.narrow x rnd u
    (t.widen r.1, r.2)

/-- VCVT (R76, R77, R78, R101). -/
def execVcvt (i : Issue) (s : State) : Host.Outcome State Fault Refusal :=
  .next (s.issue i [0x2B] pailWord fun s core c w =>
    let v := vword w
    let pa := (s.ctx c).pailOf v.pa
    s.elementwise core c v fun i =>
      vcvtOne v.fmt v.rnd (if v.rnd = 2 then s.coreDraw core c v.sb i else 0) (s.pail core pa i))

/-- VMOV (R76): PD = A, no flag (log entry 14). -/
def execVmov (i : Issue) (s : State) : Host.Outcome State Fault Refusal :=
  .next (s.issue i [0x2C] pailWord (unOp fun _ a => (a, 0)))

/-- VBCAST (R76): every element = s[SB][31:0], no flag (log entry 14). -/
def execVbcast (i : Issue) (s : State) : Host.Outcome State Fault Refusal :=
  .next (s.issue i [0x2D] noPail fun s core c w =>
    let v := vword w
    let b := ((s.file core c).reg v.sb).setWidth 32
    s.elementwise core c v fun _ => (b, 0))
where
  /-- A VBCAST reads no pail and no core store. -/
  noPail (_c : Nat) (_f : CoreFile) (_w : Nat) : Nat := 2 ^ 20

/-- One level of the reduction tree (R79) with the flags of its operations. -/
def treeLevel (op : Word → Word → Word × BitVec 4) : List (Word × BitVec 4) → List (Word × BitVec 4)
  | a :: b :: t => ((op a.1 b.1).1, a.2 ||| b.2 ||| (op a.1 b.1).2) :: treeLevel op t
  | l => l

/-- The reduction of 16 elements in the tree order of R79. -/
def reduce16 (op : Word → Word → Word × BitVec 4) (v : List (Word × BitVec 4)) : Word × BitVec 4 :=
  ((treeLevel op (treeLevel op (treeLevel op (treeLevel op v)))).head?).getD (0, 0)

/-- An FP32 operation inside a reduction: bit 3 refers to the instruction's own inputs only (R95). -/
def inner32 (op : Word → Word → Word) (a b : Word) : Word × BitVec 4 :=
  (op a b, flags32 [a, b] (op a b) &&& (flagNan ||| flagInf))

/-- A reduction instruction (R79): `start` prepares an element, `ident` stands for a masked one, every element of the line
receives the result. -/
def reduceOp (ident : VWord → Word) (start : VWord → Word → Word × BitVec 4)
    (op : VWord → Word → Word → Word × BitVec 4) (s : State) (core c w : Nat) : State :=
  let v := vword w
  let f := s.file core c
  let pa := (s.ctx c).pailOf v.pa
  let line := fun (l : Nat) => reduce16 (op v) ((List.range 16).map fun k =>
    let i := if v.ax then 16 * k + l else 16 * l + k
    if (f.mask v.km).getLsbD i then start v (s.pail core pa i) else (ident v, 0))
  let lines := (List.range 16).map line
  let fl := lines.foldl (fun a r => a ||| r.2) f.flags
  let pd := (s.ctx c).pailOf v.pd
  let s := (List.range 256).foldl (fun s i =>
    s.setPail core pd i ((lines.getD (if v.ax then i % 16 else i / 16) (0, 0)).1)) s
  s.nextPc core c { f with flags := fl }

/-- An unmasked element entering a reduction: a NaN is seen (R95). -/
def seenStart (_v : VWord) (a : Word) : Word × BitVec 4 := (a, if (val32 a).isNan then flagSeen else 0)

/-- RSUM (R79): FP32, or wrapping I32 with FMT 4. -/
def execRsum (i : Issue) (s : State) : Host.Outcome State Fault Refusal :=
  .next (s.issue i [0x40] pailWord (reduceOp (fun v => if v.fmt = 4 then 0 else 0x80000000)
    (fun v a => if v.fmt = 4 then (a, 0) else seenStart v a)
    fun v a b => if v.fmt = 4 then wrap32 (a.toInt + b.toInt) else inner32 add32 a b))

/-- RMAX (R79): the identity is -Inf. -/
def execRmax (i : Issue) (s : State) : Host.Outcome State Fault Refusal :=
  .next (s.issue i [0x41] pailWord (reduceOp (fun _ => 0xFF800000) seenStart fun _ => inner32 max32))

/-- RMIN (R79): the identity is +Inf. -/
def execRmin (i : Issue) (s : State) : Host.Outcome State Fault Refusal :=
  .next (s.issue i [0x42] pailWord (reduceOp (fun _ => 0x7F800000) seenStart fun _ => inner32 min32))

/-- RSUMSQ (R79): each element is first squared and rounded. -/
def execRsumsq (i : Issue) (s : State) : Host.Outcome State Fault Refusal :=
  .next (s.issue i [0x43] pailWord (reduceOp (fun _ => 0x80000000)
    (fun _ a => (mul32 a a, flags32 [a] (mul32 a a))) fun _ => inner32 add32))

/-- TRANS (R76): PD[r][c] = A[c][r], no flag (log entry 14). -/
def execTrans (i : Issue) (s : State) : Host.Outcome State Fault Refusal :=
  .next (s.issue i [0x44] pailWord fun s core c w =>
    let v := vword w
    let pa := (s.ctx c).pailOf v.pa
    s.elementwise core c v fun i => (s.pail core pa (16 * (i % 16) + i / 16), 0))

/-- FUNC (R81, R82). -/
def execFunc (i : Issue) (s : State) : Host.Outcome State Fault Refusal :=
  .next (s.issue i [0x60] pailWord (unOp fun v a => (funcOne false v.sel a, flags32 [a] (funcOne false v.sel a))))

/-- DERIV (R81, R82). -/
def execDeriv (i : Issue) (s : State) : Host.Outcome State Fault Refusal :=
  .next (s.issue i [0x61] pailWord (unOp fun v a => (funcOne true v.sel a, flags32 [a] (funcOne true v.sel a))))

/-- The value of a finite number at the fixed exponent -320, on which every product and addend of TMUL falls exactly. -/
def fixed320 : FVal → Int
  | .fin a m e => atExp a m e (-320)
  | _ => 0

/-- Whether a value is -0.0. -/
def FVal.negZero : FVal → Bool
  | .fin a m _ => a && decide (m = 0)
  | _ => false

/-- The exact sum of products and addend, rounded once (R80): its word, and whether infinities of both signs met. -/
def exactSum (vs : List FVal) : Word :=
  if vs.any FVal.isNan || (vs.any (fun v => v == .inf true) && vs.any (fun v => v == .inf false)) then nan32
  else if vs.any (fun v => v == .inf true) then 0xFF800000
  else if vs.any (fun v => v == .inf false) then 0x7F800000
  else BitVec.ofNat 32 (fp32.ofDy (vs.foldl (fun a v => a + fixed320 v) 0) (-320) (vs.all FVal.negZero))

/-- Byte b of a pail stored row-major. -/
def State.pailByte (s : State) (core pail b : Nat) : Byte := (s.pail core pail (b / 4)).extractLsb' (8 * (b % 4)) 8

/-- Half h of a pail stored row-major. -/
def State.pailHalf (s : State) (core pail h : Nat) : Nat := ((s.pail core pail (h / 2)).toNat / 2 ^ (16 * (h % 2))) % 2 ^ 16

/-- The FP8 format of a format code. -/
def fp8Of (fmt : Nat) : Fmt := if fmt = 2 then e4m3 else e5m2

/-- One element of TMUL (R80) with its flags (R95). -/
def State.tmulOne (s : State) (core pa pb : Nat) (v : VWord) (r n : Nat) (cw : Word) : Word × BitVec 4 :=
  if v.fmt = 5 then
    let sum := (List.range 64).foldl (fun (a : Int) k =>
      a + codeOf (s.pailByte core pa (64 * r + k)) * codeOf (s.pailByte core pb (64 * n + k))) cw.toInt
    wrap32 sum
  else
    let ab := if v.fmt = 1
      then (List.range 32).map fun k => (bf16.decode (s.pailHalf core pa (32 * r + k)), bf16.decode (s.pailHalf core pb (32 * n + k)))
      else (List.range 64).map fun k => ((fp8Of v.fmt).decode (s.pailByte core pa (64 * r + k)).toNat,
        (fp8Of v.sel).decode (s.pailByte core pb (64 * n + k)).toNat)
    let prods := ab.map fun x => x.1.mul x.2
    let cv := val32 cw
    let out := exactSum (prods ++ [cv])
    let seen := cv.isNan || ab.any fun x => x.1.isNan || x.2.isNan
    let made := ab.any fun x => (x.1.mul x.2).isNan && !x.1.isNan && !x.2.isNan
    let fin := cv.isFin && ab.all fun x => x.1.isFin && x.2.isFin
    (out, (if seen then flagSeen else 0) ||| (if made || (!seen && (val32 out).isNan) then flagNan else 0)
      ||| (if fin && (val32 out).isInf then flagInf else 0))

/-- TMUL (R80): PD = C + A · Bᵀ on packed narrow operands. -/
def execTmul (i : Issue) (s : State) : Host.Outcome State Fault Refusal :=
  .next (s.issue i [0x80] pailWord fun s core c w =>
    let v := vword w
    let x := s.ctx c
    s.elementwise core c v fun i =>
      s.tmulOne core (x.pailOf v.pa) (x.pailOf v.pb) v (i / 16) (i % 16) (s.pail core (x.pailOf v.pc) i))

end Sys2Proof.Machine
end

