-- ==== Sys2Proof/Machine/PowerOps.lean ====
section
/-! DEFINITION. The terms of the core clock (R342) and the launch and command fractions (R347), as the limiters leave them. -/

namespace Sys2Proof.Machine

/-- Whether compute, memory and optics are powered: READY, RUN and SERVICE (Table 15-6). -/
def State.powered (s : State) : Bool :=
  decide (s.ctl.mstate = .ready ∨ s.ctl.mstate = .run ∨ s.ctl.mstate = .service)

/-- The core clock of a level in MHz (Table 15-8). -/
def levelClock (l : Nat) : Nat := [1200, 1100, 1000, 900, 750, 600, 450, 300].getD l 300

/-- f_level: the clock of the level in effect. -/
def State.fLevel (s : State) : Nat := levelClock (s.odg 0x2001 0x05)

/-- f_therm of a thermal step in MHz (Table 16-4). -/
def stepClock (k : Nat) : Nat := [1200, 900, 600, 100].getD k 100

/-- f_therm of a compute die. -/
def State.fTherm (s : State) (n : Nat) : Nat := stepClock (s.odg 0x2004 0x05 n)

/-- The rails whose limiting lowers f_ilim of compute die n: VCORE, VSRAM and the input (Table 16-2). -/
def dieRails (n : Nat) : List Nat := [n, 4 + n, 26]

/-- Whether a current limit is in effect on a compute die. -/
def State.dieLimited (s : State) (n : Nat) : Bool := s.pow.limited.any fun e => (dieRails n).contains e.1

/-- f_ilim of a compute die (R341, R345): how far a current limit lowers it is a free value (log entry 20). -/
def State.fIlim (s : State) (n : Nat) : Nat :=
  (s.pow.limited.filter fun e => (dieRails n).contains e.1).foldl (fun f e => Nat.min f (100 + 25 * (e.2.1 % 45)))
    (Sparse.get (fun _ => 1200) s.pow.fIlim n)

/-- The least of the terms other than f_ramp. -/
def State.fOther (s : State) (n : Nat) : Nat :=
  Nat.min (Nat.min s.fLevel s.pow.fCap) (Nat.min (s.fTherm n) (s.fIlim n))

/-- f_ramp of a compute die. -/
def State.fRamp (s : State) (n : Nat) : Nat := Sparse.get (fun _ => 1200) s.pow.fRamp n

/-- The terms of R342, in the order of its list. -/
def State.fTerms (s : State) (n : Nat) : List Nat := [s.fLevel, s.pow.fCap, s.fTherm n, s.fIlim n, s.fRamp n]

/-- f_eff (R342): the least term, rounded down to 25 MHz and at least 100 MHz. -/
def State.fEff (s : State) (n : Nat) : Nat :=
  Nat.max 100 (Nat.min (s.fOther n) (s.fRamp n) / 25 * 25)

/-- The term that sets f_eff (OD 0x2003:02): a tie goes to the earlier term. -/
def State.fTerm (s : State) (n : Nat) : Nat :=
  ((s.fTerms n).findIdx? fun f => decide (f = Nat.min (s.fOther n) (s.fRamp n))).getD 0

/-- Write f_ramp of a compute die. -/
def State.setRamp (s : State) (n f : Nat) : State :=
  { s with pow := { s.pow with fRamp := Sparse.set (fun _ => 1200) s.pow.fRamp n f } }

/-- A reduction is not slowed (R343): f_ramp follows the other terms down. -/
def State.settleRamps (s : State) : State :=
  (List.range 4).foldl (fun s n => if s.fOther n < s.fRamp n then s.setRamp n (s.fOther n) else s) s

/-- Ballast stops on a die with a thermal step or a current limit (R343). -/
def State.settleBallast (s : State) : State :=
  { s with pow := { s.pow with ballast := s.pow.ballast.filter fun n => decide (s.odg 0x2004 0x05 n = 0) && !s.dieLimited n } }

/-- A level takes effect (R334). -/
def State.takeLevel (s : State) : State :=
  match s.ctl.levelDue with
  | some l =>
    let t : State := { s.odp 0x2001 0x05 0 l with ctl := { s.ctl with levelDue := none } }
    t.settleRamps
  | none => s

/-- The stages of Table 16-3 in effect (OD 0x2000:06). -/
def State.capStages (s : State) : Nat :=
  b2n (decide (s.pow.fCap < 1200)) + 2 * b2n (decide (s.pow.pace < 8)) + 4 * b2n (decide (s.pow.rate < 8))
    + 8 * b2n (decide (s.pow.fCap < 300))

/-- THROTTLED (R219, R125, R345): droop stretch, current limiting, a die's f_ilim below f_level, thermal throttling of a compute
die, a stack at step 1 or higher. -/
def State.throttled (s : State) : Bool :=
  decide (s.odg 0x2003 0x04 ≠ 0) || !s.pow.limited.isEmpty
    || (List.range 4).any (fun n => decide (s.odg 0x2004 0x05 n ≠ 0) || decide (s.fIlim n < s.fLevel))
    || (List.range 8).any fun k => decide (s.odg 0x2400 0x02 k ≠ 0)

end Sys2Proof.Machine
end

