-- ==== Sys2Proof/Machine/Ras.lean ====
section
/-! DEFINITION. Errors and spares of the stacks (chapter 06, R388): array addresses, ECC findings on a read, row repair, frame
and stack retirement; the commands of the stacks' own events. -/

namespace Sys2Proof.Machine

/-- Whether relock attempts of a photonic die may begin (R353): its slope at most 4 °C/ms for 100 µs, its temperature between
55 and 80 °C. -/
def State.relockReady (s : State) (die : Nat) : Bool :=
  let t := sInt 16 (s.odg 0x2004 0x02 die)
  let bad := Sparse.get (fun _ => 0) s.ctl.slopeBad die
  decide (880 ≤ t ∧ t ≤ 1280 ∧ (bad = 0 ∨ bad + 100000 ≤ s.ctl.clock + 1))

/-- Set a held bit of the service request, OD 0x3001:08 (Table 19-8). -/
def State.request (s : State) (n : Nat) : State :=
  if bit (s.odg 0x3001 0x08) n then s else s.odp 0x3001 0x08 0 (s.odg 0x3001 0x08 + 2 ^ n)

/-- The pseudo-channel of an MA (R120). -/
def maPc (a : Nat) : Nat :=
  bits a 15 10 ^^^ bits a 21 16 ^^^ bits a 27 22 ^^^ bits a 33 28 ^^^ bits a 35 34

/-- The bank of an MA (R120). -/
def maBank (a : Nat) : Nat := bits a 21 16 ^^^ bits a 27 22

/-- The row of an MA (R120). -/
def maRow (a : Nat) : Nat := bits a 35 22

/-- The bank of an MA as the herd book names it: stack, pseudo-channel × 8, bank × 512 (Table 19-7, kind 0x2403). -/
def bankUnit (a : Nat) : Nat := a / 2 ^ 36 % 8 + maPc a * 8 + maBank a * 512

/-- The key of a row: its bank and its number. -/
def rowKey (a : Nat) : Nat := bankUnit a * 16384 + maRow a

/-- Mark a stack for retirement at the next step boundary (R135). -/
def State.stackFails (s : State) (k : Nat) : State :=
  if s.hbm.retireDue.contains k ∨ s.odg 0x2400 0x03 k = 1 then s
  else { s with hbm := { s.hbm with retireDue := s.hbm.retireDue ++ [k] } }

/-- Retire the stacks that are due, at a step boundary (R135): their slices are disabled. -/
def State.retireStacks (s : State) : State :=
  let due := s.hbm.retireDue
  due.foldl (fun s k => ((s.odp 0x2400 0x03 k 1).herdEvent 0x2404 (k + 2 ^ 18) 0 0).request 4)
    { s with hbm := { s.hbm with retireDue := [], slice := s.hbm.slice.filter fun e => !due.contains (e.1 / 2 ^ 29) } }

/-- A cellar frame retired while it holds stash data is a storage event of its context (R202, R391). -/
def State.cellarLoss (s : State) (a : Nat) : State :=
  (Sparse.keys s.ctxs).foldl (fun s c =>
    let y := (s.ctx c).cellar
    match y.frames.findIdx? fun f => decide (f = a / 2 ^ 21) with
    | some i => if y.runs.any fun r => !r.2.2.1 && decide (r.2.2.2.1 < 32 * i + 32 ∧ 32 * i < r.2.2.2.1 + r.2.2.2.2)
        then s.storageEvent (some c) St.MEM_FRAME_RETIRED a else s
    | none => s) s

/-- Retire the frame of an MA (R134); the 129th frame of a stack retires the stack (R388). -/
def State.retireFrame (s : State) (a : Nat) : State :=
  let f := frameOf a
  if s.hbm.frames.contains f then s else
  if (s.hbm.frames.filter fun g => decide (g % 8 = f % 8)).length < 128 then
    { s with hbm := { s.hbm with frames := s.hbm.frames ++ [f] } }.herdEvent 0x2404 f 0 0 |>.cellarLoss a
  else (s.request 5).stackFails (f % 8)

/-- Repair the row of an MA (R133), or retire its frame when its bank has no repair row left (R134) or the base die has no
room for another record (R388). The last repair row of a bank sets bit 1 of the service request. -/
def State.repairRow (s : State) (a : Nat) : State :=
  let b := bankUnit a
  let k := a / 2 ^ 36 % 8
  let used := Sparse.get (fun _ => 0) s.hbm.rowsUsed b
  let recd := Sparse.get (fun _ => 0) s.hbm.recorded k
  if s.hbm.frames.contains (frameOf a) ∨ s.stackRetired a = true then s
  else if recd ≥ 2048 then (s.request 5).retireFrame a
  else if used < 4 then
    let s := { s with hbm := { s.hbm with
      rowsUsed := Sparse.set (fun _ => 0) s.hbm.rowsUsed b (used + 1)
      recorded := Sparse.set (fun _ => 0) s.hbm.recorded k (recd + 1)
      repaired := rowKey a :: s.hbm.repaired, softRows := rowKey a :: s.hbm.softRows
      corrLog := s.hbm.corrLog.filter fun e => decide (e.1 ≠ rowKey a) } }
    let s := (s.bump 0x2402 0x01 k).herdEvent 0x2403 b ((used + 1 : Nat) : Int) (maRow a)
    if used + 1 = 4 then s.request 1 else s
  else s.retireFrame a

/-- What a read of the sector of an MA meets in the array (R131, R133): a single-bit error is corrected and counted, a
double-bit error poisons the sector; the row is repaired on the fourth corrected error within 24 hours or at once. -/
def State.eccRead (s : State) (a : Nat) (found : EccFinding) : State :=
  let k := a / 2 ^ 36 % 8
  if s.poisoned a then s else
  match found with
  | .clean => s
  | .single =>
    let log := (rowKey a, s.ctl.clock) :: s.hbm.corrLog.filter fun e => decide (s.ctl.clock < e.2 + dayNs)
    let s := { s.bump 0x2401 0x01 k with hbm := { s.hbm with corrLog := log } }
    if 4 ≤ (log.filter fun e => decide (e.1 = rowKey a)).length then s.repairRow a else s
  | .double => ((s.bump 0x2401 0x02 k).setPoison a true).repairRow a
  | .parity | .tag => s

/-- What a sector held by its slice meets there (R132): a parity error in a dirty sector poisons it, in a clean one the line is
invalidated, or, where the line holds another sector dirty, the sector alone (log entry 48); a single-bit error of its tag or state is corrected. -/
def State.sliceMeets (s : State) (a : Nat) (found : EccFinding) : State :=
  match found with
  | .parity =>
    if s.poisoned a then s
    else if s.dirtySector a then (s.bump 0x2401 0x02 (a / 2 ^ 36)).setPoison a true
    else if (s.sliceLine (a / 128)).toNat < 16 then s.setLine (a / 128) 0
    else s.dropSector a
  | .tag => s.bump 0x2401 0x01 (a / 2 ^ 36)
  | .clean | .single | .double => s

/-- One sector is read (R126, R131, R132): from the slice where it holds it, counted as a hit; else fetched from the array, counted as
a miss, with what the array's check bits show, and placed in the slice by an allocating access. -/
def State.readSector (s : State) (alloc : Bool) (ecc : List (BitVec 34 × EccFinding)) (a : Nat) : State :=
  if 2 ^ 39 ≤ a ∨ s.memRetired a = true then s else
  let found := ((ecc.find? fun e => decide (e.1.toNat = a / 32)).map Prod.snd).getD .clean
  let s := if s.inSlice a then s.sliceMeets a found else s
  if s.inSlice a then s.bump 0x2403 0x01 (a / 2 ^ 36)
  else
    let s := (s.bump 0x2403 0x02 (a / 2 ^ 36)).eccRead a found
    if alloc then s.fillSlice a false else s

/-- The sectors of a range of module memory are read in ascending order. -/
def State.readRange (s : State) (alloc : Bool) (ecc : List (BitVec 34 × EccFinding)) (a n : Nat) : State :=
  if n = 0 then s else
  (List.range (((a + n - 1) / 32) - a / 32 + 1)).foldl (fun s j => s.readSector alloc ecc ((a / 32 + j) * 32)) (s.touches a n)

/-- Read a range whose surroundings the command does not carry: hits and misses count. -/
def State.fetched (s : State) (a n : Nat) : State := s.readRange false [] a n

/-- An operation meets what its surroundings hold for it (R130-R132): replays are counted by stack, the errors in the sectors it reads
take effect, and the sector whose transfer fails its replays is noted while it runs. -/
def State.meets (s : State) (env : MemEnv) : State :=
  let s := (List.range 8).foldl (fun s k => s.stackReplays k (env.replays.filter fun r => decide (r.toNat = k)).length false) s
  let s := env.ecc.foldl (fun s e =>
    let a := 32 * e.1.toNat
    if s.memRetired a then s else if s.inSlice a then s.sliceMeets a e.2 else s.eccRead a e.2) s
  match env.failAt with
  | some a => { s.stackReplays (a.toNat / 2 ^ 36) 2 true with hbm := { (s.stackReplays (a.toNat / 2 ^ 36) 2 true).hbm with replayBad := some (a.toNat / 32) } }
  | none => s

/-- Run an operation on module memory within what its surroundings hold for it (R130, R131). -/
def State.inside (s : State) (env : MemEnv) (act : State → State) : State :=
  let t := act (s.meets env)
  { t with hbm := { t.hbm with replayBad := none } }

/-- Run an operation that answers a status within what its surroundings hold for it. -/
def State.insideR (s : State) (env : MemEnv) (act : State → State × Nat) : State × Nat :=
  let r := act (s.meets env)
  ({ r.1 with hbm := { r.1.hbm with replayBad := none } }, r.2)

/-! ### The snoop filter (R315) -/

/-- The MA of a window line (R314). -/
def State.lineMa (s : State) (line : Nat) : Nat := s.odg 0x2405 0x01 + 64 * line

/-- The filter's lines that a byte range of module memory touches. -/
def State.filtered (s : State) (a n : Nat) : List Nat :=
  s.host.filter.filter fun l => decide (n ≠ 0 ∧ s.lineMa l < a + n ∧ a < s.lineMa l + 64)

/-- Send a back-invalidate snoop for every listed line of the ranges that has none outstanding (R315). -/
def State.snoopLines (s : State) (ls : List Nat) : State :=
  ls.foldl (fun s l =>
    if s.host.snooping.contains l then s else
    let s := s.bump 0x2405 0x04 0
    { s with host := { s.host with snooping := l :: s.host.snooping, asked := Sparse.ins l s.ctl.clock s.host.asked }
             out := .snoop l :: s.out }) s

/-- Run an operation of a module agent coherently (R315): when it accesses a line that the filter lists, the snoops of its lines are
sent and the operation waits, to be commanded again. -/
def State.coherently (s : State) (act : State → State) : State :=
  let t := act { s with hbm := { s.hbm with touched := some [] } }
  let ls := ((t.hbm.touched.getD []).map fun r => s.filtered r.1 r.2).flatten
  if ls.isEmpty then { t with hbm := { t.hbm with touched := none } } else s.snoopLines ls

/-- Run an operation of a module agent coherently, within what its surroundings hold for it. -/
def State.within (s : State) (env : MemEnv) (act : State → State) : State := s.coherently fun s => s.inside env act

/-- The throttle step that a temperature enters (Table 06-4). -/
def throttleAt (t : Int) : Nat := if 1680 ≤ t then 3 else if 1600 ≤ t then 2 else if 1520 ≤ t then 1 else 0

/-- Note for each step since when every reading has stayed below what leaves it (R124). -/
def State.noteCool (s : State) (k : Nat) (t : Int) : State :=
  (List.range 4).foldl (fun s j =>
    let key := 4 * k + j
    let cool := decide (t < (1424 + 80 * j : Nat) - 32)
    let since := Sparse.get (fun _ => 0) s.hbm.coolSince key
    let v := if cool then (if since = 0 then s.ctl.clock + 1 else since) else 0
    { s with hbm := { s.hbm with coolSince := Sparse.set (fun _ => 0) s.hbm.coolSince key v } }) s

/-- STACK_TEMP_READING (R124, R125): the reading, the throttle step entered at once, or left one at a time after 1 ms. -/
def execStackTempReading (stack : BitVec 3) (temp : BitVec 16) (s : State) : Host.Outcome State Fault Refusal :=
  let k := stack.toNat
  if s.powered = false ∨ s.odg 0x2400 0x03 k = 1 then .next s else
  let t := sInt 16 temp.toNat
  let arg := uNat 64 t
  let now := s.odg 0x2400 0x02 k
  let s := (s.odp 0x2400 0x01 k temp.toNat).noteCool k t
  let up := throttleAt t
  let since := Sparse.get (fun _ => 0) s.hbm.coolSince (4 * k + now)
  if now < up then
    .next (((if now = 0 then s.bump 0x2400 0x04 k else s).odp 0x2400 0x02 k up).herdEvent 0x2405 k (up : Int) arg)
  else if now ≠ 0 ∧ since ≠ 0 ∧ since + 1000000 ≤ s.ctl.clock + 1 then
    .next ((s.odp 0x2400 0x02 k (now - 1)).herdEvent 0x2405 k (now : Int) arg)
  else .next s

/-- PATROL_SCRUB (R132, R391): the next sector is read from the array and corrected, or an error of its slice is found; a sector it
poisons is a storage event outside any context. The last sector of a stack completes a pass. -/
def execPatrolScrub (stack : BitVec 3) (sector : BitVec 31) (found : EccFinding) (s : State) :
    Host.Outcome State Fault Refusal :=
  let k := stack.toNat
  let a := k * 2 ^ 36 + sector.toNat * 32
  if s.powered = false ∨ s.stackRetired a = true then .next s else
  let s := if s.readStatus a = 0 ∧ found = .double then
      ((s.eccRead a found).metPoison St.MEM_UNCORRECTABLE a).storageEvent none St.MEM_UNCORRECTABLE a
    else if found = .single ∨ found = .double then s.eccRead a found
    else if s.inSlice a then
      (let t := s.sliceMeets a found
       if t.poisoned a = true ∧ s.poisoned a = false then
         (t.metPoison St.MEM_UNCORRECTABLE a).storageEvent none St.MEM_UNCORRECTABLE a else t)
    else s
  let pos := Sparse.get (fun _ => 0) s.hbm.scrubPos k
  let v := if sector.toNat = pos then (pos + 1) % 2 ^ 31 else pos
  let s := { s with hbm := { s.hbm with scrubPos := Sparse.set (fun _ => 0) s.hbm.scrubPos k v } }
  .next (if sector.toNat = pos ∧ pos = 2 ^ 31 - 1 then s.bump 0x2401 0x05 k else s)

/-- A DQ lane of a channel needs a spare (R135): one is taken; with none left the stack is retired at the next step boundary. The
last spare lane of a channel sets bit 1 of the service request. -/
def State.steerLane (s : State) (stack channel : Nat) : State :=
  let key := 32 * stack + channel
  let used := Sparse.get (fun _ => 0) s.hbm.dqUsed key
  if s.odg 0x2400 0x03 stack = 1 then s
  else if used < 2 then
    let s := { s with hbm := { s.hbm with dqUsed := Sparse.set (fun _ => 0) s.hbm.dqUsed key (used + 1) } }
    let s := s.bump 0x2402 0x02 stack
    if used + 1 = 2 then s.request 1 else s
  else s.stackFails stack

/-- DQ_LANE_STEER (R135): a lane in service shows too many CRC errors; a lane that fails training at start-up comes with
START_UP_COMPLETE. -/
def execDqLaneSteer (stack : BitVec 3) (channel : BitVec 5) (s : State) : Host.Outcome State Fault Refusal :=
  .next (if s.powered then s.steerLane stack.toNat channel.toNat else s)

end Sys2Proof.Machine
end

