-- ==== Sys2Proof/Machine/DmaOps.lean ====
section
/-! DEFINITION. What the DMA commands share (chapter 07): descriptor fields, addresses, rejection, the moves of a transfer,
failures, host ranges, the snoop filter's hold on module-memory lines. -/

namespace Sys2Proof.Machine

/-! ### The descriptor (Table 07-2) -/

/-- OP. -/
def dOp (d : List Byte) : Nat := fld d 0 1 % 16
/-- SRC_SPACE. -/
def dSrcSpace (d : List Byte) : Nat := bits (fld d 1 1) 2 0
/-- DST_SPACE. -/
def dDstSpace (d : List Byte) : Nat := bits (fld d 1 1) 5 3
/-- ALLOC. -/
def dAlloc (d : List Byte) : Bool := bit (fld d 1 1) 6
/-- TRANSPOSE. -/
def dTrans (d : List Byte) : Bool := bit (fld d 1 1) 7
/-- ESIZE. -/
def dEsize (d : List Byte) : Nat := bits (fld d 2 1) 1 0
/-- The element size in bytes. -/
def dE (d : List Byte) : Nat := 2 ^ dEsize d
/-- SHAPE. -/
def dShape (d : List Byte) : Nat := bits (fld d 2 1) 3 2
/-- WAIT_EN. -/
def dWaitEn (d : List Byte) : Bool := bit (fld d 2 1) 4
/-- SIGNAL. -/
def dSignal (d : List Byte) : Bool := bit (fld d 2 1) 5
/-- ORDERED. -/
def dOrdered (d : List Byte) : Bool := bit (fld d 2 1) 6
/-- BLOCK_ORDER. -/
def dBlockOrder (d : List Byte) : Bool := bit (fld d 2 1) 7
/-- MEMOP. -/
def dMemop (d : List Byte) : Nat := fld d 3 1
/-- TAG. -/
def dTag (d : List Byte) : Nat := fld d 4 2
/-- ROWS. -/
def dRows (d : List Byte) : Nat := fld d 6 2
/-- SRC. -/
def dSrc (d : List Byte) : Nat := fld d 8 8
/-- DST. -/
def dDst (d : List Byte) : Nat := fld d 16 8
/-- LEN. -/
def dLen (d : List Byte) : Nat := fld d 24 4
/-- SRC_STRIDE. -/
def dSrcStride (d : List Byte) : Nat := fld d 28 4
/-- DST_STRIDE. -/
def dDstStride (d : List Byte) : Nat := fld d 32 4
/-- WAIT_SYNC. -/
def dWaitSync (d : List Byte) : Nat := fld d 36 2
/-- SIGNAL_SYNC. -/
def dSignalSync (d : List Byte) : Nat := fld d 38 2
/-- WAIT_VALUE. -/
def dWaitValue (d : List Byte) : Nat := fld d 40 4
/-- E_ACC. -/
def dEacc (d : List Byte) : Int := sInt 8 (fld d 44 1)
/-- OPERAND_A. -/
def dOpA (d : List Byte) : Nat := fld d 48 8
/-- OPERAND_B. -/
def dOpB (d : List Byte) : Nat := fld d 56 8

/-- An empty descriptor (Table 07-5). -/
def dEmpty (d : List Byte) : Bool := decide (dOp d ≠ 3 ∧ (dRows d = 0 ∨ dLen d = 0))

/-- The first token of a page operation (R145). -/
def dT0 (d : List Byte) : Nat := bits (dOpB d) 23 0
/-- POOL_PAGES (R145). -/
def dPool (d : List Byte) : Nat := bits (dOpB d) 55 24
/-- ABSENT_STOP (R145). -/
def dAbsentStop (d : List Byte) : Bool := bit (dOpB d) 63
/-- The page stride: the pool side's stride, 16 × LEN for 0 (R145, Table 07-5). -/
def dPageStride (d : List Byte) : Nat :=
  let p := if dOp d = 5 then dSrcStride d else dDstStride d
  if p = 0 then 16 * dLen d else p

/-- A stride with 0 meaning the row length (R143). -/
def strideOr (stride row : Nat) : Nat := if stride = 0 then row else stride

/-- The width of an atomic in bytes, 0 for a code not listed (Table 06-5). -/
def atomicWidth (m : Nat) : Nat :=
  match m with
  | 0x01 | 0x03 | 0x04 | 0x05 | 0x06 | 0x07 | 0x08 | 0x09 | 0x0D | 0x0F => 4
  | 0x02 | 0x0A | 0x0B | 0x0C | 0x0E | 0x10 => 8
  | _ => 0

/-- The source element size of a reduction, 0 for a code not listed (Table 06-6); a BS8 source counts in segments. -/
def reduceSrc (m : Nat) : Nat :=
  match m with
  | 0x20 | 0x22 | 0x23 | 0x24 => 4
  | 0x21 => 2
  | 0x25 => 1088
  | _ => 0

/-- The destination bytes of one reduction row of LEN source bytes (Table 06-6). -/
def reduceRow (m len : Nat) : Nat := if m = 0x25 then len / 1088 * 4096 else if m = 0x21 then len / 2 * 4 else len / 4 * 4

/-! ### Address spaces (Table 07-4) -/

/-- A place a byte of a transfer can be. -/
inductive Loc where
  | mem (a : Nat)
  | core (k off : Nat)
  | host (a : Nat)
  | nowhere
  deriving DecidableEq, Repr

/-- The bits of the address fields of a space; an address bit above them must be 0. -/
def spaceBits (sp : Nat) : Nat :=
  match sp with
  | 0 => 39 | 1 => 30 | 2 => 30 | 3 => 52 | 4 => 36 | _ => 64

/-- The region of a space-1 or space-2 address: 16 × n + KK. -/
def addrRegion (a : Nat) : Nat := 16 * bits a 29 28 + bits a 27 24

/-- The place of byte `o` after an address, in its space (Table 07-4, R33). -/
def State.locOf (s : State) (sp a o : Nat) : Loc :=
  match sp with
  | 0 => if a + o < 2 ^ 39 then .mem (a + o) else .nowhere
  | 1 => if a < 2 ^ 30 ∧ bits a 17 0 + o < 2 ^ 18 then
      (match s.logical (addrRegion a) (bits a 23 18) with
        | some k => .core k (bits a 17 0 + o)
        | none => .nowhere) else .nowhere
  | 2 => if a < 2 ^ 30 ∧ bits a 23 0 + o < 2 ^ 24 then
      (match s.regionLoc (addrRegion a) (bits a 23 0 + o) with
        | some (k, p) => .core k p
        | none => .nowhere) else .nowhere
  | 3 => if a + o < 2 ^ 52 then .host (a + o) else .nowhere
  | _ => .nowhere

/-- Host range i (R317): base, size, read permitted, write permitted. -/
def State.hostRange (s : State) (i : Nat) : Nat × Nat × Bool × Bool :=
  let b := (List.range 16).map fun k => BitVec.ofNat 8 (s.odg 0x2406 (i + 1) k)
  (fld b 0 8, fld b 8 7, bit (fld b 15 1) 0, bit (fld b 15 1) 1)

/-- Whether the bytes [a, a + n) lie wholly in one host range whose right permits the access (R317). -/
def State.hostOk (s : State) (a n : Nat) (write : Bool) : Bool :=
  (List.range 16).any fun i =>
    let r := s.hostRange i
    decide (r.2.1 ≠ 0 ∧ r.1 ≤ a ∧ a + n ≤ r.1 + r.2.1) && (if write then r.2.2.2 else r.2.2.1)

/-- A side of a transfer: its rows start at `base + r × stride` and have `row` bytes (R143). -/
structure Side where
  sp     : Nat
  base   : Nat
  rows   : Nat
  row    : Nat
  stride : Nat
  deriving DecidableEq, Repr

/-- The bytes from the first to the last byte of a side. -/
def Side.span (x : Side) : Nat := if x.rows = 0 ∨ x.row = 0 then 0 else (x.rows - 1) * x.stride + x.row

/-- Whether the n bytes of one row lie inside its core store or region store and the context's range in every core they touch
(R142). -/
def State.rowOk (s : State) (x : Ctx) (sp a n : Nat) : Bool :=
  if 2 ^ 30 ≤ a then false
  else if sp = 1 then
    decide (x.sbase ≤ bits a 17 0 ∧ bits a 17 0 + n ≤ x.slimit) && (s.logical (addrRegion a) (bits a 23 18)).isSome
  else
    decide (bits a 23 0 + n ≤ s.enabled (addrRegion a) * 2 ^ 18) && (List.range n).all fun o =>
      match s.regionLoc (addrRegion a) (bits a 23 0 + o) with
      | some (_, p) => decide (x.sbase ≤ p ∧ p < x.slimit)
      | none => false

/-- Whether the addresses of a side lie inside its space and, for core and region stores, the context's range (R142); each row
begins at an address of its own (R143, log entry 28). -/
def State.sideOk (s : State) (x : Ctx) (d : Side) (write : Bool) : Bool :=
  match d.sp with
  | 0 => decide (d.base + d.span ≤ 2 ^ 39)
  | 1 | 2 => (List.range d.rows).all fun r => s.rowOk x d.sp (d.base + r * d.stride) d.row
  | 3 => decide (d.base + d.span ≤ 2 ^ 52) && s.hostOk d.base d.span write
  | _ => false

/-- The source side of a descriptor for the checks of R147; the pool of PAGE_READ counts whole (R145). -/
def srcSide (d : List Byte) : Side :=
  let len := dLen d
  let e := dE d
  let rb := dRows d
  match dOp d with
  | 1 => if dShape d = 2 then
      (let cb := len / (1024 * e)
       let width := if dTrans d then 32 * rb * e else 32 * cb * e
       ⟨dSrcSpace d, dSrc d, if dTrans d then 32 * cb else 32 * rb, width, strideOr (dSrcStride d) width⟩)
    else ⟨dSrcSpace d, dSrc d, rb, len, strideOr (dSrcStride d) len⟩
  | 3 => ⟨dSrcSpace d, dSrc d, 1, atomicWidth (dMemop d), 0⟩
  | 5 => ⟨0, dSrc d, dPool d, 16 * len, dPageStride d⟩
  | _ => ⟨dSrcSpace d, dSrc d, rb, len, strideOr (dSrcStride d) len⟩

/-- The destination side of a descriptor for the checks of R147. -/
def dstSide (d : List Byte) : Side :=
  let len := dLen d
  let e := dE d
  let rb := dRows d
  match dOp d with
  | 1 => if dShape d = 1 then
      (let cb := len / (1024 * e)
       let width := if dTrans d then 32 * rb * e else 32 * cb * e
       ⟨dDstSpace d, dDst d, if dTrans d then 32 * cb else 32 * rb, width, strideOr (dDstStride d) width⟩)
    else ⟨dDstSpace d, dDst d, rb, len, strideOr (dDstStride d) len⟩
  | 3 => ⟨0, dDst d, 1, atomicWidth (dMemop d), 0⟩
  | 4 => ⟨0, dDst d, rb, reduceRow (dMemop d) len, strideOr (dDstStride d) len⟩
  | 6 => ⟨0, dDst d, dPool d, 16 * len, dPageStride d⟩
  | _ => ⟨dDstSpace d, dDst d, rb, len, strideOr (dDstStride d) len⟩

/-! ### Rejection (R147) -/

/-- The fields of Table 07-2 that an operation may leave reserved, with whether it uses them (Table 07-3, R141). -/
def dFields (d : List Byte) : List (Nat × Bool) :=
  let op := dOp d
  let cas := decide (dMemop d = 0x0F ∨ dMemop d = 0x10)
  let paged := decide (op = 5 ∨ op = 6)
  [(dSrcSpace d, decide (op = 1 ∨ op = 3 ∨ op = 4 ∨ op = 6 ∨ op = 7)),
   (dDstSpace d, decide (op ≠ 6)),
   (b2n (dAlloc d), decide (op = 1 ∨ op = 2) || paged),
   (b2n (dTrans d), decide (op = 1)),
   (dEsize d, decide (op = 1 ∨ op = 2)),
   (dShape d, decide (op = 1)),
   (b2n (dBlockOrder d), decide (op = 1)),
   (dMemop d, decide (op = 3 ∨ op = 4)),
   (dRows d, decide (op ≠ 3)),
   (dSrc d, decide (op ≠ 2)),
   (dDst d, true),
   (dLen d, decide (op ≠ 3)),
   (dSrcStride d, decide (op = 1 ∨ op = 4 ∨ op = 7) || paged),
   (dDstStride d, decide (op = 1 ∨ op = 2 ∨ op = 4) || paged),
   (dWaitSync d, dWaitEn d),
   (dWaitValue d, dWaitEn d),
   (dSignalSync d, dSignal d),
   (fld d 44 1, decide (op = 4 ∧ dMemop d = 0x25)),
   (dOpA d, decide (op = 2 ∨ op = 3) || paged),
   (dOpB d, (decide (op = 3) && cas) || paged)]

/-- Whether an address has a bit above the fields of its space (Table 07-4). -/
def highBits (sp a : Nat) : Bool := decide (a / 2 ^ spaceBits sp ≠ 0)

/-- A field that R141 makes reserved, or a reserved address bit, is nonzero. -/
def dReserved (d : List Byte) : Bool :=
  let op := dOp d
  (dFields d).any (fun f => !f.2 && decide (f.1 ≠ 0))
    || (decide (op ≠ 2) && highBits (dSrcSpace d) (dSrc d))
    || highBits (dDstSpace d) (dDst d)
    || (decide (op = 5 ∨ op = 6) && decide (dOpA d / 2 ^ 39 ≠ 0 ∨ bits (dOpB d) 62 56 ≠ 0))

/-- A space, MEMOP or SHAPE that the operation does not permit, or a broken limit (R147, Tables 07-3 to 07-5). -/
def dBadField (d : List Byte) : Bool :=
  let op := dOp d
  let ss := dSrcSpace d
  let ds := dDstSpace d
  let len := dLen d
  match op with
  | 1 => decide (3 < ss ∨ 3 < ds ∨ dShape d = 3 ∨ (ss = 3 ∧ ds = 3) ∨ ((ss = 3 ∨ ds = 3) ∧ dShape d ≠ 0)
      ∨ (dShape d = 1 ∧ ss ≠ 0) ∨ (dShape d = 2 ∧ ds ≠ 0) ∨ (dTrans d = true ∧ dShape d = 0)
      ∨ (dShape d ≠ 0 ∧ (dEsize d = 3 ∨ len = 0 ∨ len % (1024 * dE d) ≠ 0)))
  | 2 => decide (3 < ds)
  | 3 => decide (ds ≠ 0 ∨ ss ≠ 1 ∨ atomicWidth (dMemop d) = 0)
  | 4 => decide (2 < ss ∨ ds ≠ 0 ∨ reduceSrc (dMemop d) = 0)
  | 5 => decide (2 < ds ∨ ss ≠ 0 ∨ len % 32 ≠ 0 ∨ dPageStride d < 16 * len ∨ 16777216 < dT0 d + dRows d
      ∨ (dPool d = 0 ∧ 0 < dRows d))
  | 6 => decide (2 < ss ∨ ds ≠ 0 ∨ len % 32 ≠ 0 ∨ dPageStride d < 16 * len ∨ 16777216 < dT0 d + dRows d
      ∨ (dPool d = 0 ∧ 0 < dRows d))
  | 7 => decide (2 < ss ∨ ds ≠ 4)
  | _ => true

/-- The axis lengths of a routing-table version (Table 12-1), 0 while the version is not valid. -/
def State.axisLen (s : State) (v a : Nat) : Nat := if bit (s.odg 0x2600 0x03) v then s.odg 0x2600 (v + 1) (4 + a) % 128 else 0

/-- Whether a fabric address lies inside the axes of the injection epoch's version (R254). -/
def State.inAxes (s : State) (a : Nat) : Bool :=
  let v := s.odg 0x2600 0x04
  decide (bits a 5 0 < s.axisLen v 0 ∧ bits a 11 6 < s.axisLen v 1 ∧ bits a 17 12 < s.axisLen v 2)

/-- An address outside its space or the context's range, or a misaligned one (R147). -/
def State.dBadAddress (s : State) (x : Ctx) (d : List Byte) : Bool :=
  let op := dOp d
  let e := dE d
  let m := dMemop d
  (decide (op ≠ 2) && !s.sideOk x (srcSide d) false)
    || (decide (op ≠ 7) && !s.sideOk x (dstSide d) true)
    || (decide (op = 1 ∧ dShape d = 1) && decide (dSrc d % (1024 * e) ≠ 0))
    || (decide (op = 1 ∧ dShape d = 2) && decide (dDst d % (1024 * e) ≠ 0))
    || (decide (op = 2) && decide (dDst d % e ≠ 0 ∨ strideOr (dDstStride d) (dLen d) % e ≠ 0))
    || (decide (op = 4) && decide (dDst d % 4 ≠ 0 ∨ (1 < dRows d ∧ strideOr (dDstStride d) (dLen d) % 4 ≠ 0) ∨ m = 0))
    || (decide (op = 5 ∨ op = 6) && decide (dOpA d % 4 ≠ 0
        ∨ 2 ^ 39 < dOpA d + 4 * ((dT0 d + dRows d - 1) / 16) + 4))

/-- A nonzero destination stride below LEN with more than one row (Table 07-5); where the destination is a dense matrix, below
the bytes of its rows (R144, log entry 28). -/
def dRowsMeet (d : List Byte) : Bool :=
  let b := dstSide d
  let width := if dOp d = 1 ∧ dShape d = 1 then b.row else dLen d
  decide (dOp d ≠ 3 ∧ dOp d ≠ 7 ∧ 1 < b.rows ∧ dDstStride d ≠ 0 ∧ dDstStride d < width)

/-- Overlapping destination rows, or source and destination ranges that meet in one space (R147, Table 07-5). -/
def dOverlap (d : List Byte) : Bool :=
  let a := srcSide d
  let b := dstSide d
  let op := dOp d
  dRowsMeet d
    || (decide (op ≠ 2 ∧ op ≠ 3 ∧ op ≠ 7) && decide (a.sp = b.sp ∧ a.base < b.base + b.span ∧ b.base < a.base + a.span))

/-- The status with which a descriptor is rejected, in the order of R147; 0 where it is not. -/
def State.dReject (s : State) (x : Ctx) (d : List Byte) : Nat :=
  let op := dOp d
  if fld d 0 1 / 16 ≠ 0 ∨ fld d 45 3 ≠ 0 then St.CMD_RESERVED_NONZERO
  else if op = 0 ∨ 7 < op then St.DMA_BAD_FIELD
  else if dReserved d then St.CMD_RESERVED_NONZERO
  else if dBadField d then St.DMA_BAD_FIELD
  else if op = 7 ∧ 16777216 < dRows d * dLen d then St.DMA_BAD_FIELD
  else if dEmpty d then 0
  else if s.dBadAddress x d then St.DMA_BAD_ADDRESS
  else if op = 7 ∧ s.inAxes (dDst d) = false then St.DMA_BAD_ADDRESS
  else if dOverlap d then St.DMA_OVERLAP
  else if op = 3 ∧ dDst d % atomicWidth (dMemop d) ≠ 0 then St.MEM_ALIGN
  else 0

/-! ### Queues -/

/-- A queue with nothing in it. -/
def dqNone : DescQ := { next := 0, items := [], written := 0 }

/-- The key of a queue: engine × 256 + context × 4 + q (R137). -/
def qKey (q : QRef) : Nat := q.engine.toNat * 256 + q.ctx.toNat * 4 + q.q.toNat

/-- A DMA queue. -/
def State.dq (s : State) (k : Nat) : DescQ := Sparse.get (fun _ => dqNone) s.dmaq k

/-- Write a DMA queue. -/
def State.setDq (s : State) (k : Nat) (q : DescQ) : State := { s with dmaq := Sparse.set (fun _ => dqNone) s.dmaq k q }

/-- The queue record of queue q of die n in a context descriptor (Table 10-6). -/
def Ctx.dmaRec (x : Ctx) (n q : Nat) : List Byte := sliceBytes x.desc (128 + 32 * (4 * n + q)) 32

/-- A completion record (Table 07-6). -/
def dmaRecord (tag status flags queue ctx absent bytes h time : Nat) : List Byte :=
  leBytes 2 tag ++ leBytes 2 status ++ leBytes 1 flags ++ leBytes 1 (queue + 4 * ctx) ++ leBytes 2 absent ++ leBytes 8 bytes
    ++ leBytes 8 h ++ leBytes 8 time

/-- Whether record slot h of a completion ring is free (R139, R212). -/
def State.ringFree (s : State) (qr : List Byte) (h : Nat) : Bool :=
  let n := 2 ^ fld qr 25 1
  decide (h < n ∨ h - n < (s.objVal ((fld qr 10 2 + 1) % 65536)).toNat)

/-- The queue record of a queue by its key. -/
def State.queueRec (s : State) (key : Nat) : List Byte := (s.ctx (key / 4 % 64)).dmaRec (key / 256) (key % 4)

/-- Whether the queue's oldest completion is held by a full ring, and with it the descriptors behind it (R139). -/
def State.ringHeld (s : State) (key : Nat) (q : DescQ) : Bool :=
  match q.items with
  | d :: _ => d.record.isSome && !s.ringFree (s.queueRec key) d.h
  | [] => false

/-- Whether a descriptor uses host space. -/
def dHost (d : List Byte) : Bool := decide (dSrcSpace d = 3 ∨ dDstSpace d = 3)

/-- Whether the descriptor's own conditions to start are met (R137, R139, R150): its context runs, the link is up for host space (R318),
its wait, ORDERED, at most 8 in flight, no completion held. One that has started goes on. -/
def State.mayStart (s : State) (key : Nat) (q : DescQ) (d : Desc) : Bool :=
  let inFlight := (q.items.filter fun x => decide (x.h ≠ d.h) && (x.record.isSome || x.started)).length
  d.started || (decide (s.runningCtx = some (key / 4 % 64)) && (!dHost d.bytes || s.host.linkUp)
    && (!(dWaitEn d.bytes) || s.satisfied (dWaitSync d.bytes) (BitVec.ofNat 64 (dWaitValue d.bytes)))
    && (!(dOrdered d.bytes) || decide (q.written = d.h)) && decide (inFlight < 8) && !s.ringHeld key q)

/-- The first descriptor of a queue that has neither a record nor been handed to the fabric. -/
def DescQ.nextItem (q : DescQ) : Option (Nat × Desc) :=
  match q.items.findIdx? fun d => d.record.isNone && !d.handed with
  | some i => (q.items[i]?).map fun d => (i, d)
  | none => none

/-- Put the record of a finished descriptor (R149), stamped now; `out` is status, flags, absent tokens, bytes. -/
def State.dmaFinish (s : State) (key i : Nat) (d : Desc) (tag status flags absent bytes : Nat) : State :=
  let inst := 0x2000 + key
  let r := dmaRecord tag status flags (key % 4) (key / 4 % 64) absent bytes d.h (s.stampOf inst)
  let q := s.dq key
  (s.stamped inst).setDq key { q with items := q.items.set i { d with started := true, record := some r } }

/-- Whether a status stops a descriptor that has started (R148). -/
def stopStatus (st : Nat) : Bool :=
  decide (st = St.MEM_REPLAY_FAILED ∨ st = St.MEM_UNCORRECTABLE ∨ st = St.MEM_FRAME_RETIRED ∨ st = St.MEM_STACK_RETIRED
    ∨ st = St.DMA_PAGE_ABSENT ∨ st = St.DMA_PAGE_RANGE ∨ st = St.DMA_HOST_ERROR)

/-- Whether a status is a storage event (R391). -/
def storageStatus (st : Nat) : Bool :=
  decide (st = St.MEM_REPLAY_FAILED ∨ st = St.MEM_UNCORRECTABLE ∨ st = St.MEM_FRAME_RETIRED ∨ st = St.MEM_STACK_RETIRED
    ∨ st = St.DMA_HOST_ERROR)

/-- The status that keeps a descriptor from running: unreadable at its fetch, or rejected as things stand when it would start
(R139, R145, R147). -/
def State.heldStatus (s : State) (key : Nat) (d : Desc) : Nat :=
  if d.status ≠ 0 then d.status else if d.started then 0 else s.dReject (s.ctx (key / 4 % 64)) d.bytes

/-- Finish the rejected and unreadable descriptors whose turn it is (R139, R147); `fuel` bounds them. -/
def State.dmaSettle (s : State) (key : Nat) : Nat → State
  | 0 => s
  | n + 1 =>
    match (s.dq key).nextItem with
    | some (i, d) =>
      let st := s.heldStatus key d
      if st ≠ 0 ∧ (d.status ≠ 0 ∨ s.mayStart key (s.dq key) d = true) then
        (s.dmaFinish key i d (if d.status ≠ 0 then 0 else dTag d.bytes) st d.flags 0 0).dmaSettle key n
      else s
    | none => s

/-! ### The snoop filter (R315) -/

/-- Access ranges of module memory coherently (R315): while the filter lists a line of theirs, the snoops are sent and the
access waits, to be commanded again; otherwise it proceeds. -/
def State.coherent (s : State) (ranges : List (Nat × Nat)) (act : State → State) : State :=
  let ls := (ranges.map fun r => s.filtered r.1 r.2).flatten
  if ls = [] then act s else s.snoopLines ls

/-! ### Transfers -/

/-- One byte of a transfer: its transfer offset (R143, R144), where it comes from, where it goes. -/
structure Move where
  off : Nat
  src : Loc
  dst : Loc
  deriving DecidableEq, Repr

/-- The byte at a place; host bytes come from the environment by transfer offset, a byte the host did not deliver being a
free value (log entry 5). -/
def State.locByte (s : State) (host : List Byte) (off : Nat) : Loc → Byte
  | .mem a => s.memByte a
  | .core k o => s.storeByte k o
  | .host _ => (host[off]?).getD (Config.undefByte s.free off)
  | .nowhere => 0

/-- Write the byte of a place. -/
def State.putLoc (s : State) (b : Byte) : Loc → State
  | .mem a => s.putByte a b
  | .core k o => s.putStore k o b
  | .host a => { s with host := { s.host with mem := Sparse.set (fun _ => 0) s.host.mem a b } }
  | .nowhere => s

/-- Whether the moves write all 32 bytes of the sector of an MA. -/
def wholeSector (ms : List Move) (a : Nat) : Bool :=
  (List.range 32).all fun i => ms.any fun m => decide (m.dst = .mem (a / 32 * 32 + i))

/-- The status with which a byte of a transfer fails (R131, R134, R135), 0 where it does not. -/
def State.moveStatus (s : State) (ms : List Move) (m : Move) : Nat :=
  let r := match m.src with
    | .mem a => s.readStatus a
    | _ => 0
  if r ≠ 0 then r else
  match m.dst with
  | .mem a => s.writeStatus a (s.poisoned a && wholeSector ms a)
  | _ => 0

/-- The status of a failure of the surroundings. -/
def failStatus : XferFail → Nat
  | .replayFailed => St.MEM_REPLAY_FAILED
  | .hostError => St.DMA_HOST_ERROR

/-- The lowest failing transfer offset with its status (R148): of the bytes themselves and of the surroundings. -/
def State.firstFail (s : State) (ms : List Move) (env : XferEnv) (total : Nat) : Option (Nat × Nat) :=
  let own := ms.foldl (fun (a : Option (Nat × Nat)) m =>
    let st := s.moveStatus ms m
    if st = 0 then a else match a with
      | some (o, _) => if m.off < o then some (m.off, st) else a
      | none => some (m.off, st)) none
  match env.failAt with
  | some (o, w) => if total ≤ o then own else match own with
      | some (p, st) => if o ≤ p then some (o, failStatus w) else some (p, st)
      | none => some (o, failStatus w)
  | none => own

/-- The sectors that moves read, in transfer-offset order; each row, and each return to a sector, reads it again (R143, log entry 48). -/
def readSectors (len : Nat) (ms : List Move) : List Nat :=
  (ms.foldl (fun (acc : List Nat × Option Nat) m => match m.src with
    | .mem a => if acc.2 = some (a / 32) ∧ m.off % len ≠ 0 then acc else (a / 32 * 32 :: acc.1, some (a / 32))
    | _ => (acc.1, none)) ([], none)).1.reverse

/-- The sectors that moves write, each once. -/
def movedSectors (ms : List Move) : List Nat :=
  (ms.filterMap fun m => match m.dst with
    | .mem a => some (a / 32 * 32)
    | _ => none).eraseDups

/-- Read the sectors that moves take their bytes from (R126, R131). -/
def State.readMoves (s : State) (alloc : Bool) (ecc : List (BitVec 34 × EccFinding)) (len : Nat) (ms : List Move) : State :=
  (readSectors len ms).foldl (fun s a => s.readSector alloc ecc a) s

/-- The slices take the sectors that moves write (R126); one written whole loses its poison (R131). -/
def State.wroteMoves (s : State) (alloc : Bool) (ms : List Move) : State :=
  (movedSectors ms).foldl (fun s a =>
    let whole := wholeSector ms a
    (if whole then s.setPoison a false else s).sliceWrites a alloc whole) s

/-- The moves that a transfer carries out (R148): below the failing offset every byte is written; at or above it a byte that does not
itself fail may or may not be (a free value, log entry 3), and of a page operation is not (R146). -/
def State.movesDone (s : State) (past : Bool) (ms : List Move) (failOff : Option Nat) : List Move :=
  ms.filter fun m => match failOff with
    | none => true
    | some o => decide (m.off < o) || (past && Config.writtenPast s.free m.off && decide (s.moveStatus ms m = 0))

/-- Carry out the moves of a transfer (R148) with the byte that each brings. -/
def State.doMoves (s : State) (alloc past : Bool) (ms : List Move) (byteOf : Move → Byte) (failOff : Option Nat) : State :=
  let put := s.movesDone past ms failOff
  ((put.foldl (fun s m => s.putLoc (byteOf m) m.dst) s).wroteMoves alloc put).drawn

/-- The byte that a move brings from its source. -/
def State.srcByte (s : State) (host : List Byte) (m : Move) : Byte := s.locByte host m.off m.src

/-- Rows of bytes between two places given by functions of the transfer offset. -/
def movesOf (n : Nat) (src dst : Nat → Loc) : List Move := (List.range n).map fun t => ⟨t, src t, dst t⟩

/-- The place of transfer offset t of a side of plain rows (R143). -/
def State.rowLoc (s : State) (x : Side) (t : Nat) : Loc := s.locOf x.sp (x.base + t / x.row * x.stride) (t % x.row)

/-- Block coordinates of a transfer offset of a blocked shape (R144): block row I, block column J, row i, column j, byte. -/
def blockCoord (cb e t : Nat) : Nat × Nat × Nat × Nat × Nat :=
  let b := t / (1024 * e)
  let o := t % (1024 * e)
  (b / cb, b % cb, o / e / 32, o / e % 32, o % e)

/-- The byte offset of an element byte on the blocked side. -/
def blockedOff (pitch e : Nat) (c : Nat × Nat × Nat × Nat × Nat) : Nat :=
  c.1 * pitch + c.2.1 * (1024 * e) + (32 * c.2.2.1 + c.2.2.2.1) * e + c.2.2.2.2

/-- The place of an element byte on the dense side, transposed or not: its row, and its position in the row. -/
def State.denseLoc (s : State) (x : Side) (e : Nat) (trans : Bool) (c : Nat × Nat × Nat × Nat × Nat) : Loc :=
  let i := 32 * c.1 + c.2.2.1
  let j := 32 * c.2.1 + c.2.2.2.1
  if trans then s.locOf x.sp (x.base + j * x.stride) (i * e + c.2.2.2.2)
  else s.locOf x.sp (x.base + i * x.stride) (j * e + c.2.2.2.2)

/-- The moves of a COPY (R143, R144). -/
def State.copyMoves (s : State) (d : List Byte) : List Move :=
  let a := srcSide d
  let b := dstSide d
  let n := dRows d * dLen d
  let e := dE d
  let cb := dLen d / (1024 * e)
  match dShape d with
  | 1 => movesOf n (fun t => s.locOf a.sp a.base (blockedOff a.stride e (blockCoord cb e t)))
      (fun t => s.denseLoc b e (dTrans d) (blockCoord cb e t))
  | 2 => movesOf n (fun t => s.denseLoc a e (dTrans d) (blockCoord cb e t))
      (fun t => s.locOf b.sp b.base (blockedOff b.stride e (blockCoord cb e t)))
  | _ => movesOf n (s.rowLoc a) (s.rowLoc b)

/-- Count the replays that succeed in a transfer of the engine of a die (R130, R390). -/
def State.xferReplays (s : State) (die : Nat) (rs : List (Option (BitVec 3))) : State :=
  ((List.range 8).foldl (fun s k => s.stackReplays k (rs.filter fun r => decide (r.map BitVec.toNat = some k)).length false) s).replayed
    (rs.filter fun r => decide (r = none)).length die false

/-- A transfer of the engine of a die ends at its third mismatch (R130, R390), at an MA or within the module. -/
def State.replaysEnd (s : State) (die : Nat) (at_ : Option Nat) : State :=
  match at_ with
  | some a => s.stackReplays (a / 2 ^ 36 % 8) 2 true
  | none => s.replayed 2 die true

/-- Finish a transfer: its replay and storage events (R130, R391, R392), its record (R149). -/
def State.xferDone (s : State) (key i : Nat) (d : Desc) (env : XferEnv) (fail : Option (Nat × Nat)) (status flags absent
    bytes : Nat) (failAddr : Option Nat) : State :=
  let s := s.xferReplays (key / 256) env.replays
  match fail with
  | some (o, st) =>
    let s := if st = St.MEM_REPLAY_FAILED then s.replaysEnd (key / 256) failAddr else s
    let s := if storageStatus st then
        (s.metPoison st (failAddr.getD 0)).storageEvent (some (key / 4 % 64)) st (failAddr.getD 0) else s
    s.dmaFinish key i d (dTag d.bytes) st
      (flags + (if env.replays ≠ [] ∨ st = St.MEM_REPLAY_FAILED then 8 else 0)) absent o
  | none => s.dmaFinish key i d (dTag d.bytes) status (flags + (if env.replays ≠ [] then 8 else 0)) absent bytes

/-- The MA that a transfer offset of the moves touches, for the records of R391 and R392. -/
def failMa (ms : List Move) (off : Nat) : Option Nat :=
  match ms.find? fun m => decide (m.off = off) with
  | some m => (match m.src, m.dst with
    | .mem a, _ => some a
    | _, .mem a => some a
    | _, _ => none)
  | none => none

/-! ### The page-list walk (R145, R146) -/

/-- What the page-list entry of a token gives (R145, R146): the page, an absent page, or a stopping status. -/
inductive PageAt where
  | page (p : Nat)
  | absent
  | stop (status : Nat)
  deriving DecidableEq, Repr

/-- The MA of the page-list entry of row r. -/
def listMa (d : List Byte) (r : Nat) : Nat := dOpA d + 4 * ((dT0 d + r) / 16)

/-- The page-list entry of row r of a page operation (R145, R146); `listFail` is the entry whose read fails its replays. -/
def State.pageAt (s : State) (listFail : Option Nat) (d : List Byte) (r : Nat) : PageAt :=
  let a := listMa d r
  match s.readFail a 4 with
  | some (_, st) => .stop st
  | none =>
    let l := leNat (s.memBytes a 4)
    if listFail = some ((dT0 d + r) / 16 - dT0 d / 16) then .stop St.MEM_REPLAY_FAILED
    else if l = 0xFFFFFFFF then
      (if dOp d = 6 ∨ dAbsentStop d = true then .stop St.DMA_PAGE_ABSENT else .absent)
    else if dPool d ≤ l then .stop St.DMA_PAGE_RANGE
    else .page l

/-- The first row of a page operation that stops it, with its status (R146). -/
def State.pageStop (s : State) (listFail : Option Nat) (d : List Byte) : Option (Nat × Nat) :=
  ((List.range (dRows d)).findSome? fun r => match s.pageAt listFail d r with
    | .stop st => some (r, st)
    | _ => none)

/-- The MA of the first byte of row r of a page operation, none where its page is absent or its entry stops it. -/
def State.pageRow (s : State) (listFail : Option Nat) (d : List Byte) (r : Nat) : Option Nat :=
  match s.pageAt listFail d r with
  | .page p => some ((if dOp d = 5 then dSrc d else dDst d) + p * dPageStride d + (dT0 d + r) % 16 * dLen d)
  | .absent | .stop _ => none

/-- The moves of a page operation up to the row that stops it (R145): an absent page's rows have no source. -/
def State.pageMoves (s : State) (listFail : Option Nat) (d : List Byte) (rows : Nat) : List Move :=
  let len := dLen d
  let other := if dOp d = 5 then dstSide d else srcSide d
  (((List.range rows).map fun r =>
    let pg := s.pageRow listFail d r
    (List.range len).map fun o =>
      let here := s.locOf other.sp (other.base + r * other.stride) o
      let there := match pg with
        | some a => s.locOf 0 (a + o) 0
        | none => Loc.nowhere
      (if dOp d = 5 then ⟨r * len + o, there, here⟩ else ⟨r * len + o, here, there⟩ : Move))).flatten

/-- The absent tokens among the first rows (R146). -/
def State.absentRows (s : State) (d : List Byte) (rows : Nat) : Nat :=
  countBelow (fun r => decide (s.pageAt none d r = .absent)) rows

/-- The bytes of the list entries that a page operation reads (R145). -/
def listSpan (d : List Byte) : Nat × Nat := (listMa d 0, 4 * ((dT0 d + dRows d - 1) / 16 - dT0 d / 16 + 1))

/-- The module-memory ranges that a descriptor touches, for R315. -/
def State.dRanges (s : State) (d : List Byte) : List (Nat × Nat) :=
  let a := srcSide d
  let b := dstSide d
  let paged := decide (dOp d = 5 ∨ dOp d = 6)
  (if a.sp = 0 ∧ dOp d ≠ 2 ∧ dOp d ≠ 5 then [(a.base, a.span)] else [])
    ++ (if b.sp = 0 ∧ dOp d ≠ 7 ∧ dOp d ≠ 6 then [(b.base, b.span)] else [])
    ++ (if paged then listSpan d :: (List.range (dRows d)).filterMap fun r => (s.pageRow none d r).map fun p => (p, dLen d) else [])

/-- Mark a descriptor started: it goes on whichever context runs (R137, R152). -/
def State.dmaStart (s : State) (key i : Nat) (d : Desc) : State :=
  let q := s.dq key
  s.setDq key { q with items := q.items.set i { d with started := true } }

/-- Run the next descriptor of a queue if it is of the operation given (R137, R150): it has started or its conditions are met and it is not
rejected, and the snoop filter is clear of its lines (R315). -/
def State.dmaRun (s : State) (q : QRef) (op : List Nat → Bool) (act : State → Nat → Nat → Desc → State) : State :=
  let key := qKey q
  let s := s.dmaSettle key 17
  match (s.dq key).nextItem with
  | some (i, d) =>
    if op [dOp d.bytes, dMemop d.bytes] = true ∧ s.mayStart key (s.dq key) d = true ∧ s.heldStatus key d = 0 then
      (if dEmpty d.bytes then s.dmaFinish key i d (dTag d.bytes) St.DMA_DONE 0 0 0
       else (s.dmaStart key i d).coherent (s.dRanges d.bytes) fun s => act s key i { d with started := true }).dmaSettle key 17
    else s
  | none => s

end Sys2Proof.Machine
end

