-- ==== Sys2Proof/Machine/AttnOps.lean ====
section
/-! DEFINITION. What the two attention commands share (chapter 08): the descriptor and its rejection, key and value rows,
rotary codes, operand sets, products on the churn, masks, completion records. -/

namespace Sys2Proof.Machine

/-! ### The descriptor (Table 08-2) -/

/-- PASS: 0 forward, 1 backward. -/
def aPass (d : List Byte) : Nat := bits (fld d 0 1) 1 0
/-- INIT. -/
def aInit (d : List Byte) : Bool := bit (fld d 0 1) 2
/-- FINAL. -/
def aFinal (d : List Byte) : Bool := bit (fld d 0 1) 3
/-- SHADOW. -/
def aShadow (d : List Byte) : Bool := bit (fld d 0 1) 4
/-- ROPE_Q. -/
def aRopeQ (d : List Byte) : Bool := bit (fld d 0 1) 5
/-- ROPE_K. -/
def aRopeK (d : List Byte) : Bool := bit (fld d 0 1) 6
/-- ROPE_PAIR. -/
def aRopePair (d : List Byte) : Bool := bit (fld d 0 1) 7
/-- The head dimension D. -/
def aDim (d : List Byte) : Nat := 16 * bits (fld d 1 1) 4 0
/-- OUT_FMT: true for FP32. -/
def aOut32 (d : List Byte) : Bool := bit (fld d 1 1) 5
/-- ABSENT_KEYS. -/
def aAbsent (d : List Byte) : Bool := bit (fld d 1 1) 6
/-- ROT_PAIRS. -/
def aRot (d : List Byte) : Nat := fld d 2 1
/-- QK_GAIN. -/
def aQkGain (d : List Byte) : Nat := bits (fld d 3 1) 2 0
/-- PV_GAIN. -/
def aPvGain (d : List Byte) : Nat := bits (fld d 3 1) 5 3
/-- BWD_GAIN. -/
def aBwdGain (d : List Byte) : Nat := bits (fld d 4 1) 2 0
/-- KG, the key blocks of a group. -/
def aGroup (d : List Byte) : Nat := bits (fld d 4 1) 4 3 + 1
/-- KV_HEAD. -/
def aHead (d : List Byte) : Nat := fld d 5 1
/-- QROWS. -/
def aRows (d : List Byte) : Nat := fld d 6 2
/-- KEYS. -/
def aKeys (d : List Byte) : Nat := bits (fld d 8 4) 24 0
/-- Q_POS0. -/
def aQPos (d : List Byte) : Nat := bits (fld d 12 4) 23 0
/-- K_POS0. -/
def aKPos (d : List Byte) : Nat := bits (fld d 16 4) 23 0
/-- T0. -/
def aT0 (d : List Byte) : Nat := bits (fld d 20 4) 23 0
/-- SCORE_SCALE. -/
def aScale (d : List Byte) : Word := BitVec.ofNat 32 (fld d 24 4)
/-- GRAD_SCALE. -/
def aGrad (d : List Byte) : Word := BitVec.ofNat 32 (fld d 28 4)
/-- Q_ADDR. -/
def aQ (d : List Byte) : Nat := bits (fld d 32 4) 23 0
/-- STATE_ADDR. -/
def aState (d : List Byte) : Nat := bits (fld d 36 4) 23 0
/-- OUT_ADDR. -/
def aOut (d : List Byte) : Nat := bits (fld d 40 4) 23 0
/-- DO_ADDR. -/
def aDo (d : List Byte) : Nat := bits (fld d 44 4) 23 0
/-- STATS_ADDR. -/
def aStats (d : List Byte) : Nat := bits (fld d 48 4) 23 0
/-- WORK_ADDR. -/
def aWork (d : List Byte) : Nat := bits (fld d 52 4) 23 0
/-- DKV_MA. -/
def aDkv (d : List Byte) : Nat := bits (fld d 56 8) 38 0
/-- LIST_MA. -/
def aList (d : List Byte) : Nat := bits (fld d 64 8) 38 0
/-- K_POOL. -/
def aKPool (d : List Byte) : Nat := bits (fld d 72 8) 38 0
/-- V_POOL. -/
def aVPool (d : List Byte) : Nat := bits (fld d 80 8) 38 0
/-- PAGE_STRIDE. -/
def aStride (d : List Byte) : Nat := fld d 88 4
/-- POOL_PAGES. -/
def aPool (d : List Byte) : Nat := fld d 92 4
/-- H_KV. -/
def aHkv (d : List Byte) : Nat := fld d 96 1
/-- ACC_KV. -/
def aAccKv (d : List Byte) : Bool := bit (fld d 97 1) 0
/-- MIN_STREAM. -/
def aMin (d : List Byte) : Nat := fld d 98 2
/-- TID_BASE. -/
def aTid (d : List Byte) : Nat := fld d 100 4
/-- MASK_MA. -/
def aMask (d : List Byte) : Nat := bits (fld d 104 8) 38 0
/-- ROPE_MA. -/
def aRope (d : List Byte) : Nat := bits (fld d 112 8) 38 0
/-- TAG. -/
def aTag (d : List Byte) : Nat := fld d 120 2
/-- SIGNAL_SYNC. -/
def aSync (d : List Byte) : Nat := fld d 122 2
/-- SIGNAL. -/
def aSignal (d : List Byte) : Bool := bit (fld d 124 1) 0
/-- LAST. -/
def aLast (d : List Byte) : Bool := bit (fld d 124 1) 1
/-- The bytes of a token row, LEN (R160). -/
def aLen (d : List Byte) : Nat := 2 * aDim d * aHkv d
/-- H: the dimension halves (R159). -/
def aHalves (d : List Byte) : Nat := if aDim d ≤ 128 then 1 else 2

/-- A reserved field, or one that the pass leaves unused, is nonzero (Table 08-2, R158). -/
def aReserved (d : List Byte) : Bool :=
  let hi := fun o => decide (fld d (o + 3) 1 ≠ 0)
  bit (fld d 1 1) 7 || decide (fld d 3 1 / 64 ≠ 0 ∨ fld d 4 1 / 32 ≠ 0 ∨ fld d 8 4 / 2 ^ 25 ≠ 0)
    || hi 12 || hi 16 || hi 20 || hi 32 || hi 36 || hi 40 || hi 44 || hi 48 || hi 52
    || ([56, 64, 72, 80, 104, 112].any fun o => decide (fld d o 8 / 2 ^ 39 ≠ 0))
    || decide (fld d 97 1 / 2 ≠ 0 ∨ fld d 124 1 / 4 ≠ 0 ∨ fld d 125 3 ≠ 0)
    || (decide (aPass d = 0) && (decide (aGrad d ≠ 0 ∨ aDo d ≠ 0 ∨ aDkv d ≠ 0 ∨ aGroup d ≠ 1) || aAccKv d))

/-- The state block of a call (Table 08-3). -/
def aStateArea (d : List Byte) : Nat × Nat := (aState d, (if aPass d = 0 then 32768 else 0) + 2097152 * aHalves d)

/-- The statistics of a call (Table 08-3). -/
def aStatsArea (d : List Byte) : Nat × Nat := (aStats d, 8 * aRows d)

/-- The work area of a call (Table 08-3). -/
def aWorkArea (d : List Byte) : Nat × Nat :=
  let n := aRows d
  let h := aHalves d
  (aWork d, if aPass d = 0 then n * (128 * h + 1152) + 98304 * h
    else n * (256 * h + 1024 + 256 * aGroup d) + h * (131072 + 131072 * aGroup d))

/-- The areas of a call in the region store (Table 08-3). -/
def aAreas (d : List Byte) : List (Nat × Nat) := [aStateArea d, aStatsArea d, aWorkArea d]

/-- Whether two of the areas overlap. -/
def areasMeet : List (Nat × Nat) → Bool
  | [] => false
  | a :: t => t.any (fun b => decide (a.1 < b.1 + b.2 ∧ b.1 < a.1 + a.2)) || areasMeet t

/-- The mask descriptor (Table 08-5), none where there is no mask or it cannot be read. -/
def State.aMaskDesc (s : State) (d : List Byte) : Option (List Byte) :=
  if aMask d = 0 ∨ (s.readFail (aMask d) 32).isSome = true then none else some (s.memBytes (aMask d) 32)

/-- Bytes that a call reads from its region store; a byte past its end, which no rule gives, is free (log entry 5). -/
def State.areaBytes (s : State) (region a n : Nat) : List Byte :=
  (List.range n).map fun i => match s.regionLoc region (a + i) with
    | some (k, o) => s.storeByte k o
    | none => Config.undefByte s.free (a + i)

/-- A mask descriptor's rejection (R167): 0 where it has none. -/
def maskReject : Option (List Byte) → Nat
  | none => 0
  | some m =>
    if fld m 0 1 / 16 ≠ 0 ∨ fld m 2 2 ≠ 0 ∨ fld m 7 1 ≠ 0 ∨ fld m 11 1 ≠ 0 ∨ fld m 12 4 / 2 ^ 25 ≠ 0 ∨ fld m 16 8 / 2 ^ 39 ≠ 0
      ∨ fld m 24 8 / 2 ^ 39 ≠ 0 then St.CMD_RESERVED_NONZERO
    else if bit (fld m 0 1) 3 = true ∧ (fld m 1 1 < 10 ∨ 16 < fld m 1 1) then St.CMD_BAD_FIELD
    else if 16777216 < bits (fld m 12 4) 24 0 ∨ fld m 16 8 % 4 ≠ 0 ∨ fld m 24 8 % 8 ≠ 0 then St.CMD_BAD_FIELD
    else 0

/-- The status with which a call is rejected, in the order of R177; 0 where it is not. -/
def State.aReject (s : State) (region : Nat) (d : List Byte) : Nat :=
  let mr := maskReject (s.aMaskDesc d)
  if aReserved d ∨ mr = St.CMD_RESERVED_NONZERO then St.CMD_RESERVED_NONZERO
  else if 1 < aPass d ∨ aDim d = 0 ∨ 256 < aDim d ∨ aRows d = 0 ∨ 4096 < aRows d ∨ aKeys d = 0 ∨ 16777216 < aKeys d
      ∨ aPool d = 0 ∨ aHkv d = 0 ∨ 64 < aHkv d ∨ aDim d / 2 < aRot d ∨ aHkv d ≤ aHead d ∨ aStride d < 16 * aLen d
      ∨ aState d % 512 ≠ 0 ∨ aWork d % 512 ≠ 0 ∨ aStats d % 8 ≠ 0 ∨ mr ≠ 0 then St.CMD_BAD_FIELD
  else if (aAreas d).any (fun a => decide (s.regionSize region < a.1 + a.2)) || areasMeet (aAreas d) then St.CMD_BAD_FIELD
  else if 16777216 < aQPos d + aRows d ∨ 16777216 < aKPos d + aKeys d then St.ATTN_POSITION_RANGE
  else if 16777216 < aT0 d + aKeys d then St.DMA_BAD_FIELD
  else 0

/-! ### Rows -/

/-- The BF16 elements of a row, widened (R99). -/
def rowOf (bs : List Byte) (n : Nat) : List Word := (List.range n).map fun i => bf16.widen (fld bs (2 * i) 2)

/-- A key or value row: its page, an absent page, or what stops the call (R145, R146, R161): a status plus 65,536 times the MA
that failed. -/
def State.aRow (s : State) (d : List Byte) (pool k : Nat) : Except Nat (Option (List Word)) :=
  let t := aT0 d + k
  let la := aList d + 4 * (t / 16)
  match s.readFail la 4 with
  | some (o, st) => .error (st + 65536 * (la + o))
  | none =>
    let l := leNat (s.memBytes la 4)
    if l = 0xFFFFFFFF then (if aAbsent d then .ok none else .error St.DMA_PAGE_ABSENT)
    else if aPool d ≤ l then .error St.DMA_PAGE_RANGE
    else
      let a := pool + l * aStride d + t % 16 * aLen d + 2 * aDim d * aHead d
      match s.readFail a (2 * aDim d) with
      | some (o, st) => .error (st + 65536 * (a + o))
      | none => .ok (some (rowOf (s.memBytes a (2 * aDim d)) (aDim d)))

/-- Whether key j of a call lies in an absent page under ABSENT_KEYS (R161). -/
def State.keyAbsent (s : State) (d : List Byte) (j : Nat) : Bool :=
  let la := aList d + 4 * ((aT0 d + j) / 16)
  aAbsent d && (s.readFail la 4).isNone && decide (leNat (s.memBytes la 4) = 0xFFFFFFFF)

/-- One rotated pair of a row (R163). -/
def ropePair (f pos i0 i1 : Nat) (row : List Word) : List Word :=
  let ph := pos * f % 2 ^ 33
  let x : Word := BitVec.ofNat 32 (fp32.ofDy (ph : Nat) (-32) false)
  let cs := funcOne false 13 x
  let sn := funcOne false 12 x
  let a := row.getD i0 0
  let b := row.getD i1 0
  let u := mul32 b sn
  let v := mul32 b cs
  (row.set i0 (fma32 a cs (u ^^^ 0x80000000))).set i1 (fma32 a sn v)

/-- A row with its rotary codes (R163). -/
def State.rotated (s : State) (d : List Byte) (on : Bool) (pos : Nat) (row : List Word) : List Word :=
  if on then (List.range (aRot d)).foldl (fun row i =>
    let f := leNat (s.memBytes (aRope d + 4 * i) 4)
    if aRopePair d then ropePair f pos i (i + aRot d) row else ropePair f pos (2 * i) (2 * i + 1) row) row
  else row

/-- The status with which the frequency words cannot be read, 0 where they can. -/
def State.ropeFail (s : State) (d : List Byte) : Nat :=
  if (aRopeQ d || aRopeK d) && decide (0 < aRot d) then
    (match s.readFail (aRope d) (4 * aRot d) with
      | some (o, st) => st + 65536 * (aRope d + o)
      | none => 0) else 0

/-! ### Operand sets (R164) -/

/-- An operand set: its exponent and the codes of its rows. -/
structure CodeSet where
  e    : Int
  rows : List (List Int)
  deriving DecidableEq, Repr

/-- Convert an operand set (R164): mode RND with the words drawn by row and element; a NaN or infinity stops the call. -/
def codeSet (rows : List (List Word)) (mode : Nat) (u : Nat → Nat → Nat) : Except Nat CodeSet :=
  let vs := (rows.map fun r => r.map val32)
  if vs.any fun r => r.any fun v => !v.isFin then .error St.ATTN_NUMERIC else
  let e := freeExp vs.flatten 277 (-150)
  .ok { e := e, rows := vs.zipIdx.map fun r => r.1.zipIdx.map fun x => (quantOne e mode (u r.2 x.2) x.1).1 }

/-- Half h of a row. -/
def halfOf (h : Nat) (row : List Word) : List Word := (row.drop (128 * h)).take 128

/-- One set per half of the rows; `base` is the row number of the first, for the draws. -/
def halfSets (halves : Nat) (rows : List (List Word)) (mode : Nat) (u : Nat → Nat → Nat) : Except Nat (List CodeSet) :=
  (List.range halves).mapM fun h => codeSet (rows.map (halfOf h)) mode fun r x => u r (128 * h + x)

/-- SCALE of a product (R165); one that is not finite stops the call. -/
def scaleOf (ea eb : Int) (g : Nat) (factor : Word) : Except Nat Word :=
  let n := scaleBy 2064512 (511 * 2 ^ g) (-(ea + eb))
  let w := mul32 (BitVec.ofNat 32 (fp32.ofQ false n.1 n.2)) factor
  if (val32 w).isFin then .ok w else .error St.ATTN_NUMERIC

/-! ### Products on the churn -/

/-- The counts of a call: draws used, clipped codes, gain retries, vectors still clipped after them, FP32 overflow, streams
shortened into shadow mode, streams that FALLBACK moved there, analogue streams, block pairs run and skipped, clamps. -/
structure Tally where
  draws   : Nat
  clips   : Nat
  retries : Nat
  unres   : Bool
  overf   : Bool
  short   : Nat
  fell    : Nat
  analog  : Nat
  ran     : Nat
  skipped : Nat
  clamps  : Nat
  deriving DecidableEq, Repr

/-- No counts. -/
def tallyNone (draws : Nat) : Tally :=
  { draws := draws, clips := 0, retries := 0, unres := false, overf := false, short := 0, fell := 0, analog := 0, ran := 0, skipped := 0, clamps := 0 }

/-- The output codes of one vector's exact sums at gain g - r (R26, R27, R44). -/
def codesAt (shadow : Bool) (draws g : Nat) (ps : List Int) : List Int :=
  ps.zipIdx.map fun p => let c := idealCode p.1 g; if shadow then c else analogOf (draws + p.2) c

/-- One vector under RETRY (R29): `fuel` re-launches are left. The codes and the retries taken. -/
def retryVector (shadow : Bool) (g r : Nat) (ps : List Int) (t : Tally) : Nat → List Int × Nat × Tally
  | fuel =>
    let c := codesAt shadow t.draws (g - r) ps
    let n := (c.filter clippedCode).length
    let t := { t with draws := t.draws + ps.length }
    if n = 0 then (c, r, t)
    else if g ≤ r then (c, r, { t with clips := t.clips + n })
    else match fuel with
      | 0 => (c, r, { t with clips := t.clips + n, unres := true })
      | k + 1 => retryVector shadow g (r + 1) ps { t with retries := t.retries + 1 } k

/-- One vector streamed and accumulated into its destination elements (R28). -/
def accVector (shadow : Bool) (g : Nat) (scale : Word) (ps : List Int) (t : Tally) (d : List Word) : List Word × Tally :=
  let x := retryVector shadow g 0 ps t 2
  let sigma := scale32 scale x.2.1
  let out := (x.1.zip d).map fun p => fma32 (int32 p.1) sigma p.2
  (out, { x.2.2 with overf := x.2.2.overf || (d.zip out).any fun p => accOverflow sigma p.1 p.2 })

/-- The exact product of two code vectors (R25). -/
def dotCodes (a b : List Int) : Int := (a.zip b).foldl (fun s p => s + p.1 * p.2) 0

/-- Column n of held codes. -/
def colOf (rows : List (List Int)) (n : Nat) : List Int := rows.map fun r => r.getD n 0

/-- Whether a product is a shadow-mode one whatever the light (R44, R154): SHADOW, a stream shorter than MIN_STREAM, the churn's bit in
OD 0x2200:04. A churn with a retired row or column runs its products in shadow mode too. -/
def State.aForced (s : State) (region : Nat) (d : List Byte) (n : Nat) : Bool :=
  let c := s.churn region
  aShadow d || decide (n < aMin d) || bit (s.odg 0x2200 0x04) region || !c.badRows.isEmpty || !c.badCols.isEmpty

/-- Whether the churn has no light, so that FALLBACK 1 moves its streams to shadow mode (R52, R53). -/
def State.aUnlit (s : State) (region : Nat) : Bool :=
  decide ((s.churn region).st = .relighting ∨ (s.churn region).st = .retired)

/-- Whether a product runs in shadow mode (R154). -/
def State.aShadowFor (s : State) (region : Nat) (d : List Byte) (n : Nat) : Bool := s.aForced region d n || s.aUnlit region

/-- Count k streams of n vectors each (R53, R58, Table 08-9). -/
def State.streams (s : State) (region : Nat) (d : List Byte) (n k : Nat) (t : Tally) : Tally :=
  { t with short := t.short + (if aShadow d = false ∧ n < aMin d then k else 0)
           fell := t.fell + (if s.aForced region d n = false ∧ s.aUnlit region = true then k else 0)
           analog := t.analog + (if s.aShadowFor region d n then 0 else k) }

/-- The scores of one query row against a key block (R155, R165): half 0 then half 1 into one FP32 element. -/
def scoreRow (shadow : Bool) (g : Nat) (scales : List Word) (q k : List CodeSet) (r nb : Nat) (t : Tally) : List Word × Tally :=
  (List.range scales.length).foldl (fun (acc : List Word × Tally) h =>
    let qr := ((q.getD h ⟨0, []⟩).rows).getD r []
    let ps := ((k.getD h ⟨0, []⟩).rows).map (dotCodes qr)
    accVector shadow g (scales.getD h 0) ps acc.2 acc.1) (List.replicate nb 0, t)

/-! ### Masks (R166, R167) -/

/-- The document list of a mask, or the status that stops the call (R167). -/
def State.docList (s : State) : Option (List Byte) → Except Nat (List Nat)
  | none => .ok []
  | some m =>
    let n := bits (fld m 12 4) 24 0
    let a := bits (fld m 16 8) 38 0
    if bit (fld m 0 1) 2 = false ∨ n = 0 then .ok [] else
    match s.readFail a (4 * n) with
    | some (o, st) => .error (st + 65536 * (a + o))
    | none =>
      let l := (List.range n).map fun i => leNat (s.memBytes (a + 4 * i) 4)
      if l.any (fun x => decide (16777216 ≤ x)) || (l.zip (l.drop 1)).any fun p => decide (p.2 ≤ p.1) then .error St.ATTN_BAD_MASK
      else .ok l

/-- Whether key position pk is admissible for query position pq (Table 08-6). -/
def State.allows (s : State) (m : Option (List Byte)) (docs : List Nat) (pq pk : Nat) : Bool :=
  match m with
  | none => true
  | some m =>
    let f := fld m 0 1
    let l := fld m 1 1
    let seg := fun p => (docs.filter fun x => decide (x ≤ p)).length
    let b := pq / 2 ^ l * 2 ^ (24 - l) + pk / 2 ^ l
    (!(bit f 0) || decide (pk ≤ pq))
      && (!(bit f 1) || decide (pq ≤ pk + bits (fld m 4 4) 23 0 ∧ pk ≤ pq + bits (fld m 8 4) 23 0))
      && (!(bit f 2) || decide (seg pq = seg pk))
      && (!(bit f 3) || bit (s.memByte (bits (fld m 24 8) 38 0 + b / 8)).toNat (b % 8))

/-! ### Completion (R177, Table 08-8) -/

/-- An attention queue. -/
def State.aq (s : State) (k : Nat) : DescQ := Sparse.get (fun _ => dqNone) s.attnq k

/-- Write an attention queue. -/
def State.setAq (s : State) (k : Nat) (q : DescQ) : State := { s with attnq := Sparse.set (fun _ => dqNone) s.attnq k q }

/-- The queue record of a region in a context descriptor (Table 10-6). -/
def Ctx.attnRec (x : Ctx) (region : Nat) : List Byte := sliceBytes x.desc (640 + 32 * region) 32

/-- The bytes of a completion record (Table 08-8). -/
def attnRecord (d : List Byte) (status ran skipped empty clamps h time : Nat) : List Byte :=
  leBytes 2 (aTag d) ++ leBytes 2 status ++ leBytes 4 (Nat.min ran 0xFFFFFFFF) ++ leBytes 4 (Nat.min skipped 0xFFFFFFFF)
    ++ leBytes 2 empty ++ leBytes 2 (Nat.min clamps 0xFFFF) ++ leBytes 8 h ++ leBytes 8 time

/-- Whether a status stops a call (R177). -/
def attnStops (st : Nat) : Bool :=
  stopStatus st || decide (st = St.ATTN_NUMERIC ∨ st = St.ATTN_BAD_MASK)

/-- Fill a region-store area with values that are not defined (R159, R177): free values. -/
def State.spoilRegion (s : State) (region : Nat) (a : Nat × Nat) : State :=
  (s.putRegion region a.1 ((List.range a.2).map (Config.undefByte s.free))).drawn

/-- Fill a module-memory range with values that are not defined (R177): free values. -/
def State.spoilMem (s : State) (a n : Nat) : State := (s.putMem a ((List.range n).map (Config.undefByte s.free))).drawn

/-- The ranges that a stopped call leaves without defined values (R177), besides dK and dV: its state block, its statistics, its work area,
and the output of a forward call. -/
def aSpoiled (d : List Byte) : List (Nat × Nat) :=
  [aStateArea d, aStatsArea d, aWorkArea d] ++
    (if aPass d = 0 then [(aOut d, aRows d * aDim d * (if aOut32 d then 4 else 2))] else [])

/-- A churn's analogue work for a call is over: its streams outside the temperature window are counted (Table 03-7), and it idles from now. -/
def State.attnLaunched (s : State) (region : Nat) (t : Tally) : State :=
  if t.analog = 0 then s else
  let e := s.driftMarks region (execNew [] false)
  let s := (s.bump 0x2203 0x07 0 (b2n e.drifted * t.analog)).bump 0x2203 0x08 0 (b2n e.outside * t.analog)
  s.setChurn region { s.churn region with idleAt := s.ctl.clock }

/-- The routine ends after a descriptor with LAST (R157): every core of the region ends its program. -/
def State.endRoutine (s : State) (region c : Nat) : State :=
  ((s.regionCores region).foldl (fun s k => s.setFile k c { s.file k c with running := false }) s).settleStarts c

/-- Finish a call (R177): its counters, its events, its record, held while the completion ring is full. -/
def State.attnDone (s : State) (region c h : Nat) (d : List Byte) (status : Nat) (t : Tally) (empty : Nat) : State :=
  let inst := 0x6000 + region * 64 + c
  let r := attnRecord d status t.ran t.skipped empty t.clamps h (s.stampOf inst)
  let s := s.stamped inst
  let k := region * 64 + c
  let q := s.aq k
  let s := s.setAq k { q with next := h + 1
                              items := q.items ++ [{ h := h, bytes := d, status := status, started := true, handed := false, flags := 0, record := some r }] }
  let s := ((s.bump 0x2910 0x01 0).bump 0x2910 0x03 0 t.ran).bump 0x2910 0x04 0 t.skipped
  let s := (s.bump 0x2910 0x06 0 t.clamps).bump 0x2910 0x07 0 t.short
  let s := if aPass d = 0 then s.bump 0x2910 0x05 0 empty else s
  let s := (((s.bump 0x2202 0x01 0 t.clips).bump 0x2202 0x02 0 t.retries).bump 0x2202 0x05 0 t.fell).attnLaunched region t
  let s := if attnStops status then
      (s.bump 0x2910 0x02 0).odp 0x2910 0x08 0 (status + region % 16 * 2 ^ 16 + region / 16 * 2 ^ 20 + c * 2 ^ 22) else s
  let s := if status = St.ATTN_NUMERIC then s.numericEvent c status 2 else s
  let s := if t.unres then s.numericEvent c St.CHURN_CLIP_UNRESOLVED 0 else s
  if t.overf then s.numericEvent c St.CHURN_ACC_OVERFLOW 6 else s

/-- Whether record slot h of an attention completion ring is free (R156, R212). -/
def State.attnFree (s : State) (qr : List Byte) (h : Nat) : Bool :=
  let n := 2 ^ fld qr 25 1
  decide (h < n ∨ h - n < (s.objVal ((fld qr 10 2 + 1) % 65536)).toNat)

/-- Write the finished call's record when its ring has room, then signal (R156, R177). -/
def State.attnFlush (s : State) (region c : Nat) : State :=
  let k := region * 64 + c
  let q := s.aq k
  let qr := (s.ctx c).attnRec region
  match q.items with
  | i :: t =>
    if s.attnFree qr i.h then
      let a := fld qr 16 8 + 32 * (i.h % 2 ^ fld qr 25 1)
      let s := match s.locOf 1 a 0 with
        | .core n o => s.putStoreRun n o (i.record.getD [])
        | _ => s
      let s := (s.setAq k { q with items := t, written := i.h + 1 }).traced 3 0 region i.status (aTag i.bytes) i.h
      let s := if aSignal i.bytes then s.signal (aSync i.bytes) 1 else s
      if aLast i.bytes then s.endRoutine region c else s
    else s
  | [] => s

/-- The ranges of module memory that a call touches (R315): its mask and list, its page list, its key and value rows, its rotary words,
its dK and dV. -/
def State.aRanges (s : State) (d : List Byte) : List (Nat × Nat) :=
  let rows := fun pool => (List.range (aKeys d)).map fun j =>
    let t := aT0 d + j
    (pool + leNat (s.memBytes (aList d + 4 * (t / 16)) 4) * aStride d + t % 16 * aLen d + 2 * aDim d * aHead d, 2 * aDim d)
  let mask := match s.aMaskDesc d with
    | none => []
    | some m => [(aMask d, 32), (bits (fld m 16 8) 38 0, if bit (fld m 0 1) 2 then 4 * bits (fld m 12 4) 24 0 else 0),
        (bits (fld m 24 8) 38 0, if bit (fld m 0 1) 3 then 2 ^ (45 - 2 * fld m 1 1) else 0)]
  mask ++ [(aList d + 4 * (aT0 d / 16), 4 * ((aT0 d + aKeys d - 1) / 16 - aT0 d / 16 + 1)),
      (aRope d, if aRopeQ d || aRopeK d then 4 * aRot d else 0),
      (aDkv d, if aPass d = 1 then 8 * aKeys d * aDim d else 0)]
    ++ rows (aKPool d) ++ rows (aVPool d)

/-- What keeps a call waiting for light, as a STREAM of its churn would wait (R32, R47): where it has an analogue product, a DARK churn wakes,
and WAKING, CALIBRATING and the calibration of a new symbol rate pass first. -/
def State.attnWait (s : State) (region : Nat) (d : List Byte) : Option State :=
  let x := s.churn region
  if s.aForced region d (aRows d) && (decide (aPass d = 0) || s.aForced region d (aKeys d)) then none else
  match x.st with
  | .dark => some (s.setChurn region { x with st := .waking })
  | .waking | .calibrating => some s
  | .relighting | .retired => none
  | .ready | .streaming => if x.rateDue then some (s.boundary region) else none

/-- Take the next announced descriptor of a region's queue when the routine runs and the call is of the pass given; a call
that is rejected completes unexecuted (R156, R157, R177). -/
def State.attnCall (s : State) (region pass : Nat) (env : MemEnv) (act : State → Nat → Nat → List Byte → State) : State :=
  match s.runningCtx with
  | none => s
  | some c =>
    let s := s.attnFlush region c
    let k := region * 64 + c
    let q := s.aq k
    let qr := (s.ctx c).attnRec region
    let a := fld qr 0 8 + 128 * (q.next % 2 ^ fld qr 9 1)
    if fld qr 9 1 ≠ 0 ∧ q.items = [] ∧ q.next < (s.objVal (fld qr 10 2)).toNat ∧
        (s.regionCores region).all (fun n => (s.file n c).running && !(s.file n c).faulted) = true then
      let d := match s.locOf 1 a 0 with
        | .core n o => s.storeBytes n o 128
        | _ => List.replicate 128 0
      s.coherent (if aMask d = 0 then [] else [(aMask d, 32)]) fun s =>
        let st := s.aReject region d
        if st ≠ 0 then (s.attnDone region c q.next d st (tallyNone s.free) 0).attnFlush region c
        else if aPass d = pass then
          match s.attnWait region d with
          | some t => t
          | none => s.coherent (s.aRanges d) fun s =>
            (s.within env fun s => act ((s.aRanges d).foldl (fun s r => s.fetched r.1 r.2) s) c q.next d).attnFlush region c
        else s
    else s

/-- A storage status that stopped a call is a storage event (R177, R391). -/
def State.attnStorage (s : State) (c status a : Nat) : State :=
  if storageStatus status then (s.metPoison status a).storageEvent (some c) status a else s

end Sys2Proof.Machine
end

