-- ==== Sys2Proof/Machine/Attention.lean ====
section
/-! DEFINITION. The attention commands (chapter 08): one forward or backward call of a region's queue, whole. -/

namespace Sys2Proof.Machine

/-- What a call reads before its blocks: query rows after rotary, the mask and its document list. -/
structure AttnIn where
  q    : List (List Word)
  mask : Option (List Byte)
  docs : List Nat

/-- The place of a stopping status in the order of R177. -/
def stopRank (why : Nat) : Nat :=
  let st := why % 65536
  if st = St.ATTN_NUMERIC then 0 else if st = St.ATTN_BAD_MASK then 1 else if st = St.DMA_PAGE_ABSENT then 2
  else if st = St.DMA_PAGE_RANGE then 3 else 4

/-- The first that applies of the reasons to stop that arise together (R177). -/
def firstStop (l : List Nat) : Option Nat :=
  l.foldl (fun (a : Option Nat) w => match a with
    | none => some w
    | some v => if stopRank w < stopRank v then some w else some v) none

/-- The reason to stop that a result holds. -/
def stopOf {α : Type} (x : Except Nat α) : List Nat :=
  match x with
  | .ok _ => []
  | .error w => [w]

/-- Whether rows hold a NaN or an infinity (R164). -/
def numericIn (rows : List (List Word)) : List Nat :=
  if rows.any fun r => r.any fun w => !(val32 w).isFin then [St.ATTN_NUMERIC] else []

/-- Read the inputs of a call, or the status that stops it; `also` are the reasons that other inputs give. -/
def State.attnRead (s : State) (region : Nat) (d : List Byte) (also : List Nat) : Except Nat AttnIn :=
  let rope := s.ropeFail d
  let mask := s.aMaskDesc d
  let maskBad := if aMask d = 0 then [] else match s.readFail (aMask d) 32 with
    | some (o, st) => [st + 65536 * (aMask d + o)]
    | none => []
  let docs := s.docList mask
  let n := aDim d
  let q := (List.range (aRows d)).map fun r =>
    s.rotated d (aRopeQ d) (aQPos d + r) (rowOf (s.areaBytes region (aQ d + 2 * n * r) (2 * n)) n)
  let stops := also ++ (if rope = 0 ∨ aRopeQ d = false then numericIn q else []) ++ stopOf docs ++ (if rope = 0 then [] else [rope]) ++ maskBad
  match firstStop stops with
  | some w => .error w
  | none => .ok { q := q, mask := mask, docs := (docs.toOption).getD [] }

/-- The key rows of a block, none in absent pages (R155, R161). -/
def State.keyRows (s : State) (d : List Byte) (b : Nat) : Except Nat (List (Option (List Word))) :=
  (List.range (Nat.min 128 (aKeys d - 128 * b))).mapM fun j => do
    let row ← s.aRow d (aKPool d) (128 * b + j)
    pure (row.map (s.rotated d (aRopeK d) (aKPos d + (128 * b + j))))

/-- The value rows of a block. -/
def State.valRows (s : State) (d : List Byte) (b : Nat) : Except Nat (List (Option (List Word))) :=
  (List.range (Nat.min 128 (aKeys d - 128 * b))).mapM fun j => s.aRow d (aVPool d) (128 * b + j)

/-- The operand sets of a block's rows, zeros for absent ones (R164). -/
def blockSets (d : List Byte) (rows : List (Option (List Word))) : Except Nat (List CodeSet) :=
  halfSets (aHalves d) (rows.map fun r => r.getD (List.replicate (aDim d) 0)) 0 fun _ _ => 0

/-- The scales of the products of operand sets taken in pairs (R165). -/
def pairScales (g : Nat) (factor : Word) (a b : List CodeSet) : Except Nat (List Word) :=
  (a.zip b).mapM fun p => scaleOf p.1.e p.2.e g factor

/-- Whether key j is admissible for query row r of a call (R166). -/
def State.admissible (s : State) (d : List Byte) (x : AttnIn) (r j : Nat) : Bool :=
  !s.keyAbsent d j && s.allows x.mask x.docs (aQPos d + r) (aKPos d + j)

/-- Whether the pair of query tile i and key block b has an admissible element (R168). -/
def State.pairLive (s : State) (d : List Byte) (x : AttnIn) (i b : Nat) : Bool :=
  (List.range (Nat.min 128 (aRows d - 128 * i))).any fun r =>
    (List.range (Nat.min 128 (aKeys d - 128 * b))).any fun j => s.admissible d x (128 * i + r) (128 * b + j)

/-- The state of a query row (R169): m (none for M_NONE), l, O. -/
structure RowSt where
  m : Option Int
  l : Word
  o : List Word
  deriving DecidableEq, Repr

/-- ceil of a finite value. -/
def ceilVal : FVal → Int
  | .fin neg m e =>
    let q := dyQ m e
    let lo : Int := (q.1 / q.2 : Nat)
    if neg then -lo else if q.1 % q.2 = 0 then lo else lo + 1
  | _ => 0

/-- 2^k as FP32 for k of at least -149, else +0.0 (R169). -/
def pow2w (k : Int) : Word := if k < -149 then 0 else BitVec.ofNat 32 (fp32.ofDy 1 k false)

/-- A weight's code (R169): min(127, round_half_even(p * 127)); whether the min acted. -/
def weightCode127 (p : Word) : Int × Bool :=
  match val32 p with
  | .fin neg m e =>
    let q := dyQ (127 * m) e
    let k : Int := (roundQ q.1 q.2 0 0 : Nat)
    if neg then (-k, false) else (if 127 < k then 127 else k, decide (127 < k))
  | .inf neg => (if neg then -127 else 127, !neg)
  | .nan => (0, false)

/-- The maximum of the admissible scores, none where one is NaN. -/
def scoreMax (s : List Word) (adm : Nat → Bool) : Option Word :=
  s.zipIdx.foldl (fun (best : Option Word) x => if adm x.2 then (match best with
    | none => some x.1
    | some w => some (max32 w x.1)) else best) none

/-- Whether a block maximum stops the call (R169): NaN, infinite, or beyond 2^24. -/
def badMax (w : Word) : Bool :=
  match val32 w with
  | .fin _ m e => let q := dyQ m e; decide (2 ^ 24 * q.2 < q.1)
  | _ => true

/-- The update of a row from a block's scores (R169), up to the codes of P: none where no key is admissible. -/
def rowUpdate (st : RowSt) (s : List Word) (adm : Nat → Bool) : Except Nat (Option (RowSt × List Int)) :=
  match scoreMax s adm with
  | none => .ok none
  | some mb =>
    if badMax mb then .error St.ATTN_NUMERIC else
    let mc := ceilVal (val32 mb)
    let mNew := match st.m with
      | none => mc
      | some m => if m < mc then mc else m
    let st := match st.m with
      | some m => if m < mNew then
          (let f := pow2w (m - mNew)
           { st with l := mul32 st.l f, o := st.o.map fun o => mul32 o f }) else st
      | none => st
    let codes := s.zipIdx.map fun x =>
      if adm x.2 then (weightCode127 (funcOne false 1 (sub32 x.1 (int32 mNew)))).1 else 0
    let lsum := codes.foldl (· + ·) 0
    .ok (some ({ st with m := some mNew, l := add32 st.l (int32 lsum) }, codes))

/-- P · V of one row: its codes through the held V block, half by half (R169). -/
def pvRow (shadow : Bool) (g : Nat) (scales : List Word) (v : List CodeSet) (codes : List Int) (t : Tally) (o : List Word) :
    List Word × Tally :=
  let halves := (List.range scales.length).foldl (fun (acc : List (List Word) × Tally) h =>
    let part := halfOf h o
    let rows := (v.getD h ⟨0, []⟩).rows
    let ps := (List.range part.length).map fun n => dotCodes codes (colOf rows n)
    let x := accVector shadow g (scales.getD h 0) ps acc.2 part
    (acc.1 ++ [x.1], x.2)) ([], t)
  (halves.1.flatten, halves.2)

/-- Read the state of a row (Table 08-3, R169). -/
def State.readRow (s : State) (region : Nat) (d : List Byte) (r : Nat) : RowSt :=
  let b := s.regionBytes region (aState d + 8 * r) 8
  let o := ((List.range (aHalves d)).map fun h =>
    let bs := s.regionBytes region (aState d + 32768 + 2097152 * h + 512 * r) 512
    (List.range 128).map fun i => (BitVec.ofNat 32 (fld bs (4 * i) 4) : Word)).flatten
  let m := sInt 32 (fld b 0 4)
  { m := if m = -2147483648 then none else some m, l := BitVec.ofNat 32 (fld b 4 4), o := o.take (aDim d) }

/-- m as its 32 bits. -/
def mBits (m : Option Int) : Nat := match m with
  | none => 0x80000000
  | some m => uNat 32 m

/-- The bytes of FP32 words. -/
def wordBytes (ws : List Word) : List Byte := (ws.map fun w => leBytes 4 w.toNat).flatten

/-- Write the state of a row. -/
def State.writeRow (s : State) (region : Nat) (d : List Byte) (r : Nat) (x : RowSt) : State :=
  let s := s.putRegion region (aState d + 8 * r) (leBytes 4 (mBits x.m) ++ leBytes 4 x.l.toNat)
  (List.range (aHalves d)).foldl (fun s h =>
    s.putRegion region (aState d + 32768 + 2097152 * h + 512 * r) (wordBytes (halfOf h x.o))) s

/-- Finalise a row (R171). -/
def State.finalRow (s : State) (region : Nat) (d : List Byte) (r : Nat) (x : RowSt) : State :=
  let rl := funcOne false 3 x.l
  let out : List Word := match x.m with
    | none => List.replicate (aDim d) 0
    | some _ => x.o.map fun o => mul32 o rl
  let bytes := if aOut32 d then wordBytes out else (out.map fun w => leBytes 2 (bf16.narrow (val32 w) 0 0).1).flatten
  let s := s.putRegion region (aOut d + bytes.length * r) bytes
  s.putRegion region (aStats d + 8 * r) (leBytes 4 (mBits x.m) ++ leBytes 4 (if x.m.isNone then 0 else x.l.toNat))

/-- One row of a forward call against one key block (R169); without the operands of its V block it gives no output, which only a call
that stops anyhow meets. -/
def State.forwardRow (s : State) (region : Nat) (d : List Byte) (x : AttnIn) (q k : List CodeSet) (qk : List Word)
    (pv : Option (List Word × List CodeSet)) (b r : Nat) (row : RowSt) (t : Tally) : Except (Nat × Tally) (RowSt × Tally) :=
  let nb := Nat.min 128 (aKeys d - 128 * b)
  let sh := s.aShadowFor region d (aRows d)
  let sc := scoreRow sh (aQkGain d) qk q k r nb t
  match rowUpdate row sc.1 fun j => s.admissible d x r (128 * b + j) with
  | .error w => .error (w, sc.2)
  | .ok none => .ok (row, sc.2)
  | .ok (some (st, codes)) =>
    match pv with
    | none => .ok (st, sc.2)
    | some (scales, v) =>
      let o := pvRow sh (aPvGain d) scales v codes sc.2 st.o
      .ok ({ st with o := o.1 }, o.2)

/-- The rows of a forward call against one key block, tile by tile; the tiles that R168 skips keep theirs. -/
def State.forwardTiles (s : State) (region : Nat) (d : List Byte) (x : AttnIn) (q k : List CodeSet) (qk : List Word)
    (pv : Option (List Word × List CodeSet)) (b : Nat) (acc : List RowSt × Tally) : Except (Nat × Tally) (List RowSt × Tally) :=
  acc.1.zipIdx.foldlM (fun (a : List RowSt × Tally) row =>
    if s.pairLive d x (row.2 / 128) b then do
      let y ← s.forwardRow region d x q k qk pv b row.2 row.1 a.2
      pure (a.1 ++ [y.1], y.2)
    else pure (a.1 ++ [row.1], a.2)) ([], acc.2)

/-- One key block of a forward call over every row (R168, R169). Its rows are read whatever the mask; of the reasons to stop that it
gives, the first of R177 stops the call. -/
def State.forwardBlock (s : State) (region : Nat) (d : List Byte) (x : AttnIn) (q : List CodeSet) (b : Nat)
    (acc : List RowSt × Tally) : Except (Nat × Tally) (List RowSt × Tally) :=
  let t := acc.2
  let kr := s.keyRows d b
  let vr := s.valRows d b
  let tiles := (aRows d + 127) / 128
  let ran := countBelow (fun i => s.pairLive d x i b) tiles
  if ran = 0 then
    (match firstStop (stopOf kr ++ stopOf vr) with
      | some w => .error (w, t)
      | none => .ok (acc.1, { t with skipped := t.skipped + tiles }))
  else
    let k := kr.bind (blockSets d)
    let v := vr.bind (blockSets d)
    let qk := k.bind fun k => pairScales (aQkGain d) (aScale d) q k
    let pv := v.bind fun v => v.mapM fun p => scaleOf 0 p.e (aPvGain d) 0x3F800000
    match k, qk, v, pv with
    | .ok k, .ok qk, .ok v, .ok pv => do
      let y ← s.forwardTiles region d x q k qk (some (pv, v)) b (acc.1, s.streams region d (aRows d) (2 * aHalves d) t)
      pure (y.1, { y.2 with ran := y.2.ran + ran, skipped := y.2.skipped + (tiles - ran) })
    | .ok k, .ok qk, _, _ =>
      (match s.forwardTiles region d x q k qk none b (acc.1, s.streams region d (aRows d) (aHalves d) t) with
        | .error e => .error ((firstStop ([e.1] ++ stopOf v ++ stopOf pv)).getD e.1, e.2)
        | .ok y => .error ((firstStop (stopOf v ++ stopOf pv)).getD 0, y.2))
    | _, _, _, _ => .error ((firstStop (stopOf k ++ stopOf qk ++ stopOf v ++ stopOf pv)).getD 0, t)

/-- The rows and counts of a forward call, or the status that stops it with the counts so far (R169). -/
def State.forwardRows (s : State) (region : Nat) (d : List Byte) : Except (Nat × Tally) (List RowSt × Tally) := do
  let t := tallyNone s.free
  let x ← (s.attnRead region d []).mapError (·, t)
  let q ← (halfSets (aHalves d) x.q 0 fun _ _ => 0).mapError (·, t)
  let rows := (List.range (aRows d)).map fun r =>
    if aInit d then ({ m := none, l := 0, o := List.replicate (aDim d) 0 } : RowSt) else s.readRow region d r
  (List.range ((aKeys d + 127) / 128)).foldlM (fun a b => s.forwardBlock region d x q b a) (rows, t)

/-- The status of a call that ran to its end (R177). -/
def attnStatus (t : Tally) : Nat := if t.unres then St.CHURN_CLIP_UNRESOLVED else St.ATTN_DONE

/-- A stopped call (R177): its ranges hold no defined values; what ran before the stop is counted. The first of the pair is a status plus
65,536 times the MA that failed. -/
def State.attnStopped (s : State) (region c h : Nat) (d : List Byte) (why : Nat × Tally) : State :=
  let st := why.1 % 65536
  let s := { s with free := why.2.draws }
  let s := (aSpoiled d).foldl (fun s a => s.spoilRegion region a) s
  let s := if aPass d = 1 then s.spoilMem (aDkv d) (8 * aKeys d * aDim d) else s
  (s.attnStorage c st (why.1 / 65536)).attnDone region c h d st why.2 0

/-- A forward call (R169-R172, R177). -/
def attnForwardCall (region : Nat) (s : State) (c h : Nat) (d : List Byte) : State :=
  match s.forwardRows region d with
  | .error w => s.attnStopped region c h d w
  | .ok (rows, t) =>
    let s := { s with free := t.draws }
    let s := rows.zipIdx.foldl (fun s r => s.writeRow region d r.2 r.1) s
    let empty := (rows.filter fun r => decide (r.m = none)).length
    let s := if aFinal d then rows.zipIdx.foldl (fun s r => s.finalRow region d r.2 r.1) s else s
    let s := s.spoilRegion region (aWorkArea d)
    s.attnDone region c h d (attnStatus t) t (if aFinal d then empty else 0)

/-- ATTN_FORWARD (R154-R172, R177): the next call of a region's queue, when it is a forward call. -/
def execAttnForward (region : BitVec 6) (env : MemEnv) (s : State) : Host.Outcome State Fault Refusal :=
  .next (s.attnCall region.toNat 0 env (attnForwardCall region.toNat))

/-! ### The backward pass -/

/-- D_r (R173): products, chunks of 16 by the tree of R79, chunk sums in order. -/
def gradDot (a b : List Word) : Word :=
  let ps := (a.zip b).map fun p => mul32 p.1 p.2
  let chunks := (List.range (ps.length / 16)).map fun i =>
    (reduce16 (fun x y => (add32 x y, 0)) (((ps.drop (16 * i)).take 16).map fun w => (w, 0))).1
  match chunks with
  | [] => 0
  | c :: t => t.foldl add32 c

/-- What a backward call holds beside its key blocks. -/
structure BackIn where
  base  : AttnIn
  q     : List CodeSet
  dO    : List CodeSet
  dOp   : List (List CodeSet)
  m     : List (Option Int)
  rl    : List Word
  dr    : List Word

/-- What a backward call accumulates: dQ rows, and dK and dV rows in key order. -/
structure BackAcc where
  dq : List (List Word)
  dk : List (List Word)
  dv : List (List Word)
  t  : Tally

/-- The word drawn for a conversion of a backward call (Table 08-4): purpose 0x02. -/
def State.attnDraw (s : State) (c tid e : Nat) : Nat := drawU (s.ctx c).seed (s.ctx c).step tid 0x02 e

/-- Read the inputs of a backward call (R173). -/
def State.backRead (s : State) (region c : Nat) (d : List Byte) : Except Nat BackIn :=
  let n := aDim d
  let rows := List.range (aRows d)
  let osz := if aOut32 d then 4 else 2
  let dO := rows.map fun r => rowOf (s.areaBytes region (aDo d + 2 * n * r) (2 * n)) n
  let o := rows.map fun r =>
    let b := s.areaBytes region (aOut d + osz * n * r) (osz * n)
    if aOut32 d then (List.range n).map fun i => (BitVec.ofNat 32 (fld b (4 * i) 4) : Word) else rowOf b n
  let st := rows.map fun r => s.regionBytes region (aStats d + 8 * r) 8
  let m := st.map fun b => if sInt 32 (fld b 0 4) = -2147483648 then none else some (sInt 32 (fld b 0 4))
  let rl := (st.zip m).map fun p => if p.2.isNone then (0 : Word) else funcOne false 3 (BitVec.ofNat 32 (fld p.1 4 4))
  let dOs := halfSets (aHalves d) dO 2 fun r e => s.attnDraw c (aTid d) (256 * r + e)
  let dOp := (dO.zip (m.zip rl)).map fun p => if p.2.1.isNone then List.replicate n (0 : Word) else p.1.map fun w => mul32 w p.2.2
  let tiles := (List.range ((aRows d + 127) / 128)).mapM fun i =>
    halfSets (aHalves d) ((dOp.drop (128 * i)).take 128) 2 fun r e => s.attnDraw c (aTid d + 1) (256 * (128 * i + r) + e)
  do
    let x ← s.attnRead region d (stopOf dOs ++ stopOf tiles)
    let q ← halfSets (aHalves d) x.q 0 fun _ _ => 0
    let dOs ← dOs
    let tiles ← tiles
    pure { base := x, q := q, dO := dOs, dOp := tiles, m := m, rl := rl, dr := (dO.zip o).map fun p => gradDot p.1 p.2 }

/-- Whether a key bears a code for a row of a backward call: admissible, and the row's statistics not reserved (R174, R175). -/
def State.bearing (s : State) (d : List Byte) (x : BackIn) (r j : Nat) : Bool :=
  s.admissible d x.base r j && (x.m.getD r none).isSome

/-- Codes and gradients of one row against one key block (R174): codes, G, counts. -/
def State.backRow (s : State) (d : List Byte) (x : BackIn) (sh : Bool) (qk dp : List Word) (k v : List CodeSet) (b nb r : Nat)
    (t : Tally) : (List Int × List Word) × Tally :=
  let sc := scoreRow sh (aQkGain d) qk x.q k r nb t
  let dP := scoreRow sh (aBwdGain d) dp x.dO v r nb sc.2
  let m := (x.m.getD r none).getD 0
  let rl := x.rl.getD r 0
  let cs := (sc.1.zipIdx).map fun w =>
    if s.bearing d x r (128 * b + w.2) then weightCode127 (funcOne false 1 (sub32 w.1 (int32 m))) else (0, false)
  let g := (cs.zip dP.1).zipIdx.map fun w =>
    if s.bearing d x r (128 * b + w.2) then mul32 (mul32 (int32 w.1.1.1) rl) (sub32 w.1.2 (x.dr.getD r 0)) else 0
  ((cs.map Prod.fst, g), { dP.2 with clamps := dP.2.clamps + (cs.filter Prod.snd).length })

/-- One streamed vector of a product with a held tile of rows, half by half: dQ, dK and dV (Table 08-1). -/
def heldRow (shadow : Bool) (g : Nat) (scales : List Word) (held : List (List (List Int))) (vec : List Int) (t : Tally)
    (o : List Word) : List Word × Tally :=
  pvRow shadow g scales (held.map fun h => ⟨0, h⟩) vec t o

/-- The operands of one key block of a backward call: its number, its K and V sets, the scales of its two products. -/
structure BackBlock where
  b  : Nat
  k  : List CodeSet
  v  : List CodeSet
  qk : List Word
  dp : List Word

/-- Read and convert one key block of a backward call; of the reasons to stop that it gives, the first of R177 (R164, R165). A block that
R168 skips for every query tile is read and not converted. -/
def State.backBlock (s : State) (d : List Byte) (x : BackIn) (b : Nat) : Except Nat BackBlock :=
  let kr := s.keyRows d b
  let vr := s.valRows d b
  if countBelow (fun i => s.pairLive d x.base i b) ((aRows d + 127) / 128) = 0 then
    (match firstStop (stopOf kr ++ stopOf vr) with
      | some w => .error w
      | none => .ok { b := b, k := [], v := [], qk := [], dp := [] })
  else
    let k := kr.bind (blockSets d)
    let v := vr.bind (blockSets d)
    let qk := k.bind fun k => pairScales (aQkGain d) (aScale d) x.q k
    let dp := v.bind fun v => pairScales (aBwdGain d) 0x3F800000 x.dO v
    match k, v, qk, dp with
    | .ok k, .ok v, .ok qk, .ok dp => .ok { b := b, k := k, v := v, qk := qk, dp := dp }
    | _, _, _, _ => .error ((firstStop (stopOf k ++ stopOf qk ++ stopOf v ++ stopOf dp)).getD 0)

/-- The codes of P and the score gradients of a group's blocks, block by block and row by row (R174). -/
def State.backCodes (s : State) (region : Nat) (d : List Byte) (x : BackIn) (blocks : List Nat) (t : Tally) :
    Except (Nat × Tally) (List BackBlock × List (List (List Int × List Word)) × Tally) :=
  let rows := aRows d
  let sh := s.aShadowFor region d rows
  blocks.foldlM (fun (acc : List BackBlock × List (List (List Int × List Word)) × Tally) b => do
    let t := acc.2.2
    let k ← (s.backBlock d x b).mapError (·, t)
    let nb := Nat.min 128 (aKeys d - 128 * b)
    let live := countBelow (fun i => s.pairLive d x.base i b) ((rows + 127) / 128)
    let t := if live = 0 then t else s.streams region d rows (2 * aHalves d) t
    let one := (List.range rows).foldl (fun (z : List (List Int × List Word) × Tally) r =>
      if s.pairLive d x.base (r / 128) b then
        let y := s.backRow d x sh k.qk k.dp k.k k.v b nb r z.2
        (z.1 ++ [y.1], y.2)
      else (z.1 ++ [(List.replicate nb 0, List.replicate nb 0)], z.2)) ([], t)
    pure (acc.1 ++ [k], acc.2.1 ++ [one.1], one.2)) ([], [], t)

/-- dQ of a group (R174): the G rows of each key block through its held K block; a row with reserved statistics keeps its value (R175). -/
def State.backDq (s : State) (region : Nat) (d : List Byte) (x : BackIn) (g : CodeSet) (b0 : Nat) (sets : List BackBlock)
    (acc : List (List Word) × Tally) : Except (Nat × Tally) (List (List Word) × Tally) :=
  let sh := s.aShadowFor region d (aRows d)
  sets.foldlM (fun (z : List (List Word) × Tally) st => do
    let sc ← (st.k.mapM fun k => scaleOf g.e k.e (aBwdGain d) (aGrad d)).mapError (·, z.2)
    let t := if st.k = [] then z.2 else s.streams region d (aRows d) (aHalves d) z.2
    pure (z.1.zipIdx.foldl (fun (y : List (List Word) × Tally) row =>
      if s.pairLive d x.base (row.2 / 128) st.b && (x.m.getD row.2 none).isSome then
        let vec := ((g.rows.getD row.2 []).drop (128 * (st.b - b0))).take 128
        let o := heldRow sh (aBwdGain d) sc (st.k.map CodeSet.rows) vec y.2 row.1
        (y.1 ++ [o.1], o.2)
      else (y.1 ++ [row.1], y.2)) ([], t))) acc

/-- dK and dV of a group (R174): the columns of G and of P through each query tile. -/
def State.backDkv (s : State) (region : Nat) (d : List Byte) (x : BackIn) (g : CodeSet) (pRows : List (List Int)) (b0 keys : Nat) (t : Tally) :
    Except (Nat × Tally) ((List (List Word) × List (List Word)) × Tally) :=
  let sh := s.aShadowFor region d keys
  let zero := List.replicate keys (List.replicate (aDim d) (0 : Word))
  (List.range ((aRows d + 127) / 128)).foldlM (fun (z : (List (List Word) × List (List Word)) × Tally) i => do
    let live := fun k => s.pairLive d x.base i (b0 + k / 128)
    if countBelow live keys = 0 then pure z else
    let sk ← (x.q.mapM fun q => scaleOf g.e q.e (aBwdGain d) (aGrad d)).mapError (·, z.2)
    let dop := x.dOp.getD i []
    let sv ← (dop.mapM fun p => scaleOf 0 p.e (aPvGain d) 0x3F800000).mapError (·, z.2)
    let qt := x.q.map fun q => (q.rows.drop (128 * i)).take 128
    let gt := (g.rows.drop (128 * i)).take 128
    let pt := (pRows.drop (128 * i)).take 128
    let dk := z.1.1.zipIdx.foldl (fun (y : List (List Word) × Tally) row =>
      if live row.2 then
        let o := heldRow sh (aBwdGain d) sk qt (colOf gt row.2) y.2 row.1
        (y.1 ++ [o.1], o.2)
      else (y.1 ++ [row.1], y.2)) ([], s.streams region d keys (2 * aHalves d) z.2)
    let dv := z.1.2.zipIdx.foldl (fun (y : List (List Word) × Tally) row =>
      if live row.2 then
        let o := heldRow sh (aPvGain d) sv (dop.map CodeSet.rows) (colOf pt row.2) y.2 row.1
        (y.1 ++ [o.1], o.2)
      else (y.1 ++ [row.1], y.2)) ([], dk.2)
    pure ((dk.1, dv.1), dv.2)) ((zero, zero), t)

/-- The status, with 65,536 times the MA, with which n bytes of dK or dV cannot be written, or added to, 0 where they can (R131, R176). -/
def State.gradFail (s : State) (acc : Bool) (a n : Nat) : Nat :=
  if n = 0 then 0 else
  ((List.range (((a + n - 1) / 32) - a / 32 + 1)).findSome? fun j =>
    let p := (a / 32 + j) * 32
    let st := if acc then s.readStatus p else s.writeStatus p (decide (a ≤ p ∧ p + 32 ≤ a + n))
    if st = 0 then none else some (st + 65536 * p)).getD 0

/-- A group of key blocks of a backward call (R174): blocks b0 to b0 + count - 1, group number gi. -/
def State.backGroup (s : State) (region c : Nat) (d : List Byte) (x : BackIn) (gi : Nat) (a : BackAcc) : Except (Nat × Tally) BackAcc := do
  let rows := aRows d
  let b0 := gi * aGroup d
  let blocks := (List.range (aGroup d)).map (b0 + ·) |>.filter fun b => decide (128 * b < aKeys d)
  let keys := Nat.min (128 * blocks.length) (aKeys d - 128 * b0)
  let tiles := (rows + 127) / 128
  let ran := ((blocks.map fun b => countBelow (fun i => s.pairLive d x.base i b) tiles)).foldl (· + ·) 0
  let cg ← s.backCodes region d x blocks a.t
  let pRows := (List.range rows).map fun r => (cg.2.1.map fun b => (b.getD r ([], [])).1).flatten
  let gRows := (List.range rows).map fun r => (cg.2.1.map fun b => (b.getD r ([], [])).2).flatten
  let g ← (codeSet gRows 2 fun r j => s.attnDraw c (aTid d + 2 + gi) (512 * r + j)).mapError (·, cg.2.2)
  let dq ← s.backDq region d x g b0 cg.1 (a.dq, cg.2.2)
  let kv ← s.backDkv region d x g pRows b0 keys dq.2
  let n := 4 * aDim d
  let k0 := s.gradFail (aAccKv d) (aDkv d + n * (128 * b0)) (n * keys)
  let v0 := s.gradFail (aAccKv d) (aDkv d + n * (aKeys d + 128 * b0)) (n * keys)
  if k0 ≠ 0 ∨ v0 ≠ 0 then .error (if k0 ≠ 0 then k0 else v0, kv.2)
  else pure { dq := dq.1, dk := a.dk ++ kv.1.1, dv := a.dv ++ kv.1.2
              t := { kv.2 with ran := kv.2.ran + ran, skipped := kv.2.skipped + (blocks.length * tiles - ran) } }

/-- The results of a backward call, or the status that stops it with the counts so far (R173-R176). -/
def State.backRows (s : State) (region c : Nat) (d : List Byte) : Except (Nat × Tally) (BackIn × BackAcc) := do
  let x ← (s.backRead region c d).mapError (·, tallyNone s.free)
  let dq := (List.range (aRows d)).map fun r =>
    if aInit d then List.replicate (aDim d) (0 : Word) else
      (((List.range (aHalves d)).map fun h =>
        let b := s.regionBytes region (aState d + 2097152 * h + 512 * r) 512
        (List.range 128).map fun i => (BitVec.ofNat 32 (fld b (4 * i) 4) : Word)).flatten).take (aDim d)
  let groups := ((aKeys d + 127) / 128 + aGroup d - 1) / aGroup d
  let a ← (List.range groups).foldlM (fun a gi => s.backGroup region c d x gi a)
    ({ dq := dq, dk := [], dv := [], t := tallyNone s.free } : BackAcc)
  pure (x, a)

/-- Write dK or dV rows at their MA (R176): replaced, or added to the values there; sectors written whole lose their poison (R131). -/
def State.writeGrads (s : State) (acc : Bool) (base : Nat) (rows : List (List Word)) : State :=
  let ws := rows.flatten.zipIdx.map fun w =>
    if acc then add32 (BitVec.ofNat 32 (leNat (s.memBytes (base + 4 * w.2) 4))) w.1 else w.1
  (s.writeRun base (wordBytes ws)).1

/-- A backward call (R173-R177). -/
def attnBackwardCall (region : Nat) (s : State) (c h : Nat) (d : List Byte) : State :=
  match s.backRows region c d with
  | .error w => s.attnStopped region c h d w
  | .ok (x, a) =>
    let s := { s with free := a.t.draws }
    let s := a.dq.zipIdx.foldl (fun s row => (List.range (aHalves d)).foldl (fun s k =>
      s.putRegion region (aState d + 2097152 * k + 512 * row.2) (wordBytes (halfOf k row.1))) s) s
    let s := (s.writeGrads (aAccKv d) (aDkv d) a.dk).writeGrads (aAccKv d) (aDkv d + 4 * aDim d * aKeys d) a.dv
    let s := s.spoilRegion region (aWorkArea d)
    s.attnDone region c h d (attnStatus a.t) a.t (x.m.filter Option.isNone).length

/-- ATTN_BACKWARD (R173-R177): the next call of a region's queue, when it is a backward call. -/
def execAttnBackward (region : BitVec 6) (env : MemEnv) (s : State) : Host.Outcome State Fault Refusal :=
  .next (s.attnCall region.toNat 1 env (attnBackwardCall region.toNat))

end Sys2Proof.Machine
end

