-- ==== Sys2Proof/Machine/Churn.lean ====
section
/-! DEFINITION. The churn commands and events (chapters 02, 03). A command row acts when that command stands at the head of
the queue and may start (R36, R41); an event acts in the states in which Table 02-11 and R50 to R54 let it occur, and leaves
the state unchanged elsewhere (log entry 17). -/

namespace Sys2Proof.Machine

/-- The command at the head of a churn's queue, if it is of the operation given and is not rejected, no completion is held (R40), and the
banks do not wait for their reload (R55). -/
def State.headOf (s : State) (ch op : Nat) : Option (List Byte) :=
  let w := (s.churn ch).work
  match w.queue with
  | cmd :: _ => if cmdOp cmd = op ∧ s.cmdReject ch cmd = 0 ∧ w.held = [] ∧ (s.churn ch).reload = false then some cmd else none
  | [] => none

/-- Take the head off the queue and put an execution record at the end of the executing commands: its entry is free (R36; that an entry
frees when its command starts is the model's choice, log entry 30). -/
def State.startHead (s : State) (ch : Nat) (e : ChExec) : State :=
  let x := s.churn ch
  s.setChurn ch { x with work := { x.work with queue := x.work.queue.drop 1, exec := x.work.exec ++ [e] } }

/-- Take the head off the queue. -/
def State.dropHead (s : State) (ch : Nat) : State :=
  let x := s.churn ch
  s.setChurn ch { x with work := { x.work with queue := x.work.queue.drop 1 } }

/-- Exchange the banks. -/
def State.swapBanks (s : State) (ch : Nat) : State :=
  let x := s.churn ch
  s.setChurn ch { x with work := { x.work with active := !x.work.active } }

/-- A third parity mismatch on a churn operand read (R390): core fault code 4 on the core whose store holds the word. -/
def State.operandParity (s : State) (ch : Nat) (parity : Option (BitVec 12)) : State :=
  match parity, s.current with
  | some k, some c =>
    if coreRegion k.toNat = ch then ((s.replayed 2 (16 + k.toNat / 1024) true).coreEvent k.toNat 0).coreFault k.toNat c 4 else s
  | _, _ => s

/-- LOAD (R30, R41) starts: it waits for an earlier LOAD and for every STREAM that streamed through the shadow bank. -/
def execLoad (ch : BitVec 6) (parity : Option (BitVec 12)) (s : State) : Host.Outcome State Fault Refusal :=
  let k := ch.toNat
  match s.headOf k 1 with
  | some cmd =>
    let w := (s.churn k).work
    if w.exec.all (fun e => decide (cmdOp e.cmd = 3 ∧ e.bank = w.active)) then
      let s := s.startHead k { execNew cmd (!w.active) with tainted := parity.isSome }
      .next (((s.operandParity k parity).boundary k).chSettle k)
    else .next s
  | none => .next (s.chSettle k)

/-- A LOAD completes (R30): its tile is valid in the shadow bank. A tile whose read failed holds no defined values (R390). During a
calibration the LOAD is suspended (R49). -/
def execShadowBankValid (ch : BitVec 6) (s : State) : Host.Outcome State Fault Refusal :=
  let k := ch.toNat
  let x := s.churn k
  if x.st = .calibrating then .next s else
  match x.work.exec.findIdx? fun e => decide (cmdOp e.cmd = 1) with
  | some i =>
    match x.work.exec[i]? with
    | some e =>
      let tile := if e.tainted then (List.range 16384).map (Config.undefByte s.free)
        else s.regionBytes k (cmdSrc e.cmd) 16384
      let w := { x.work with exec := x.work.exec.eraseIdx i }
      let w := if e.bank then { w with bank1 := tile, src1 := some (cmdSrc e.cmd) }
        else { w with bank0 := tile, src0 := some (cmdSrc e.cmd) }
      .next (((s.drawn.setChurn k { x with work := w }).chComplete k e.cmd St.CHURN_DONE 0 0).chSettleAll k)
    | none => .next s
  | none => .next s

/-- SWAP (R30, R41) exchanges the banks and completes. -/
def execSwap (ch : BitVec 6) (s : State) : Host.Outcome State Fault Refusal :=
  let k := ch.toNat
  match s.headOf k 2 with
  | some cmd =>
    if (s.churn k).work.maySwap then
      .next ((((s.dropHead k).swapBanks k).chComplete k cmd St.CHURN_DONE 0 0).chSettleAll k)
    else .next s
  | none => .next (s.chSettle k)

/-- FENCE (R38) completes when every earlier command of the churn has completed, with the time at which the last of them did (Table 02-8);
where none has, with the present time. -/
def execTileFence (ch : BitVec 6) (s : State) : Host.Outcome State Fault Refusal :=
  let k := ch.toNat
  match s.headOf k 4 with
  | some cmd =>
    let w := (s.churn k).work
    if w.exec = [] then
      .next (((s.dropHead k).chCompleteAt k cmd St.CHURN_DONE 0 0 (w.lastDone.getD (s.chStamp k))).chSettleAll k)
    else .next s
  | none => .next (s.chSettle k)

/-- CAL (R48, R54): calibrates in READY and STREAMING, is met by a calibration in progress, completes at once in DARK, is
flushed in RETIRED, and in WAKING and RELIGHTING waits for the calibration that ends the state. -/
def execCal (ch : BitVec 6) (s : State) : Host.Outcome State Fault Refusal :=
  let k := ch.toNat
  match s.headOf k 5 with
  | some cmd =>
    let x := s.churn k
    if x.work.exec = [] then
      match x.st with
      | .dark => .next (((s.dropHead k).chComplete k cmd St.CHURN_DONE 0 0).chSettleAll k)
      | .retired => .next (((s.dropHead k).chComplete k cmd St.CHURN_FLUSHED 0 0).chSettleAll k)
      | .ready | .streaming => .next (((s.startHead k (execNew cmd x.work.active)).boundary k).calibrate k)
      | .calibrating | .waking | .relighting => .next ((s.startHead k (execNew cmd x.work.active)).boundary k)
    else .next s
  | none => .next (s.chSettle k)

/-- Every vector of a STREAM, none retried. -/
def allVectors (cmd : List Byte) : List (Nat × Nat × Bool) := (List.range (cmdCount cmd)).map fun v => (v, 0, false)

/-- The STREAM at the head of the queue begins: SWAP_FIRST, and its execution record. -/
def State.beginStream (s : State) (ch : Nat) (cmd : List Byte) (parity : Option (BitVec 12)) : State × ChExec :=
  let s := if cmdSwapFirst cmd then s.swapBanks ch else s
  ((s.dropHead ch).operandParity ch parity, { execNew cmd (s.churn ch).work.active with tainted := parity.isSome })

/-- Start the STREAM at the head of the queue (R31, R41, R44, R52-R54): in shadow mode it waits until the STREAMs before it have
accumulated (R41) and runs whole; an analogue one wakes a DARK churn, waits in WAKING and CALIBRATING, follows its FALLBACK in
RELIGHTING and RETIRED, waits for the calibration of a new symbol rate (R32), and otherwise begins to launch. -/
def State.startStream (s : State) (ch : Nat) (cmd : List Byte) (parity : Option (BitVec 12)) : State :=
  let x := s.churn ch
  if s.runsShadow ch cmd then
    if x.work.exec = [] then
      let p := s.beginStream ch cmd parity
      (p.1.shadowStream ch p.2 (allVectors cmd)).chSettle ch
    else s
  else
    match x.st with
    | .dark => s.setChurn ch { x with st := .waking }
    | .waking | .calibrating => s
    | .relighting | .retired =>
      if cmdFallback cmd then
        let p := s.beginStream ch cmd parity
        (p.1.shadowStream ch { p.2 with fallback := true } (allVectors cmd)).chSettle ch
      else ((s.dropHead ch).chComplete ch cmd St.CHURN_FLUSHED 0 0).chSettleAll ch
    | .ready | .streaming =>
      if x.rateDue then s.boundary ch
      else
        let p := s.beginStream ch cmd parity
        let y := p.1.churn ch
        p.1.setChurn ch { y with st := .streaming, work := { y.work with exec := y.work.exec ++ [p.2] } }

/-- STREAM (R31): the STREAM at the head starts if it may (R36, R41), then the churn launches symbols. -/
def execStream (ch : BitVec 6) (symbols : Nat) (parity : Option (BitVec 12)) (s : State) :
    Host.Outcome State Fault Refusal :=
  let k := ch.toNat
  let s := match s.headOf k 3 with
    | some cmd => if (s.churn k).work.maySwap then s.startStream k cmd parity else s
    | none => s.chSettle k
  .next (s.launch k symbols)

/-- CODE_RELEASE (R27, R28, R29, R50): the oldest vector in flight of the first unfinished STREAM passes its hold; its codes
are accumulated, or the clip policy re-launches or aborts. -/
def execCodeRelease (ch : BitVec 6) (s : State) : Host.Outcome State Fault Refusal :=
  let k := ch.toNat
  let x := s.churn k
  match x.work.exec.findIdx? fun e => decide (cmdOp e.cmd = 3) with
  | some i =>
    match x.work.exec[i]? with
    | some e =>
      match e.air with
      | (v, _, r) :: t =>
        let p := s.takeCodes k { e with air := t } v r false
        let y := p.1.churn k
        .next ((p.1.setChurn k { y with work := { y.work with exec := y.work.exec.set i p.2 } }).chSettleAll k)
      | [] => .next s
    | none => .next s
  | none => .next s

/-- Whether a calibration of the churn's schedule falls due now (R48): in background mode at its own fabric times, before the first lock
and in plan-scheduled mode 200 µs after the end of its latest calibration. -/
def State.calFallsDue (s : State) (ch : Nat) : Bool :=
  if s.odg 0x2200 0x02 = 0 ∧ s.time.everLock = true then decide (s.time.fabric % 200000 = 3125 * ch)
  else decide ((s.churn ch).calEnd + 200000 ≤ s.ctl.clock)

/-- CALIBRATION_DUE (R48): READY or STREAMING goes to CALIBRATING. -/
def execCalibrationDue (ch : BitVec 6) (s : State) : Host.Outcome State Fault Refusal :=
  .next (if s.calFallsDue ch.toNat then s.calibrate ch.toNat else s)

/-- The CAL commands of a context's work complete (R54): the work, and the objects to signal. -/
def ChWork.calsEnd (w : ChWork) (status time : Nat) : ChWork × List Nat :=
  (w.exec.filter fun e => decide (cmdOp e.cmd = 5)).foldl (fun (a : ChWork × List Nat) e =>
    let p := a.1.takeRecord (chRecord (cmdTag e.cmd) status 0 0 time) (if cmdSignal e.cmd then some (cmdSync e.cmd) else none) time
    (p.1, a.2 ++ p.2.toList)) ({ w with exec := w.exec.filter fun e => decide (cmdOp e.cmd ≠ 5) }, [])

/-- Complete the CAL commands in execution when a calibration ends (R54), those of contexts that do not run included (R55). -/
def State.calsDone (s : State) (ch status : Nat) : State :=
  let x := s.churn ch
  let cals := x.work.exec.filter fun e => decide (cmdOp e.cmd = 5)
  let s := s.setChurn ch { x with work := { x.work with exec := x.work.exec.filter fun e => decide (cmdOp e.cmd ≠ 5) } }
  let s := cals.foldl (fun s e => s.chComplete ch e.cmd status 0 0) s
  (List.range 64).foldl (fun s c =>
    let w := Sparse.get (fun _ => workNone) s.saved (64 * ch + c)
    let p := w.calsEnd status (s.chStamp ch)
    if p.1 = w then s else
    p.2.foldl (fun s o => s.signal o 1)
      ({ s with saved := Sparse.set (fun _ => workNone) s.saved (64 * ch + c) p.1 } : State)) s

/-- The lowest spare row or column that can serve (R67): not in use, not given up, not found unusable by the probes. -/
def spareFor (map : Sparse Nat) (out : List Nat) (dead : BitVec 4) : Option Nat :=
  (List.range 4).findSome? fun j =>
    let p := 128 + j
    if map.any (fun e => decide (e.2 = p)) || out.contains p || dead.getLsbD j then none else some p

/-- Map a logical row or column away from the physical one it stands on (R23, R67): the map, the physical ones given up, and the logical
ones retired for want of a usable spare. -/
def remapOne (map : Sparse Nat) (out bad : List Nat) (dead : BitVec 4) (n : Nat) : Sparse Nat × List Nat × List Nat :=
  let out := Sparse.get (fun k => k) map n :: out
  match spareFor map out dead with
  | some p => (Sparse.set (fun k => k) map n p, out, bad)
  | none => (map, out, n :: bad)

/-- One output beyond its residual bound (R67): onto a spare row or column while one is usable, else retired; counted, and
OD 0x2201:03 shows the spares in use. The last spare sets bit 1 of the service request (Table 19-8). -/
def State.remapOutput (s : State) (ch : Nat) (f : CalFinding) (o : Bool × BitVec 7) : State :=
  let x := s.churn ch
  let n := o.2.toNat
  let y := if o.1 then
      let r := remapOne x.rowMap x.rowsOut x.badRows f.spareRows n
      { x with rowMap := r.1, rowsOut := r.2.1, badRows := r.2.2 }
    else
      let r := remapOne x.colMap x.colsOut x.badCols f.spareCols n
      { x with colMap := r.1, colsOut := r.2.1, badCols := r.2.2 }
  let s := ((s.bump 0x2203 0x05 0).setChurn ch y).odp 0x2201 0x03 ch (y.rowMap.length + 8 * y.colMap.length)
  let left := if o.1 then spareFor y.rowMap y.rowsOut f.spareRows else spareFor y.colMap y.colsOut f.spareCols
  if left.isNone then s.request 1 else s

/-- A slot leaves the healthy set and its relock attempts begin (R50, R51). -/
def State.loseSlot (s : State) (ch slot : Nat) : State :=
  let s := s.setHealthy ch ((s.healthy ch).filter fun k => decide (k ≠ slot))
  let x := s.churn ch
  s.setChurn ch { x with relock := Sparse.set (fun _ => 4) x.relock slot 0, rejoin := x.rejoin.filter fun k => decide (k ≠ slot) }

/-- A slot whose noise is beyond its bound leaves the healthy set (R67): as if it had lost lock, or, at the end of WAKING and RELIGHTING,
until the next of those (R51). -/
def State.noisySlot (s : State) (ch : Nat) (relock : Bool) (slot : Nat) : State :=
  (if relock then s.loseSlot ch slot else s.setHealthy ch ((s.healthy ch).filter fun k => decide (k ≠ slot))).bump 0x2203 0x06 0

/-- What a calibration found is reported, counted, recorded and acted on (R65-R67, Tables 03-4 and 03-7); its end begins the limit of R48.
The q of a noise record counts slots (log entry 30). -/
def State.applyCal (s : State) (ch : Nat) (f : CalFinding) (relock : Bool) : State :=
  let x := s.churn ch
  let s := s.setChurn ch { x with calEnd := s.ctl.clock }
  let s := (((s.odp 0x2203 0x01 ch f.noise.toNat).odp 0x2203 0x02 ch f.offset.toNat).odp 0x2203 0x03 ch f.gain.toNat).odp
    0x2203 0x04 ch f.temp.toNat
  let s := s.bump 0x2202 0x06 0
  let s := f.residual.foldl (fun s o => s.remapOutput ch f o) s
  let s := if f.residual = [] then s else s.herdEvent 0x2202 ch (f.residual.length : Nat) 0
  let noisy := (List.range 4).filter fun n => f.noisy.getLsbD n && (s.healthy ch).contains n
  let s := noisy.foldl (fun s n => s.noisySlot ch relock n) s
  if noisy = [] then s else s.herdEvent 0x2202 (ch + 256) (noisy.length : Nat) 0

/-- The last healthy slot lost leads to RELIGHTING (Table 02-11). -/
def State.orDark (s : State) (ch : Nat) : State :=
  if (s.healthy ch).isEmpty then s.loseLight ch else s

/-- A symbol rate taken during the calibration that has just ended owes a calibration of its own (R32). -/
def State.calAgain (s : State) (ch : Nat) : State :=
  let x := s.churn ch
  if x.rateCal then (s.setChurn ch { x with rateCal := false }).calibrate ch else s

/-- CALIBRATION_DONE (R49, R65-R67): results applied, findings counted, recorded and acted on, slots readmitted, the state
held before restored, and the work of a context switched in meanwhile reloaded (R55). -/
def execCalibrationDone (ch : BitVec 6) (f : CalFinding) (s : State) : Host.Outcome State Fault Refusal :=
  let k := ch.toNat
  let x := s.churn k
  if x.st = .calibrating then
    let s := s.setChurn k { x with st := x.before, calDue := false, rejoin := [] }
    let s := (s.setHealthy k (s.healthy k ++ x.rejoin)).applyCal k f true
    .next ((((((s.reloadBanks k).calsDone k St.CHURN_DONE).orDark k).calAgain k).chSettleAll k))
  else .next s

/-- SLOT_LOCK_LOSS (R50, R51): the slot's codes in flight are discarded and it leaves the healthy set; a loss during a
calibration, that of a relocked slot included, ends that calibration unapplied, to be repeated; the last healthy slot lost leads to
RELIGHTING. -/
def execSlotLockLoss (ch : BitVec 6) (slot : BitVec 2) (s : State) : Host.Outcome State Fault Refusal :=
  let k := ch.toNat
  let n := slot.toNat
  let x := s.churn k
  if ((s.healthy k).contains n || x.rejoin.contains n) = true ∧ (x.st = .ready ∨ x.st = .streaming ∨ x.st = .calibrating) then
    let s := if x.st = .calibrating then s.setChurn k { x with st := x.before, calDue := true } else s
    let s := ((s.bump 0x2202 0x04 0).discard k fun j => decide (j = n)).loseSlot k n
    .next (s.orDark k)
  else .next s

/-- SLOT_RELOCK_ATTEMPT_END (R51, R353): deferred and counted while the die is out of bounds; a relocked slot rejoins after a calibration; the third failure gives it up. The herd book
records the loss with its attempts, 4 when given up. -/
def execSlotRelockAttemptEnd (ch : BitVec 6) (slot : BitVec 2) (ok : Bool) (s : State) :
    Host.Outcome State Fault Refusal :=
  let k := ch.toNat
  let n := slot.toNat
  let x := s.churn k
  match Sparse.find x.relock n with
  | some tries =>
    if s.relockReady (k / 16) = false then .next (s.bump 0x2006 0x08 0) else
    if x.st = .ready ∨ x.st = .streaming ∨ x.st = .calibrating then
      let drop := Sparse.del x.relock n
      if ok then
        let s := s.setChurn k { x with relock := drop, rejoin := x.rejoin ++ [n] }
        .next ((s.herdEvent 0x2201 (k + 256 * n) (tries + 1 : Nat) 0).calibrate k)
      else if tries + 1 < 3 then .next (s.setChurn k { x with relock := Sparse.set (fun _ => 4) x.relock n (tries + 1) })
      else
        let s := (s.setChurn k { x with relock := drop }).herdEvent 0x2201 (k + 256 * n) 4 0
        .next (if x.calDue then s.calibrate k else s)
    else .next s
  | none => .next s

/-- LIGHT_LOSS (R52): from READY, STREAMING or CALIBRATING into RELIGHTING. -/
def execLightLoss (ch : BitVec 6) (s : State) : Host.Outcome State Fault Refusal :=
  let k := ch.toNat
  let st := (s.churn k).st
  if st = .ready ∨ st = .streaming ∨ st = .calibrating then .next (s.loseLight k) else .next s

/-- WAKING or RELIGHTING ends with a calibration at the symbol rate set (R32, R51, R65): the slots that locked and pass its noise check are
healthy, the churn is READY, waiting CAL commands complete (R54); a churn whose last slot failed relights. -/
def State.relit (s : State) (ch : Nat) (locked : BitVec 4) (f : CalFinding) : State :=
  let x := s.churn ch
  let s := s.setChurn ch { x with st := .ready, attempts := 0, relock := [], rejoin := [], rate := s.odg 0x2200 0x01 ch
                                  rateDue := false, rateCal := false, idleAt := s.ctl.clock }
  let s := (s.setHealthy ch ((List.range 4).filter fun n => locked.getLsbD n)).applyCal ch f false
  ((s.calsDone ch St.CHURN_DONE).orDark ch).chSettleAll ch

/-- RELIGHT_ATTEMPT_END (Table 02-11): light back and a slot locked gives READY; the third failure RETIRED, which flushes
waiting CAL commands (R54). -/
def execRelightAttemptEnd (ch : BitVec 6) (reference : Bool) (locked : BitVec 4) (f : CalFinding) (s : State) :
    Host.Outcome State Fault Refusal :=
  let k := ch.toNat
  let x := s.churn k
  if x.st = .relighting ∧ s.relockReady (k / 16) = false then .next (s.bump 0x2006 0x08 0)
  else if x.st = .relighting then
    let n := x.attempts + 1
    if reference ∧ locked ≠ 0 then .next ((s.herdEvent 0x2203 k (n : Nat) 0).relit k locked f)
    else if n < 3 then .next (s.setChurn k { x with attempts := n })
    else
      let s := (s.setChurn k { x with st := .retired, attempts := n }).herdEvent 0x2203 k 4 0
      .next ((s.calsDone k St.CHURN_FLUSHED).chSettleAll k)
  else .next s

/-- WAKE_DONE (Table 02-11, R51): a waking churn is READY; with no slot locked it has lost its last healthy slot and
relights. -/
def execWakeDone (ch : BitVec 6) (locked : BitVec 4) (f : CalFinding) (s : State) : Host.Outcome State Fault Refusal :=
  let k := ch.toNat
  .next (if (s.churn k).st = .waking then s.relit k locked f else s)

/-- DARK_TIMEOUT (Table 02-11): a READY churn idle for OD 0x2200:05 goes DARK; with 0 it never does. Idle time counts from the latest
completion, wake or switch; a background calibration does not begin it anew (log entry 30). -/
def execDarkTimeout (ch : BitVec 6) (s : State) : Host.Outcome State Fault Refusal :=
  let k := ch.toNat
  let x := s.churn k
  let us := s.odg 0x2200 0x05
  if x.st = .ready ∧ x.work.queue = [] ∧ x.work.exec = [] ∧ us ≠ 0 ∧ x.idleAt + 1000 * us ≤ s.ctl.clock then
    .next (s.setChurn k { x with st := .dark })
  else .next s

end Sys2Proof.Machine
end

