-- ==== Sys2Proof/Machine/CollEnd.lean ====
section
/-! DEFINITION. The end of a routine's plan entry, and the completion of a collective (R285, R292-R294), which a lost message of
its own can also bring about. -/

namespace Sys2Proof.Machine

/-- A routine entry has completed: it leaves the running entries if its own slot was reached, and signals (Table 10-2). -/
def State.routineDone (s : State) (c pos : Nat) : State :=
  if (s.ctx c).runs.any fun r => decide (r.pos = pos) then s.entryDone c pos else s

/-- Write bytes of a routine into module memory (R131, R134): a status that refuses them is a storage event. -/
def State.routineWrite (s : State) (c a : Nat) (bytes : List Byte) : State :=
  let w := s.writeRun a bytes
  if w.2 = 0 then w.1 else w.1.storageEvent (some c) w.2 a

/-- Read bytes of module memory for a routine of context c (R131, R391): none where memory does not deliver them, a storage event. -/
def State.routineRead (s : State) (c a n : Nat) : State × Option (List Byte) :=
  match s.readFail a n with
  | some (o, st) => ((s.metPoison st (a + o)).storageEvent (some c) st (a + o), none)
  | none => (s.fetched a n, some (s.memBytes a n))

/-- NORMS of a collective record (Table 13-2). -/
def cNorms (d : List Byte) : Bool := bit (fld d 0 1) 0
/-- SIGNAL of a collective record. -/
def cSignal (d : List Byte) : Bool := bit (fld d 0 1) 1
/-- SIGNAL_SYNC of a collective record. -/
def cSync (d : List Byte) : Nat := fld d 6 2
/-- BUCKETS of a collective record. -/
def cBuckets (d : List Byte) : Nat := fld d 8 4
/-- EXAMPLES of a collective record. -/
def cExamples (d : List Byte) : Nat := fld d 12 4
/-- TABLE of a collective record. -/
def cTable (d : List Byte) : Nat := bits (fld d 16 8) 38 0
/-- NORM_OUT of a collective record. -/
def cNormOut (d : List Byte) : Nat := bits (fld d 24 8) 38 0

/-- The owned storage blocks of a bucket entry for member `own` of `g`. -/
def ownedBlocks (e : List Byte) (g own : Nat) : List Nat :=
  ((List.range (fld e 8 4)).map fun i => fld e 4 4 + i).filter fun b => decide (b % g = own)

/-- Where the shard holds a block (Table 13-3). -/
def shardAt (e : List Byte) (g b : Nat) : Nat := bits (fld e 24 8) 38 0 + 2048 * (b / g)

/-- The contents of a stopped collective's shards are undefined (R292): free values. -/
def State.spoilShards (s : State) (t : CollTask) : State :=
  t.buckets.foldl (fun s b => (ownedBlocks b.entry t.g t.own).foldl (fun s g =>
    (s.putMem (shardAt b.entry t.g g) ((List.range 2048).map (Config.undefByte s.free))).drawn) s) s

/-- Forget a collective. -/
def State.dropColl (s : State) (c pos : Nat) : State :=
  { s with tasks := { s.tasks with colls := s.tasks.colls.filter fun u => decide (¬ (u.ctx = c ∧ u.pos = pos)) } }

/-- Write STATUS, RERUN, FAILED and TIME of a record back (Table 13-2). -/
def State.collRecord (s : State) (c ma status reruns fails : Nat) : State :=
  let inst := 0x9000 + c
  (s.routineWrite c (ma + 42) (leBytes 2 status ++ leBytes 2 reruns ++ leBytes 2 fails ++ leBytes 8 (s.stampOf inst))).stamped inst

/-- The bucket entries of a collective go back to its table (Table 13-3). -/
def State.collEntries (s : State) (t : CollTask) : State :=
  t.buckets.zipIdx.foldl (fun s b => s.routineWrite t.ctx (cTable t.bytes + 48 * b.2) b.1.entry) s

/-- Complete a collective (R285, R292, R306): the record and the table written back, counters, SIGNAL_SYNC, the plan entry. -/
def State.collFinish (s : State) (t : CollTask) (status : Nat) : State :=
  let reruns := (t.buckets.filter fun b => decide (b.reran ≠ 0)).length
  let fails := (t.buckets.filter fun b => b.failed).length
  let bads := (t.buckets.filter fun b => bit (fld b.entry 14 1) 3).length
  let s := ((s.dropColl t.ctx t.pos).collEntries t).collRecord t.ctx t.ma status reruns fails
  let s := (((s.bump 0x2702 0x01 0).bump 0x2702 0x02 0 reruns).bump 0x2702 0x03 0 fails).bump 0x2702 0x04 0 bads
  let x := s.ctx t.ctx
  let s := s.setCtx t.ctx { x with reruns := x.reruns + reruns, fails := x.fails + fails, invalids := x.invalids + bads }
  let s := if cSignal t.bytes then s.signal (cSync t.bytes) 1 else s
  s.routineDone t.ctx t.pos

/-- A collective stops (R292): its shards are undefined and it completes with the status given. -/
def State.collStop (s : State) (t : CollTask) (status : Nat) : State := (s.spoilShards t).collFinish t status

end Sys2Proof.Machine
end

