-- ==== Sys2Proof/Machine/Frames.lean ====
section
/-! DEFINITION. Packets, flits and control blocks as bytes and bits (R255, R256, R264): the header of Table 12-2, the flits of a packet,
the idle flit and the replay marker, the control-block fields of Table 12-5, flits per lane and slot (Table 12-3). Fabric addresses are
x + 64 y + 4096 z, as in Table 07-4. -/

namespace Sys2Proof.Machine

/-! ### Packets -/

/-- A coordinate of a fabric address. -/
def axisOf (a i : Nat) : Nat := a / 64 ^ i % 64

/-- A fabric address from a packet's three fields. -/
def addrOf (x y z : BitVec 6) : Nat := x.toNat + 64 * y.toNat + 4096 * z.toNat

/-- The destination of a packet. -/
def pktDest (p : Packet) : Nat := addrOf p.dx p.dy p.dz
/-- The source of a packet. -/
def pktSrc (p : Packet) : Nat := addrOf p.sx p.sy p.sz
/-- The version a packet is routed by (R275). -/
def pktVer (p : Packet) : Nat := b2n p.epoch
/-- The flits of a packet (R256). -/
def pktFlits (p : Packet) : Nat := (32 + p.payLen.toNat + 63) / 64
/-- VC = 2 × TC + ESC (R259). -/
def pktVc (p : Packet) : Nat := 2 * p.tc.toNat + b2n p.esc

/-- The direction a multicast packet travels in (Table 12-2). -/
def mcDir (p : Packet) : Nat := 2 * p.mcAxis.toNat + b2n p.mcNeg

/-- A header with everything zero. -/
def pktNone : Packet :=
  { typ := 0, epoch := false, last := false, tc := 0, esc := false, hops := 0, job := 0, dx := 0, dy := 0, dz := 0
    mcAxis := 0, mcNeg := false, mcHops := 0, sx := 0, sy := 0, sz := 0, rxq := 0, msgId := 0, msgLen := 0, offset := 0
    payLen := 0, lost := false, refused := false, stale := false, inject := 0, payload := [] }

/-- A data packet of a message (R257). -/
def dataPkt (own dest tc rxq job id len off : Nat) (last : Bool) (body : List Byte) : Packet :=
  { pktNone with
    last := last, tc := BitVec.ofNat 2 tc, job := BitVec.ofNat 16 job
    dx := BitVec.ofNat 6 (axisOf dest 0), dy := BitVec.ofNat 6 (axisOf dest 1), dz := BitVec.ofNat 6 (axisOf dest 2)
    sx := BitVec.ofNat 6 (axisOf own 0), sy := BitVec.ofNat 6 (axisOf own 1), sz := BitVec.ofNat 6 (axisOf own 2)
    rxq := BitVec.ofNat 16 rxq, msgId := BitVec.ofNat 16 id, msgLen := BitVec.ofNat 32 len
    offset := BitVec.ofNat 32 off, payLen := BitVec.ofNat 16 body.length, payload := body }

/-- A return of n bytes for a packet's message, as from module `who` (R273, R274). -/
def returnPkt (p : Packet) (who n : Nat) (lost refused stale : Bool) : Packet :=
  { pktNone with
    typ := 2, tc := p.tc, job := p.job, dx := p.sx, dy := p.sy, dz := p.sz
    sx := BitVec.ofNat 6 (axisOf who 0), sy := BitVec.ofNat 6 (axisOf who 1), sz := BitVec.ofNat 6 (axisOf who 2)
    rxq := p.rxq, msgId := p.msgId, msgLen := BitVec.ofNat 32 n, lost := lost, refused := refused, stale := stale }

/-! ### Header bytes (Table 12-2) -/

/-- Byte 0 of a header. -/
def headByte (p : Packet) : Nat :=
  p.typ.toNat + 4 * b2n p.epoch + 8 * b2n p.last + 16 * p.tc.toNat + 64 * b2n p.esc

/-- The 32 bytes of a header. -/
def headerBytes (p : Packet) : List Byte :=
  leBytes 1 (headByte p) ++ leBytes 1 p.hops.toNat ++ leBytes 2 p.job.toNat
    ++ leBytes 1 p.dx.toNat ++ leBytes 1 p.dy.toNat ++ leBytes 1 p.dz.toNat
    ++ leBytes 1 (if p.typ = 1 then p.mcAxis.toNat + 4 * b2n p.mcNeg else 0) ++ leBytes 1 (if p.typ = 1 then p.mcHops.toNat else 0)
    ++ leBytes 1 p.sx.toNat ++ leBytes 1 p.sy.toNat ++ leBytes 1 p.sz.toNat
    ++ leBytes 2 p.rxq.toNat ++ leBytes 2 p.msgId.toNat ++ leBytes 4 p.msgLen.toNat
    ++ leBytes 4 (if p.typ = 2 then 0 else p.offset.toNat) ++ leBytes 2 (if p.typ = 2 then 0 else p.payLen.toNat)
    ++ leBytes 1 (if p.typ = 2 then b2n p.lost + 2 * b2n p.refused + 4 * b2n p.stale else 0) ++ leBytes 1 0
    ++ leBytes 4 p.inject.toNat

/-- Whether 32 bytes are no header: TYPE 3, a nonzero reserved field (R256), or a payload length that Table 12-2 does not have. -/
def badHeader (b : List Byte) : Bool :=
  let t := bits (fld b 0 1) 1 0
  decide (t = 3) || bit (fld b 0 1) 7
    || [4, 5, 6, 9, 10, 11].any (fun o => decide (64 ≤ fld b o 1))
    || (if t = 1 then decide (8 ≤ fld b 7 1 ∨ 64 ≤ fld b 8 1) else decide (fld b 7 2 ≠ 0))
    || (if t = 2 then decide (fld b 20 4 ≠ 0 ∨ fld b 24 2 ≠ 0 ∨ 8 ≤ fld b 26 1)
        else decide (fld b 24 2 = 0 ∨ 4096 < fld b 24 2 ∨ fld b 26 1 ≠ 0))
    || decide (fld b 27 1 ≠ 0)

/-- The header that a flit begins with, with the payload that follows it. -/
def readHeader (b : List Byte) : Packet :=
  let f := fun o n => fld b o n
  let c := f 0 1
  let n := f 24 2
  { typ := BitVec.ofNat 2 c, epoch := bit c 2, last := bit c 3, tc := BitVec.ofNat 2 (c / 16), esc := bit c 6
    hops := BitVec.ofNat 8 (f 1 1), job := BitVec.ofNat 16 (f 2 2)
    dx := BitVec.ofNat 6 (f 4 1), dy := BitVec.ofNat 6 (f 5 1), dz := BitVec.ofNat 6 (f 6 1)
    mcAxis := BitVec.ofNat 2 (f 7 1), mcNeg := bit (f 7 1) 2, mcHops := BitVec.ofNat 6 (f 8 1)
    sx := BitVec.ofNat 6 (f 9 1), sy := BitVec.ofNat 6 (f 10 1), sz := BitVec.ofNat 6 (f 11 1)
    rxq := BitVec.ofNat 16 (f 12 2), msgId := BitVec.ofNat 16 (f 14 2), msgLen := BitVec.ofNat 32 (f 16 4)
    offset := BitVec.ofNat 32 (f 20 4), payLen := BitVec.ofNat 16 n
    lost := bit (f 26 1) 0, refused := bit (f 26 1) 1, stale := bit (f 26 1) 2
    inject := BitVec.ofNat 32 (f 28 4), payload := (b.drop 32).take n }

/-! ### Flits (R256) -/

/-- Flit i of a packet: the header fills bytes 0-31 of the first, the payload follows, the last is filled with zeros. -/
def flitBytes (p : Packet) (i : Nat) : List Byte := sliceBytes (headerBytes p ++ p.payload) (64 * i) 64

/-- The idle flit. -/
def idleFlit : List Byte := sliceBytes [0x80] 0 64

/-- The replay marker that announces the flit of a transmit slot and position. -/
def markerFlit (slot pos : Nat) : List Byte := sliceBytes (leBytes 4 0xC0 ++ leBytes 4 slot ++ leBytes 2 pos) 0 64

/-- Position and slot that a replay marker names, none where the flit is no marker. -/
def markerOf (b : List Byte) : Option (Nat × Nat) :=
  if b = markerFlit (fld b 4 4) (fld b 8 2) then some (fld b 8 2, fld b 4 4) else none

/-- The flits of a lane in a slot (Table 12-3), with a change of plan at its start and at the next boundary. -/
def slotFlits (start next : Bool) : Nat :=
  match start, next with
  | false, false => 120
  | false, true => 119
  | true, false => 117
  | true, true => 116

/-! ### Lane frames (R230, Table 11-4) -/

/-- A lane frame: 240 bits of payload, four bits of the control block, the check over both. -/
def laneFrame (payload : BitVec 240) (control : BitVec 4) : BitVec 256 :=
  Config.frameCheck (control ++ payload) ++ (control ++ payload)

/-- Whether a frame as received passes its check. -/
def frameClean (r : BitVec 256) : Bool := decide (Config.frameCheck (r.setWidth 244) = (r >>> 244).setWidth 12)

/-- Whether the check corrects a frame: one bit of it, changed back, makes it pass. -/
def frameCorrected (r : BitVec 256) : Bool :=
  !frameClean r && (List.range 256).any fun i => frameClean (r ^^^ (1#256 <<< i))

/-- Whether a frame is handed to the link layer marked bad: its error is detected and not corrected. -/
def frameBad (r : BitVec 256) : Bool := !frameClean r && !frameCorrected r

/-! ### Control-block fields (Table 12-5) -/

/-- The audit fields of a block. -/
structure AuditFields where
  vc       : Nat
  slot     : Nat
  sent     : Nat
  got      : Nat
  accepted : Nat
  freed    : Nat
  deriving DecidableEq, Repr

/-- The fields of Table 12-5: CREDIT by virtual channel, NACK as (position, slot), the audit fields, the repair fields, EPOCH. -/
structure LinkFields where
  credit : List Nat
  nack   : Option (Nat × Nat)
  audit  : Option AuditFields
  req    : Bool
  ack    : Bool
  vc     : Nat
  slot   : Nat
  epoch  : Bool
  deriving DecidableEq, Repr

/-- Bits [hi:lo] of a control block whose bits from 448 on are given. -/
def blockBits (v hi lo : Nat) : Nat := bits v (hi - 448) (lo - 448)

/-- The fields that a block carries. -/
def readFields (v : Nat) : LinkFields :=
  let f := blockBits v
  { credit := (List.range 8).map fun c => f (448 + 16 * c + 15) (448 + 16 * c)
    nack := if f 596 596 = 1 then some (f 587 576, f 595 588) else none
    audit := if f 603 603 = 1 then some { vc := f 602 600, slot := f 619 604, sent := f 651 620, got := f 683 652, accepted := f 715 684, freed := f 747 716 }
      else none
    req := decide (f 748 748 = 1), ack := decide (f 749 749 = 1), vc := f 752 750, slot := f 768 753, epoch := decide (f 769 769 = 1) }

/-- A field at bit lo of the block, from bit 448 on, cut to its width. -/
def blockPut (hi lo v : Nat) : Nat := v % 2 ^ (hi + 1 - lo) * 2 ^ (lo - 448)

/-- Bits [1023:448] of a block; keep-0 bits are 0. -/
def LinkFields.bits (x : LinkFields) : Nat :=
  sumBelow (fun c => blockPut (448 + 16 * c + 15) (448 + 16 * c) (x.credit.getD c 0)) 8
    + (match x.nack with
      | some n => blockPut 587 576 n.1 + blockPut 595 588 n.2 + blockPut 596 596 1
      | none => 0)
    + (match x.audit with
      | some a => blockPut 602 600 a.vc + blockPut 603 603 1 + blockPut 619 604 a.slot + blockPut 651 620 a.sent + blockPut 683 652 a.got
          + blockPut 715 684 a.accepted + blockPut 747 716 a.freed
      | none => 0)
    + blockPut 748 748 (b2n x.req) + blockPut 749 749 (b2n x.ack) + blockPut 752 750 x.vc + blockPut 768 753 x.slot
    + blockPut 769 769 (b2n x.epoch)

end Sys2Proof.Machine
end

