-- ==== Sys2Proof/Machine/Lanes.lean ====
section
/-! DEFINITION. Lane plans in effect and the states of lanes and ports (R225, R228, R231, R232, Table 11-11). Lane n is 96 × die + LLL;
its channel is n mod 32. -/

namespace Sys2Proof.Machine

/-- The current fabric slot (R11). -/
def State.slot (s : State) : Nat := s.time.fabric / 512

/-- The base index of a port's table (R12). -/
def portIdx (p n : Nat) : Nat := 0x4000 + 0x20 * p + n

/-- The outgoing and the incoming fibre of a port in its face's receptacle (R420, Table 21-4). -/
def portFibres (p : Nat) : Nat × Nat := (p % 8 + 1, 16 - p % 8)

/-- The fibre that a Type-B trunk joins a fibre to (R420). -/
def trunkFibre (n : Nat) : Nat := 17 - n

/-- Byte o of lane plan k. -/
def State.planByte (s : State) (k o : Nat) : Nat := s.odg 0x2510 (k + 1) o

/-- The port of a transmit lane in a plan, none where it is unlit. -/
def State.txPort (s : State) (k n : Nat) : Option Nat :=
  let b := s.planByte k (64 + n)
  if bit b 7 then some (b % 64) else none

/-- The port that feeds a receive lane in a plan, none where it is unlit. -/
def State.rxPort (s : State) (k n : Nat) : Option Nat :=
  let b := s.planByte k (448 + n)
  if bit b 7 then some (b % 64) else none

/-- The port to which channel c arriving on port p passes in a plan. -/
def State.passPort (s : State) (k p c : Nat) : Option Nat :=
  let b := s.planByte k (832 + 32 * p + c)
  if bit b 7 then some (b % 64) else none

/-- The plan in effect. -/
def State.planNow (s : State) : Nat := s.odg 0x2500 0x01

/-- The port of a lane in a plan. -/
def State.lanePort (s : State) (k : Nat) (l : Bool × Nat) : Option Nat := if l.1 then s.txPort k l.2 else s.rxPort k l.2

/-- Every lane of the module. -/
def allLanes : List (Bool × Nat) := (List.range 384).map (fun n => (true, n)) ++ (List.range 384).map fun n => (false, n)

/-- The state of a port (Table 11-13). -/
def State.portState (s : State) (p : Nat) : Nat := s.odg (portIdx p 0) 0x01

/-- The key of a ring: 64 × port + ring, drop rings at + 32. -/
def ringKey (drop : Bool) (p k : Nat) : Nat := 64 * p + 32 * b2n drop + k

/-- The ring of a port that holds a channel (R243): an add ring, or a drop ring. -/
def State.channelRing (s : State) (drop : Bool) (p c : Nat) : Option Nat :=
  (List.range 32).find? fun k => decide (s.odg (portIdx p 0) (if drop then 0x0A else 0x09) k = c)

/-- What a port's ring makes of a lane of its channel, as a lane state (R244, R245): 1 while it searches, 4 while it has lost lock, 2 where
the port lacks the channel, and 3. -/
def State.ringLight (s : State) (drop : Bool) (p c : Nat) : Nat :=
  match s.channelRing drop p c with
  | none => 2
  | some k =>
    if s.opt.searching.contains (ringKey drop p k) then 1 else if s.opt.ringDown.contains (ringKey drop p k) then 4 else 3

/-- The state of a lane's own laser and modulator, or of its receiver: as in Table 11-11, 2 once it is locked. -/
def State.laneOwn (s : State) (l : Bool × Nat) : Nat := s.odg 0x2501 (if l.1 then 0x01 else 0x02) l.2

/-- Write the lane's own state. -/
def State.setLane (s : State) (l : Bool × Nat) (v : Nat) : State := s.odp 0x2501 (if l.1 then 0x01 else 0x02) l.2 v

/-- The state of a lane (Table 11-11): a locked lane is IDLE where the plan in effect does not light it or its port is not lit; else it is
as its port's ring makes it (log entry 38). -/
def State.laneState (s : State) (l : Bool × Nat) : Nat :=
  if s.laneOwn l ≠ 2 then s.laneOwn l
  else match s.lanePort s.planNow l with
    | none => 2
    | some p => if s.portState p = 1 then s.ringLight (!l.1) p (l.2 % 32) else 2

/-- The LIT lanes of a port in a direction, in ascending channel order (R258). -/
def State.litLanes (s : State) (tx : Bool) (p : Nat) : List Nat :=
  (List.range 32).filterMap fun c => ((List.range 12).find? fun j =>
    decide (s.lanePort s.planNow (tx, 32 * j + c) = some p ∧ s.laneState (tx, 32 * j + c) = 3)).map fun j => 32 * j + c

/-- The transmit lanes that carry a port's link: lit, not refused by the peer, past their preamble (R239, R245, R258). -/
def State.linkLanes (s : State) (p : Nat) : List Nat :=
  (s.litLanes true p).filter fun n => !s.opt.told.contains n && !s.opt.resume.contains n

/-- Whether a port has a working lane in each direction in the plan in effect (R231, R262). -/
def State.portTerm (s : State) (p : Nat) : Bool :=
  decide (s.portState p = 1) && !(s.litLanes true p).isEmpty && !(s.litLanes false p).isEmpty

/-- A port's control lane (R231): its lowest-numbered terminating transmit lane. -/
def State.controlLane (s : State) (p : Nat) : Option Nat :=
  if s.portTerm p then (s.litLanes true p).foldl (fun m n => match m with
    | some k => some (Nat.min k n)
    | none => some n) none
  else none

/-- Whether the receive lane of a port and channel takes payload (R239). -/
def State.laneTakes (s : State) (p c : Nat) : Bool :=
  match (s.litLanes false p).find? fun n => decide (n % 32 = c) with
  | some n => (Sparse.find s.opt.await n).isNone && !s.opt.refused.contains n
  | none => false

end Sys2Proof.Machine
end

