-- ==== Sys2Proof/Machine/Links.lean ====
section
/-! DEFINITION. Routing tables and links (R251, R253, R258-R262): distances and the modules that ports lead to, virtual channels, the packets
that the router holds, and the transmission of flits. -/

namespace Sys2Proof.Machine

/-! ### Routing tables (R251, R253) -/

/-- Byte i of routing table version v. -/
def State.rtByte (s : State) (v i : Nat) : Nat := s.odg 0x2600 (v + 1) i

/-- REACH(d, k) of a version (Table 12-1). -/
def State.reach (s : State) (v d k : Nat) : Nat :=
  leNat ((List.range 8).map fun i => BitVec.ofNat 8 (s.rtByte v (8 + 8 * (4 * d + k) + i)))

/-- The module's own fabric address in a version. -/
def State.ownAddr (s : State) (v : Nat) : Nat :=
  s.rtByte v 0 % 64 + 64 * (s.rtByte v 1 % 64) + 4096 * (s.rtByte v 2 % 64)

/-- The injection epoch. -/
def State.epochNow (s : State) : Nat := s.odg 0x2600 0x04

/-- Whether every coordinate lies inside the axes of a version (R254). -/
def State.inLen (s : State) (v a : Nat) : Bool :=
  (List.range 3).all fun i => decide (axisOf a i < s.axisLen v i)

/-- linear(x, y, z) in a version (R253). -/
def State.linear (s : State) (v a : Nat) : Nat :=
  axisOf a 0 + s.axisLen v 0 * (axisOf a 1 + s.axisLen v 1 * axisOf a 2)

/-- The fabric address of a linear index in a version. -/
def State.unlinear (s : State) (v n : Nat) : Nat :=
  n % s.axisLen v 0 + 64 * (n / s.axisLen v 0 % s.axisLen v 1) + 4096 * (n / s.axisLen v 0 / s.axisLen v 1 % 64)

/-- The address n steps from an address along direction d (0 X+, 1 X-, ...), modulo the axis length. -/
def State.stepAddr (s : State) (v a d n : Nat) : Nat :=
  let i := d / 2
  let len := s.axisLen v i
  let c := axisOf a i
  let t := if len = 0 then 0 else if d % 2 = 0 then (c + n) % len else (c + (len - n % len)) % len
  a - c * 64 ^ i + t * 64 ^ i

/-- The productive direction and distance on an axis (R253); none where the coordinate is reached. -/
def State.toward (s : State) (v dest i : Nat) : Option (Nat × Nat) :=
  let n := s.axisLen v i
  let delta := (axisOf dest i + n - axisOf (s.ownAddr v) i % (n + 1)) % n
  if delta = 0 then none
  else if delta ≤ n - delta then some (2 * i, delta)
  else some (2 * i + 1, n - delta)

/-- The direction and level of a port in a version: the REACH word that holds its bit. -/
def State.portDir (s : State) (v p : Nat) : Option (Nat × Nat) :=
  (List.range 24).findSome? fun i => if bit (s.reach v (i / 4) (i % 4)) p then some (i / 4, i % 4) else none

/-- The module that a port leads to. -/
def State.portPeer (s : State) (v p : Nat) : Option Nat :=
  (s.portDir v p).map fun x => s.stepAddr v (s.ownAddr v) x.1 (x.2 + 1)

/-- Whether a fabric address lies in a job's box (Table 10-6), modulo the axes. -/
def State.inBox (s : State) (x : Ctx) (v a : Nat) : Bool :=
  (List.range 3).all fun i =>
    let n := s.axisLen v i
    decide (0 < n ∧ (axisOf a i + n - x.fld (96 + i) 1 % (n + 1)) % n < x.fld (99 + i) 1)

/-- Whether a port's lanes reach a member of a context's job (R218, R238). -/
def State.memberPort (s : State) (c p : Nat) : Bool :=
  match s.portPeer s.epochNow p with
  | some a => s.inBox (s.ctx c) s.epochNow a
  | none => false

/-! ### Links and their virtual channels (R258-R260) -/

/-- CAP of a virtual channel (Table 12-4). -/
def vcCap (vc : Nat) : Nat := if vc % 2 = 0 then 4608 else 192

/-- A virtual channel with empty buffers and every counter at a seed; flits first transmitted before a slot are discarded. -/
def vcFresh (vc seed after : Nat) : VcSt :=
  { free := vcCap vc, sent := seed, got := seed, accepted := seed, freed := seed, held := 0, after := after }

/-- A link that is DOWN. -/
def linkNone : Link :=
  { up := false, vcs := [], nextPos := 0, posSlot := 0, history := [], cur := none, nack := none, again := none, named := none
    lastNack := none, replay := false, resend := [], badRun := 0, blocks := [], read := none, lastBad := none, audit := none
    repairOwn := none, repairMore := [], repairPeer := none, epochDiff := 0, turn := 0, quota := 0 }

/-- The link of port p. -/
def State.link (s : State) (p : Nat) : Link := Sparse.get (fun _ => linkNone) s.rt.links p

/-- Write the link of port p. -/
def State.setLink (s : State) (p : Nat) (l : Link) : State :=
  { s with rt := { s.rt with links := Sparse.set (fun _ => linkNone) s.rt.links p l } }

/-- A virtual channel of a link. -/
def Link.vc (l : Link) (v : Nat) : VcSt := Sparse.get (fun v => vcFresh v 0 0) l.vcs v

/-- Write a virtual channel of a link. -/
def Link.setVc (l : Link) (v : Nat) (x : VcSt) : Link := { l with vcs := Sparse.set (fun v => vcFresh v 0 0) l.vcs v x }

/-- Add to a gathered figure of the congestion map (R280): 0-7 HIST, 8 PEAK, 9 BLOCKED, 10 DIVERTED, 11 FLITS. -/
def State.congAdd (s : State) (p vc f n : Nat) : State :=
  let k := (8 * p + vc) * 16 + f
  { s with rt := { s.rt with cong := Sparse.set (fun _ => 0) s.rt.cong k (Sparse.get (fun _ => 0) s.rt.cong k + n) } }

/-- Raise a gathered figure to at least n. -/
def State.congMax (s : State) (p vc f n : Nat) : State :=
  let k := (8 * p + vc) * 16 + f
  let v := Nat.max n (Sparse.get (fun _ => 0) s.rt.cong k)
  { s with rt := { s.rt with cong := Sparse.set (fun _ => 0) s.rt.cong k v } }

/-! ### Packets in the router -/

/-- A packet that the router holds, the latest that entered under a number. -/
def State.heldOf (s : State) (id : Nat) : Option Held := s.rt.held.reverse.find? fun h => decide (h.id = id)

/-- Write a packet that the router holds. -/
def State.setHeld (s : State) (h : Held) : State :=
  { s with rt := { s.rt with held := s.rt.held.map fun x => if x.id = h.id then h else x } }

/-- Whether every flit of a packet has arrived. -/
def Held.whole (h : Held) : Bool := decide (pktFlits h.pkt ≤ h.come)

/-- The flits of a packet that stand in its input buffer: a unicast packet frees them as they leave, a multicast packet at its end (R266). -/
def Held.inBuf (h : Held) : Nat := h.come - (if h.pkt.typ = 1 then 0 else h.sent)

/-- A packet as it is sent on: on the chosen channel, one more hop (R265). -/
def Held.onward (h : Held) (esc : Bool) : Packet := { h.pkt with esc := esc, hops := h.pkt.hops + 1 }

/-- Flits leave an input buffer (R260). Port 48 is the module's own source. -/
def State.freeFlits (s : State) (port vc n : Nat) : State :=
  if port < 48 then
    let l := s.link port
    let x := l.vc vc
    s.setLink port (l.setVc vc { x with freed := (x.freed + n) % 2 ^ 32, held := x.held - n })
  else s

/-- Sending a packet stops (R274, R279): the credits of its unsent flits go back to the sender (log entry 34). -/
def State.stopSending (s : State) (h : Held) : State :=
  match h.via with
  | some (p, esc) =>
    let l := s.link p
    let v := pktVc (h.onward esc)
    let x := l.vc v
    s.setLink p (l.setVc v { x with free := x.free + (pktFlits h.pkt - h.sent) })
  | none => s

/-- What still arrives of a packet is discarded. -/
def Link.deaden (l : Link) (id : Nat) : Link :=
  { l with cur := l.cur.map fun c => if c.id = id then { c with dead := true } else c }

/-- The router no longer holds a packet: its flits are freed, its sending stops. -/
def State.dropHeld (s : State) (h : Held) : State :=
  let s := (s.freeFlits h.port h.vc h.inBuf).stopSending h
  let s : State := { s with rt := { s.rt with held := s.rt.held.filter fun x => decide (x.id ≠ h.id) } }
  if h.port < 48 then s.setLink h.port ((s.link h.port).deaden h.id) else s

/-! ### Transmission (R258, R260, R261) -/

/-- Whether a change of lane plan that applies to a port falls on the next boundary. -/
def State.changeNext (s : State) (p : Nat) : Bool :=
  (match s.opt.planReq with
    | some r => decide (r.2 = s.slot + 1 ∧ r.1 ≠ s.planNow)
    | none => false)
    || (match s.runningCtx with
      | none => false
      | some c =>
        let x := s.ctx c
        x.stepOn && decide (s.time.state ≠ .lost) && s.memberPort c p && (x.entries.drop x.timedPos).any fun e =>
          decide (e.2.op = 1 ∧ x.base + e.2.slot = x.slots + 1 ∧ e.2.arg % 64 ≠ s.planNow))

/-- The flits that each lane of a port carries in the current slot (Table 12-3). -/
def State.laneFlits (s : State) (p : Nat) : Nat :=
  slotFlits (decide (s.opt.changeAt = some s.slot) && s.opt.scope.contains p) (s.changeNext p)

/-- The position that the next flit of a port takes (R258). -/
def State.txPos (s : State) (p : Nat) : Nat := if (s.link p).posSlot = s.slot then (s.link p).nextPos else 0

/-- The flit positions of a port that the current slot still has. -/
def State.txRoom (s : State) (p : Nat) : Nat := (s.linkLanes p).length * s.laneFlits p - s.txPos p

/-- A flit leaves on the next position j of the link, on the (j mod n)-th of its n lanes as flit j div n of that lane (R258). -/
def State.emitFlit (s : State) (p : Nat) (bytes : List Byte) : State :=
  let pos := s.txPos p
  let lanes := s.linkLanes p
  let n := lanes.length
  let t := s.setLink p { s.link p with nextPos := pos + 1, posSlot := s.slot }
  { t with out := .flit p (lanes.getD (pos % n) 0) s.slot (pos / n) bytes :: t.out }

/-- The flits of the last four slots with one more (R261); a flit that is sent again keeps the place of its first transmission. -/
def Link.keep (l : Link) (now : Nat) (f : TxFlit) : Link :=
  { l with history := (l.history.filter fun (e : TxFlit) => decide (now < e.at_ + 4) && !(decide (e.slot = f.slot) && decide (e.pos = f.pos))) ++ [f] }

/-- Transmit a flit for the first time. -/
def State.sendFlit (s : State) (p vc : Nat) (bytes : List Byte) : State :=
  let pos := s.txPos p
  let t := s.emitFlit p bytes
  let l := t.link p
  let x := l.vc vc
  let l := (l.setVc vc { x with sent := (x.sent + 1) % 2 ^ 32 }).keep s.slot { at_ := s.slot, slot := s.slot, pos := pos, vc := vc, bytes := bytes }
  (t.setLink p l).congAdd p vc 11 1

/-- Transmit a flit again (R261). -/
def State.sendAgain (s : State) (p : Nat) (f : TxFlit) : State :=
  let t := s.emitFlit p f.bytes
  t.setLink p ((t.link p).keep s.slot { f with at_ := s.slot })

/-- Whether a packet is being sent on a port. -/
def State.portBusy (s : State) (p : Nat) : Bool := s.rt.held.any fun h => match h.via with
  | some v => decide (v.1 = p)
  | none => false

/-- Whether a port takes a new packet now: no packet is being sent on it, no replay waits, and the slot has positions left. -/
def State.portFree (s : State) (p : Nat) : Bool :=
  !s.portBusy p && !(s.link p).replay && (s.link p).resend.isEmpty && decide (0 < s.txRoom p)

/-- The flits of a packet that have arrived go out on the positions that the slot has left; a packet all of whose flits are sent leaves
the router (R260). -/
def State.pump (s : State) (h : Held) : State :=
  match h.via with
  | none => s
  | some (p, esc) =>
    let pk := h.onward esc
    let n := pktFlits h.pkt
    let k := Nat.min (h.come - h.sent) (s.txRoom p)
    let s := (List.range k).foldl (fun s i => s.sendFlit p (pktVc pk) (flitBytes pk (h.sent + i))) s
    let h := { h with sent := h.sent + k }
    let s := if h.pkt.typ = 1 then s else s.freeFlits h.port h.vc k
    if n ≤ h.sent then s.dropHeld h else s.setHeld h

/-- The header of a packet is sent (R260): credits for every flit are consumed, and its flits follow. -/
def State.sendHead (s : State) (h : Held) (p : Nat) (esc : Bool) : State :=
  let l := s.link p
  let vc := pktVc (h.onward esc)
  let n := pktFlits h.pkt
  let x := l.vc vc
  let w := if l.turn = h.pkt.tc.toNat then l.quota else 65 * s.odg 0x2601 0x01 h.pkt.tc.toNat
  let l := { l.setVc vc { x with free := x.free - n } with turn := h.pkt.tc.toNat, quota := w - n }
  let s := (s.setLink p l).congMax p vc 8 (vcCap vc - (x.free - n))
  let s := if esc && !h.pkt.esc then s.congAdd p (vc - 1) 10 1 else s
  (s.setHeld { h with via := some (p, esc) }).pump { h with via := some (p, esc) }

/-- Go-back-N on the sending side (R261): at a packet boundary the replay marker goes out, and then every flit from the named one
onward. -/
def State.resendGo (s : State) (p : Nat) : State :=
  let l := s.link p
  if l.named.isNone && l.resend.isEmpty then s else
  let s := match l.named with
    | some at_ =>
      if l.replay = false ∨ s.portBusy p = true ∨ s.txRoom p = 0 then s
      else
        let from_ := l.history.dropWhile fun (e : TxFlit) => !(decide (e.pos = at_.1) && decide (e.slot % 256 = at_.2))
        let s := s.setLink p { l with replay := false, resend := from_ }
        match from_ with
        | f :: _ => s.emitFlit p (markerFlit f.slot f.pos)
        | [] => s
    | none => s
  let l := s.link p
  let k := Nat.min l.resend.length (s.txRoom p)
  let now := l.resend.take k
  now.foldl (fun s f => s.sendAgain p f) (s.setLink p { l with resend := l.resend.drop k })

end Sys2Proof.Machine
end

