-- ==== Sys2Proof/Machine/RouterOps.lean ====
section
/-! DEFINITION. What the routing commands share (chapter 12): the choice of a route, returns and the loss rule, windows, ejection, arbitration,
messages, repair, the control block, the congestion map. -/

namespace Sys2Proof.Machine

/-! ### Choosing a route (R263, R265, R266) -/

/-- The ports of a REACH word, lowest first. -/
def State.reachPorts (s : State) (v d k : Nat) : List Nat := listBelow (fun p => bit (s.reach v d k) p) 48

/-- The productive ports of a packet that are usable: (direction, level, port) in order (R265). -/
def State.prodPorts (s : State) (v dest : Nat) : List (Nat × Nat × Nat) :=
  ((List.range 3).map fun i => match s.toward v dest i with
    | none => []
    | some (d, dist) => ((List.range 4).map fun k =>
        if k + 1 ≤ dist then ((s.reachPorts v d k).filter fun p => (s.link p).up).map fun p => (d, k, p) else []).flatten).flatten

/-- The adaptive choice (R265): the port whose adaptive channel has the most free credits, lowest first on a tie. -/
def State.adaptive (s : State) (vc n : Nat) (ports : List Nat) : Option Nat :=
  ports.foldl (fun best p =>
    let f := ((s.link p).vc vc).free
    if f < n then best else match best with
      | some q => if ((s.link q).vc vc).free < f then some p else best
      | none => some p) none

/-- The escape choice (R265): the lowest usable port of REACH(d, 0) with the bubble of 65 flits where the ring is entered. -/
def State.escape (s : State) (v d vc need : Nat) : Option Nat :=
  (s.reachPorts v d 0).find? fun p => (s.link p).up && decide (need ≤ ((s.link p).vc vc).free)

/-- Whether a packet that arrived on a port enters the escape ring of direction d (R265). -/
def State.entersRing (s : State) (v port d : Nat) (esc : Bool) : Bool :=
  !esc || (match s.portDir v port with
    | some (e, _) => decide (e / 2 ≠ d / 2)
    | none => true)

/-- The direction in which a packet would take the escape channel. -/
def State.escapeDir (s : State) (v : Nat) (pk : Packet) : Option Nat :=
  if pk.typ = 1 then some (mcDir pk)
  else (List.range 3).findSome? fun i => (s.toward v (pktDest pk) i).map Prod.fst

/-- The usable ports of a packet (R263, R265): those of its productive directions; on the escape channel, those of one hop along its
first productive direction alone; of a multicast packet, those of one hop along its axis. -/
def State.usablePorts (s : State) (pk : Packet) : List Nat :=
  let v := pktVer pk
  if pk.typ = 1 ∨ pk.esc = true then
    match s.escapeDir v pk with
    | some d => (s.reachPorts v d 0).filter fun p => (s.link p).up
    | none => []
  else (s.prodPorts v (pktDest pk)).map fun x => x.2.2

/-- The output port and channel a held packet takes now (R265, R266); none where it waits. -/
def State.pick (s : State) (h : Held) : Option (Nat × Bool) :=
  let pk := h.pkt
  let v := pktVer pk
  let n := pktFlits pk
  let tc := pk.tc.toNat
  match (if pk.esc then none else s.adaptive (2 * tc) n (s.usablePorts pk)) with
  | some p => some (p, false)
  | none =>
    match s.escapeDir v pk with
    | some d => (s.escape v d (2 * tc + 1) (n + (if s.entersRing v h.port d pk.esc then 65 else 0))).map fun p => (p, true)
    | none => none

/-! ### Returns and loss (R273, R274) -/

/-- Place a return in the return queue of 4,096; while it is full the return waits behind it (R273). -/
def State.pushReturn (s : State) (p : Packet) : State :=
  if s.rt.returns.length < 4096 then { s with rt := { s.rt with returns := s.rt.returns ++ [p] } }
  else { s with rt := { s.rt with owed := s.rt.owed ++ [p] } }

/-- The modules a multicast packet has still to serve, this one included where it was not copied (R266, R272). -/
def State.mcLeft (s : State) (pkt : Packet) (served : Bool) : List Nat :=
  let v := pktVer pkt
  let i := pkt.mcAxis.toNat
  let n := s.axisLen v i
  let own := s.ownAddr v
  let far := if pkt.mcNeg then (axisOf own i + n - axisOf (pktDest pkt) i % (n + 1)) % n
    else (axisOf (pktDest pkt) i + n - axisOf own i % (n + 1)) % n
  (if served then [] else [own]) ++ (List.range far).map fun k => s.stepAddr v own (mcDir pkt) (k + 1)

/-- A packet whose header has not been forwarded is lost (R274): its bytes are returned LOST, for every module it was still to serve; a
window return is queued for injection again. -/
def State.lose (s : State) (h : Held) : State :=
  if h.pkt.typ = 2 then s.pushReturn h.pkt
  else if h.pkt.typ = 1 then
    (s.mcLeft h.pkt (h.copied || decide (h.port = 48))).foldl (fun s a => s.pushReturn (returnPkt h.pkt a h.pkt.payLen.toNat true false false)) s
  else s.pushReturn (returnPkt h.pkt (pktDest h.pkt) h.pkt.payLen.toNat true false false)

/-- A packet is dropped by the loss rule (R274), and counted; one whose header was forwarded only stops being sent. -/
def State.dropPkt (s : State) (h : Held) : State :=
  if h.via.isSome then s.dropHeld h else ((s.dropHeld h).bump 0x2603 0x08 0).lose h

/-- Drop a packet; while the return queue is full it stays in its buffer (R274). -/
def State.dropOrKeep (s : State) (h : Held) : State := if s.rt.returns.length < 4096 then s.dropPkt h else s

/-! ### Lost contributions (R302) -/

/-- The context a job's event belongs to: the running one, else the lowest resident one of that job. -/
def State.ctxOfJob (s : State) (job : Nat) : Option Nat :=
  match s.runningCtx with
  | some c => if (s.ctx c).job = job then some c else other
  | none => other
where
  /-- The lowest resident context of the job. -/
  other : Option Nat := (Sparse.keys s.ctxs).find? fun c => decide ((s.ctx c).job = job)

/-- The lost-contribution event (R302): counted, recorded, latched for the running step or counted after the vote. -/
def State.lostEvent (s : State) (c status : Nat) : State :=
  let s := (s.bump 0x2702 0x09 0).herdEvent 0x2702 c 0 status
  if (s.ctx c).vote.isSome then s.afterVote c
  else if (s.ctx c).stepOn then s.setCtx c { s.ctx c with lostEv := true, repeatEv := true } else s

/-! ### Windows (R272, R273) -/

/-- The key of a window. -/
def winKey (dest tc : Nat) : Nat := 4 * dest + tc

/-- A window that nothing has used. -/
def winNone : Win := { out := 0, size := 0, nextId := 0, msgs := [] }

/-- The window toward a destination in a class. -/
def State.win (s : State) (k : Nat) : Win := Sparse.get (fun _ => winNone) s.rt.wins k

/-- Write a window. -/
def State.setWin (s : State) (k : Nat) (w : Win) : State :=
  { s with rt := { s.rt with wins := Sparse.set (fun _ => winNone) s.rt.wins k w } }

/-- The window size in effect: OD 0x2601:02 applies when no bytes are outstanding (Table 12-8). -/
def State.winSize (s : State) (k : Nat) : Nat :=
  if (s.win k).out = 0 then s.odg 0x2601 0x02 (k % 4) else (s.win k).size

/-- Whether a window takes a packet of message `id` now (R272). -/
def State.winTakes (s : State) (k n id : Nat) : Bool :=
  decide ((s.win k).out + n ≤ s.winSize k) &&
    ((s.win k).msgs.any (fun m => decide (m.id = id)) || decide ((s.win k).msgs.length < 8))

/-- Whether packets of a message still wait for injection. -/
def State.moreToSend (s : State) (k id : Nat) : Bool :=
  s.rt.inject.any fun x => decide (x.pkt.msgId.toNat = id ∧ x.pkt.tc.toNat = k % 4) &&
    (if x.pkt.typ = 1 then (s.mcLeft { x.pkt with epoch := bit s.epochNow 0 } true).any fun a => decide (winKey a x.pkt.tc.toNat = k)
     else decide (pktDest x.pkt = k / 4))

/-- The messages of a window that stay open (R272): some byte reserved has not been returned, or packets of it wait for injection. -/
def State.openMsgs (s : State) (k : Nat) (ms : List OpenMsg) : List OpenMsg :=
  ms.filter fun m => decide (m.left ≠ 0) || s.moreToSend k m.id

/-- Messages that nothing keeps open close (R272): after packets that waited for injection are gone. -/
def State.closeMsgs (s : State) : State :=
  (Sparse.keys s.rt.wins).foldl (fun s k => s.setWin k { s.win k with msgs := s.openMsgs k (s.win k).msgs }) s

/-- Reserve the bytes of a packet and open its message (R272). -/
def State.reserve (s : State) (k n id job : Nat) (owner : Option (Nat × Nat)) : State :=
  let w := s.win k
  let ms := if w.msgs.any (fun m => decide (m.id = id)) then w.msgs.map fun m => if m.id = id then { m with left := m.left + n } else m
    else w.msgs ++ [{ id := id, left := n, job := job, owner := owner }]
  s.setWin k { w with out := w.out + n, size := s.winSize k, msgs := ms }

/-- The collective that sent a lost message stops (R292). -/
def State.stopColl (s : State) (owner : Nat × Nat) (status : Nat) : State :=
  match s.tasks.colls.find? fun t => decide (t.ctx = owner.1 ∧ t.pos = owner.2) with
  | some t => s.collStop t status
  | none => s

/-- A window return arrives (R273): the bytes leave the window and the message. -/
def State.returnArrives (s : State) (p : Packet) : State :=
  let k := winKey (pktSrc p) p.tc.toNat
  let w := s.win k
  match w.msgs.find? fun m => decide (m.id = p.msgId.toNat) with
  | none => s.bump 0x2603 0x07 0
  | some m =>
    let n := Nat.min p.msgLen.toNat m.left
    let ms := s.openMsgs k (w.msgs.map fun x => if x.id = m.id then { x with left := x.left - n } else x)
    let s := s.setWin k { w with out := w.out - n, msgs := ms }
    let s := if p.lost then s.bump 0x2603 0x04 0 else s
    let s := if p.refused then s.bump 0x2603 0x05 0 else s
    let s := if p.stale then s.bump 0x2603 0x06 0 else s
    if p.lost || p.refused then
      let s := match s.ctxOfJob m.job with
        | some c => s.lostEvent c St.COLL_LOST
        | none => s
      match m.owner with
      | some o => s.stopColl o St.COLL_LOST
      | none => s
    else s

/-! ### Receive queues (R268-R270) -/

/-- The record of receive queue q (Table 12-6). -/
def State.rxRec (s : State) (q : Nat) : List Byte := s.memBytes (s.odg 0x2602 0x02 + 32 * q) 32

/-- The index of a packet's reassembly entry (R269). -/
def State.reasmIdx (s : State) (p : Packet) : Nat :=
  (4 * s.linear (pktVer p) (pktSrc p) + p.tc.toNat) * 8 + p.msgId.toNat % 8

/-- An entry that nothing uses. -/
def reasmNone : Reasm :=
  { msgId := 0, job := 0, rxq := 0, len := 0, got := 0, last := false, stale := false, body := [] }

/-- A reassembly entry. -/
def State.entry (s : State) (i : Nat) : Reasm := Sparse.get (fun _ => reasmNone) s.rt.reasm i

/-- Write a reassembly entry. -/
def State.setEntry (s : State) (i : Nat) (e : Reasm) : State :=
  { s with rt := { s.rt with reasm := Sparse.set (fun _ => reasmNone) s.rt.reasm i e } }

/-- Whether a message number is newer than another (R271); the numbers wrap (log entry 34). -/
def newerId (a b : Nat) : Bool := decide (0 < (a + 65536 - b) % 65536 ∧ (a + 65536 - b) % 65536 < 32768)

/-- The entry that a packet takes (R269, R271): its message's own, or a fresh one; a stale entry is cleared by a newer message alone. -/
def State.entryFor (s : State) (p : Packet) : Reasm :=
  let e := s.entry (s.reasmIdx p)
  if e.len ≠ 0 ∧ (e.msgId = p.msgId.toNat ∨ (e.stale = true ∧ newerId p.msgId.toNat e.msgId = false)) then e
  else { reasmNone with msgId := p.msgId.toNat, job := p.job.toNat, rxq := p.rxq.toNat, len := p.msgLen.toNat }

/-- Whether an arriving data packet is refused (R269). -/
def State.rxRefuses (s : State) (p : Packet) (e : Reasm) : Bool :=
  let r := s.rxRec p.rxq.toNat
  (if p.rxq = 0xFFFF then false else
    !(bit (fld r 0 1) 0) || decide (fld r 2 2 ≠ p.job.toNat) || decide (fld r 16 8 < p.offset.toNat + p.payLen.toNat))
    || decide (e.len ≠ p.msgLen.toNat ∨ p.msgLen.toNat < e.got + p.payLen.toNat)

/-- Write a payload to BASE + OFFSET of its queue's space (R269); a write that memory refuses is a storage event (R391). -/
def State.rxWrite (s : State) (p : Packet) : State :=
  let r := s.rxRec p.rxq.toNat
  let sp := bits (fld r 0 1) 3 1
  let a := fld r 8 8 + p.offset.toNat
  if p.rxq = 0xFFFF then s
  else if sp = 0 then
    let w := s.writeRun a p.payload
    if w.2 = 0 then w.1 else w.1.storageEvent (w.1.ctxOfJob p.job.toNat) w.2 a
  else p.payload.zipIdx.foldl (fun s b => s.putLoc b.1 (s.locOf sp (fld r 8 8) (p.offset.toNat + b.2))) s

/-- Take a data packet at its destination (R269-R271, R273): every packet takes its entry; a message is complete with the packet that
brings its count to MSG_LEN once LAST has come. -/
def State.eject (s : State) (p : Packet) : State :=
  let own := s.ownAddr (pktVer p)
  let n := p.payLen.toNat
  let i := s.reasmIdx p
  let e := s.entryFor p
  if e.stale then s.pushReturn (returnPkt p own n false false true)
  else if s.rxRefuses p e then (s.setEntry i e).pushReturn (returnPkt p own n false true false)
  else
    let e := { e with got := e.got + n, last := e.last || p.last
                      body := if p.rxq = 0xFFFF then Sparse.ins p.offset.toNat p.payload e.body else [] }
    let t := (((s.rxWrite p).setEntry i e).bump 0x2603 0x02 0).pushReturn (returnPkt p own n false false false)
    if e.got = e.len ∧ e.last = true then { t with rt := { t.rt with done := t.rt.done ++ [(i, e)] } } else t

/-- The module-memory bytes a packet's ejection writes, for R315. -/
def State.rxRange (s : State) (p : Packet) : List (Nat × Nat) :=
  let r := s.rxRec p.rxq.toNat
  if p.rxq ≠ 0xFFFF ∧ bits (fld r 0 1) 3 1 = 0 then [(fld r 8 8 + p.offset.toNat, p.payLen.toNat)] else []

/-- Whether the snoop filter holds a line that the ejection would write (R315). -/
def State.rxBlocked (s : State) (p : Packet) : List Nat :=
  if p.typ = 2 then [] else ((s.rxRange p).map fun r => s.filtered r.1 r.2).flatten

/-! ### A packet in the router -/

/-- Whether a multicast packet breaks R266. -/
def State.mcBroken (s : State) (p : Packet) : Bool :=
  decide (p.mcAxis = 3 ∨ p.mcHops = 0) ||
    decide (s.stepAddr (pktVer p) (pktSrc p) (mcDir p) p.mcHops.toNat ≠ pktDest p)

/-- What becomes of a packet here. -/
inductive Fate where
  | drop | eject | copy | finished | forward
  deriving DecidableEq, Repr

/-- What becomes of a packet (R254, R265, R266, R269). -/
def State.fate (s : State) (h : Held) : Fate :=
  let p := h.pkt
  let v := pktVer p
  let here := decide (pktDest p = s.ownAddr v)
  let spent := decide (96 ≤ p.hops.toNat)
  if s.inLen v (pktDest p) = false then .drop
  else if p.typ = 1 then
    if s.mcBroken p then .drop
    else if h.copied = true ∨ h.port = 48 then (if here then .finished else if spent then .drop else .forward)
    else if here then .eject else .copy
  else if here then .eject
  else if spent then .drop
  else .forward

/-- Act on a packet of which everything has arrived (R266, R268, R274): a snoop that its ejection needs comes first (R315). -/
def State.settleHeld (s : State) (id : Nat) : State :=
  match s.heldOf id with
  | none => s
  | some h =>
    if h.via.isSome then s.pump h
    else if h.whole = false then s
    else match s.fate h with
      | .drop => s.dropOrKeep h
      | .finished => s.dropHeld h
      | .forward => s
      | .eject =>
        if s.rxBlocked h.pkt ≠ [] then s.snoopLines (s.rxBlocked h.pkt)
        else if h.pkt.typ = 2 then (s.dropHeld h).returnArrives h.pkt else (s.dropHeld h).eject h.pkt
      | .copy =>
        if s.rxBlocked h.pkt ≠ [] then s.snoopLines (s.rxBlocked h.pkt)
        else (s.eject h.pkt).setHeld { h with copied := true }

/-! ### Arbitration (R267) -/

/-- A packet that may be sent now with its port and channel: a multicast packet once it is whole, another once its header is here. -/
def State.sendable (s : State) (h : Held) : Option (Held × Nat × Bool) :=
  if h.via.isSome || (decide (h.pkt.typ = 1) && !h.whole) || decide (s.fate h ≠ .forward) then none
  else match s.pick h with
    | some (p, esc) => if s.portFree p then some (h, p, esc) else none
    | none => none

/-- The class a port serves next among those that wait (R267): the one whose turn it is while its flits last, else the next in order. -/
def Link.nextClass (l : Link) (waits : Nat → Bool) : Option Nat :=
  if waits l.turn && decide (0 < l.quota) then some l.turn
  else ((List.range 4).map fun i => (l.turn + 1 + i) % 4).find? waits

/-- The packet that is sent next (R267): on the lowest port for which one waits, escape channels before adaptive ones, the classes by
weighted turns, the first come within a class. -/
def State.nextToSend (s : State) : Option (Held × Nat × Bool) :=
  let all := s.rt.held.filterMap s.sendable
  match (List.range 48).find? fun p => all.any fun x => decide (x.2.1 = p) with
  | none => none
  | some p =>
    let mine := all.filter fun x => decide (x.2.1 = p)
    let mine := if mine.any (fun x => x.2.2) then mine.filter fun x => x.2.2 else mine
    match (s.link p).nextClass fun c => mine.any fun x => decide (x.1.pkt.tc.toNat = c) with
    | none => none
    | some c => mine.find? fun x => decide (x.1.pkt.tc.toNat = c)

/-- Send packets that wait while a port takes one; n bounds their number. -/
def State.serve : Nat → State → State
  | 0, s => s
  | n + 1, s => match s.nextToSend with
    | none => s
    | some x => State.serve n (s.sendHead x.1 x.2.1 x.2.2)

/-- What the router does at a change of credits or of the slot (R261, R265): it acts on the packets that are here, resends what a NACK
named, and sends what may go. -/
def State.retryHeld (s : State) : State :=
  let s := (s.rt.held.map fun h => h.id).foldl State.settleHeld s
  let s := (List.range 48).foldl State.resendGo s
  s.serve s.rt.held.length

/-- A packet enters the router with some of its flits (R265). -/
def State.enter (s : State) (port vc : Nat) (p : Packet) (come : Nat) : State :=
  let h : Held := { id := s.rt.seq, port := port, vc := vc, pkt := p, come := come, since := s.slot, copied := false
                    via := none, sent := 0 }
  { s with rt := { s.rt with held := s.rt.held ++ [h], seq := s.rt.seq + 1 } }

/-- The router acts on a packet that has entered or grown. -/
def State.route (s : State) (id : Nat) : State :=
  let t := s.settleHeld id
  t.serve t.rt.held.length

/-- A packet of the module's own enters whole and is routed. -/
def State.sendOwn (s : State) (p : Packet) : State := (s.enter 48 (pktVc p) p (pktFlits p)).route s.rt.seq

/-- The slot that has come without a usable port counts for packets that have none (R263). -/
def State.noteUsable (s : State) : State :=
  { s with rt := { s.rt with held := s.rt.held.map fun h =>
      if (s.usablePorts h.pkt).isEmpty = false then { h with since := s.slot } else h } }

/-! ### Flits that arrive (R256, R260, R261) -/

/-- Take a flit into a virtual channel's buffer, or count it as accepted and freed at once where it is discarded (R262, R278). -/
def Link.take (l : Link) (vc slot : Nat) (dead : Bool) : Link :=
  let x := l.vc vc
  let l := l.setVc vc { x with accepted := (x.accepted + 1) % 2 ^ 32, freed := (x.freed + (if dead then 1 else 0)) % 2 ^ 32
                               held := x.held + (if dead then 0 else 1) }
  { l with audit := l.audit.map fun a =>
      if slot < a.slot then { a with accepted := a.accepted.set vc ((a.accepted.getD vc 0 + 1) % 2 ^ 32) } else a }

/-- A bad flit (R261, R262): this end names it until its marker comes; the same flit bad again takes the link DOWN. The caller gives what
DOWN does. -/
def State.badFlit (s : State) (p : Nat) (at_ : Nat × Nat) (down : State → State) : State :=
  let l := s.link p
  if l.again = some at_ then down s
  else ((s.setLink p { l with nack := some at_, again := some at_ }).bump 0x2603 0x09 0).bump (portIdx p 1) 0x04 0

/-- The first flit of a packet (R256, R260): it enters its virtual channel's buffer; one first transmitted before a repair is discarded
with what follows (R279). -/
def State.headFlit (s : State) (p : Nat) (f : RxFlit) : State :=
  let pk := readHeader f.bytes
  let vc := pktVc pk
  let l := s.link p
  let gone := decide (f.slot.toNat < (l.vc vc).after)
  let id := s.rt.seq
  let cur : RxCur := { id := id, vc := vc, left := pktFlits pk - 1, lastAt := s.time.fabric, dead := gone }
  let l := if gone then l else l.take vc f.slot.toNat false
  let s := s.setLink p { l with cur := if cur.left = 0 then none else some cur }
  if gone then { s with rt := { s.rt with seq := id + 1 } } else (s.enter p vc pk 1).route id

/-- A further flit of the packet that is arriving. -/
def State.bodyFlit (s : State) (p : Nat) (f : RxFlit) (c : RxCur) : State :=
  let l := s.link p
  let gone := decide (f.slot.toNat < (l.vc c.vc).after)
  let l := if gone then l else l.take c.vc f.slot.toNat c.dead
  let s := s.setLink p { l with cur := if c.left = 1 then none else some { c with left := c.left - 1, lastAt := s.time.fabric } }
  match s.heldOf c.id with
  | some h =>
    if c.dead || gone then s
    else
      let pk := { h.pkt with payload := (h.pkt.payload ++ f.bytes).take h.pkt.payLen.toNat }
      (s.setHeld { h with pkt := pk, come := h.come + 1 }).route c.id
  | none => s

/-- Take a flit of a link that is UP (R239, R256, R261, R262): nothing from a lane that takes no payload; after a bad flit nothing until the
marker that names it. At a packet boundary an idle flit or a marker carries no packet. -/
def State.rxFlit (s : State) (p : Nat) (down : State → State) (f : RxFlit) : State :=
  let l := s.link p
  let at_ := (f.pos.toNat, f.slot.toNat)
  if !l.up || !s.laneTakes p f.channel.toNat then s
  else match l.nack with
    | some n =>
      if f.bad = false ∧ markerOf f.bytes = some (n.1, n.2 % 2 ^ 32) then s.setLink p { l with nack := none } else s
    | none =>
      if f.bad then s.badFlit p at_ down
      else match (match l.cur with
          | some c => if c.dead = true ∧ (l.vc c.vc).after ≤ f.slot.toNat ∧ 0 < (l.vc c.vc).after then none else some c
          | none => none) with
        | some c => s.bodyFlit p f c
        | none =>
          let s := s.setLink p { l with cur := none }
          if f.bytes = idleFlit ∨ (markerOf f.bytes).isSome = true then s
          else if badHeader f.bytes then s.badFlit p at_ down
          else s.headFlit p f

/-! ### Messages of this module (R257, R272) -/

/-- The next message number toward a destination in a class, and its use. -/
def State.takeId (s : State) (k : Nat) : Nat × State :=
  let w := s.win k
  (w.nextId, s.setWin k { w with nextId := (w.nextId + 1) % 65536 })

/-- The packets of one message of at most 16 MiB (R257). -/
def messagePkts (own dest tc rxq job id : Nat) (bytes : List Byte) : List Packet :=
  let n := bytes.length
  (List.range ((n + 4095) / 4096)).map fun i =>
    dataPkt own dest tc rxq job id n (4096 * i) (decide (4096 * (i + 1) ≥ n)) ((bytes.drop (4096 * i)).take 4096)

/-- Form a message and hand its packets to the injection list (R257, R272). -/
def State.sendMessage (s : State) (dest tc rxq job : Nat) (bytes : List Byte) (dma owner : Option (Nat × Nat)) : State :=
  if bytes.isEmpty then s else
  let x := s.takeId (winKey dest tc)
  let ps := messagePkts (s.ownAddr s.epochNow) dest tc rxq job x.1 bytes
  { x.2 with rt := { x.2.rt with inject := x.2.rt.inject ++ ps.map fun p => { pkt := p, dma := dma, owner := owner, job := job } } }

/-- The payload cut into messages of at most `m` bytes. -/
def chunks (m : Nat) (bytes : List Byte) : List (List Byte) :=
  (List.range ((bytes.length + m - 1) / m)).map fun i => (bytes.drop (m * i)).take m

/-- A routine's payload toward a module, as messages of at most 16 MiB. -/
def State.sendRoutine (s : State) (dest tc rxq job : Nat) (bytes : List Byte) (owner : Nat × Nat) : State :=
  (chunks 16777216 bytes).foldl (fun s b => s.sendMessage dest tc rxq job b none (some owner)) s

/-! ### Repair and DOWN (R262, R279) -/

/-- Repair a virtual channel of a link (R279) with a seed: the receiver moves window returns to the return queue and loses the other packets
it has not forwarded, and discards flits first transmitted before a slot; the sender stops the packet it was sending. -/
def State.repairVc (s : State) (p vc seed after : Nat) : State :=
  let mine := s.rt.held.filter fun h => decide (h.port = p ∧ h.vc = vc)
  let s := mine.foldl (fun s h => if h.pkt.typ = 2 ∧ h.via.isNone = true then (s.dropHeld h).pushReturn h.pkt else s.dropPkt h) s
  let out := s.rt.held.filter fun h => match h.via with
    | some (q, esc) => decide (q = p ∧ pktVc (h.onward esc) = vc)
    | none => false
  let s := out.foldl (fun s h => s.dropHeld h) s
  let l := s.link p
  let cur := l.cur.map fun c => if c.vc = vc then { c with dead := true } else c
  s.setLink p ({ l with cur := cur }.setVc vc (vcFresh vc seed after))

/-- The link goes DOWN (R262), and its receive crossing is reset (R365). -/
def State.linkDown (s : State) (p : Nat) : State :=
  if (s.link p).up then ((List.range 8).foldl (fun s v => s.repairVc p v 0 0) (s.resetGroup 5 1 (groupHits 5 p))).setLink p linkNone else s

/-- An audit violation (R278, R279): counted, recorded, repair requested 16 slots ahead; a further channel waits for its turn. -/
def State.violate (s : State) (p vc : Nat) : State :=
  let r := s.slot + 16
  let l := s.link p
  let s := (s.bump 0x2603 0x0C 0).bump (portIdx p 1) 0x06 0
  let s := s.herdEvent 0x2601 (p + 64 * vc) 0 r
  s.setLink p (match l.repairOwn with
    | some x => if x.1 = vc ∨ l.repairMore.contains vc = true then l else { l with repairMore := l.repairMore ++ [vc] }
    | none => { l with repairOwn := some (vc, r, false) })

/-- The flits of a virtual channel whose credits are consumed and that are not yet sent. -/
def State.unsent (s : State) (p vc : Nat) : Nat :=
  (s.rt.held.map fun h => match h.via with
    | some (q, esc) => if q = p ∧ pktVc (h.onward esc) = vc then pktFlits h.pkt - h.sent else 0
    | none => 0).foldl (· + ·) 0

/-- How many of the two local checks of a virtual channel fail (R278): occupancy against accepted less freed flits, free credits against
CAP less sent flits plus credits read, where flits whose credits are consumed count as sent. -/
def State.localFails (s : State) (p v : Nat) : Nat :=
  let x := (s.link p).vc v
  b2n (decide (x.held ≠ (x.accepted + 2 ^ 32 - x.freed) % 2 ^ 32))
    + b2n (decide ((x.free + x.sent + s.unsent p v) % 2 ^ 32 ≠ (vcCap v + x.got) % 2 ^ 32))

/-- Start the audit of a link at slot a (R278): the local checks, the counts that its fields will carry. -/
def State.auditLink (s : State) (a p : Nat) : State :=
  let l := s.link p
  if l.up then
    let late := fun v => (l.history.filter fun f => decide (f.vc = v ∧ a ≤ f.slot)).length
    let x : Audit :=
      { slot := a
        sent := (List.range 8).map fun v => ((l.vc v).sent + 2 ^ 32 - late v) % 2 ^ 32
        accepted := (List.range 8).map fun v => (l.vc v).accepted
        freed := ((l.blocks.find? fun b => decide (b.1 + 1 = a)).map Prod.snd).getD ((List.range 8).map fun v => (l.vc v).freed)
        got := match l.read with
          | some b => if b.1 + 1 = a then some b.2 else none
          | none => none
        done := [], badPrev := decide (0 < a ∧ l.lastBad = some (a - 1)) }
    let s := (s.setLink p { l with audit := some x }).odp (portIdx p 1) 0x07 0 a
    (List.range 8).foldl (fun s v => (List.range (s.localFails p v)).foldl (fun s _ => s.violate p v) s) s
  else s

/-- The injection epoch changes at slot a (R275, R276, R278). -/
def State.setEpoch (s : State) (e a : Nat) (ports : List Nat) : State :=
  ports.foldl (fun s p => s.auditLink a p) (s.odp 0x2600 0x04 0 e)

/-! ### Routing table writes (R252) -/

/-- Whether a plan version of a resident context has an entry of an operation whose argument, as read, is a value (R233, R252). -/
def State.planNames (s : State) (op : Nat) (read : Nat → Nat) (v : Nat) : Bool :=
  (Sparse.keys s.ctxs).any fun c => (entriesFrom 0 false (s.ctx c).plan0 ++ entriesFrom 0 false (s.ctx c).plan1).any fun e =>
    decide (e.2.op = op ∧ read e.2.arg = v)

/-- The status of a write of a routing table version, 0 where it is taken (R10, R252). -/
def State.routeTableStatus (s : State) (v : Nat) (b : List Byte) : Nat :=
  let own := fun i => fld b i 1
  let len := fun i => fld b (4 + i) 1
  let reach := fun d k => fld b (8 + 8 * (4 * d + k)) 8
  let words := ((List.range 6).map fun d => (List.range 4).map fun k => reach d k).flatten
  if b.length ≠ 256 then St.OD_SIZE_MISMATCH
  else if (List.range 3).any (fun i => decide (64 ≤ own i ∨ 128 ≤ len i)) || decide (fld b 3 1 ≠ 0 ∨ fld b 7 1 ≠ 0 ∨ fld b 200 56 ≠ 0)
      || words.any (fun w => decide (2 ^ 48 ≤ w)) then St.OD_RESERVED_NONZERO
  else if (List.range 3).any (fun i => decide (len i = 0 ∨ 64 < len i ∨ len i ≤ own i)) || decide (20480 < len 0 * len 1 * len 2)
      || (List.range 48).any (fun p => decide (1 < (words.filter fun w => bit w p).length))
      || (List.range 24).any (fun i => decide (reach (i / 4) (i % 4) ≠ 0 ∧ len (i / 8) / 2 < i % 4 + 1))
      || (List.range 6).any (fun d => decide (2 ≤ len (d / 2) ∧ reach d 0 = 0)) then St.ROUTE_TABLE_INVALID
  else if v = s.epochNow ∨ s.planNames 2 (fun a => a % 2) v = true then St.ROUTE_TABLE_IN_USE
  else 0

/-- Write n bytes of a BLOB entry, byte k in element k. -/
def State.odBytes (s : State) (idx sub o : Nat) (b : List Byte) : State :=
  b.zipIdx.foldl (fun s x => s.odp idx sub (o + x.2) x.1.toNat) s

/-- Take a routing table version (R252). -/
def State.takeRouteTable (s : State) (v : Nat) (b : List Byte) : State :=
  let m := s.odg 0x2600 0x03
  (s.odBytes 0x2600 (v + 1) 0 b).odp 0x2600 0x03 0 (if bit m v then m else m + 2 ^ v)

/-- The status of an epoch selection (R276), 0 where it is taken. -/
def State.epochSelectStatus (s : State) (v : Nat) : Nat :=
  if bits v 7 1 ≠ 0 then St.OD_RESERVED_NONZERO
  else if s.runningCtx.isSome then St.EPOCH_SELECT_REFUSED
  else if s.time.everLock = true ∧ v / 256 < s.slot + 2 then St.EPOCH_SELECT_REFUSED
  else 0

/-- Take an epoch selection (R276): at its slot, or at once while fabric time is unlocked. -/
def State.takeEpochSelect (s : State) (v : Nat) : State :=
  if s.time.everLock then { s with rt := { s.rt with epochReq := some (v % 2, v / 256) } }
  else s.setEpoch (v % 2) s.slot (List.range 48)

/-- A window reset (Table 12-8): open messages toward the destination close as if returned LOST. -/
def State.takeWindowReset (s : State) (v : Nat) : State :=
  let dest := s.unlinear s.epochNow (v % 2 ^ 15)
  let cls := if bit v 17 then [0, 1, 2, 3] else [bits v 16 15]
  cls.foldl (fun s tc =>
    let k := winKey dest tc
    (s.win k).msgs.foldl (fun s m => s.returnArrives { returnPkt pktNone dest m.left true false false with
      tc := BitVec.ofNat 2 tc, msgId := BitVec.ofNat 16 m.id }) s) s

/-! ### A link's control block (R260-R262, R264, R275, R278, R279) -/

/-- CREDIT of a virtual channel (Table 12-5): free credits grow by what was freed since the last good block. -/
def VcSt.credit (x : VcSt) (c : Nat) : VcSt :=
  let d := (c + 65536 - x.got % 65536) % 65536
  { x with free := x.free + d, got := (x.got + d) % 2 ^ 32 }

/-- The NACK field (R261, R262): what was named is resent from the next packet boundary on; DOWN where the sender no longer holds the
flit, or where a position is named twice. -/
def State.takeNack (s : State) (p : Nat) (nack : Option (Nat × Nat)) : State :=
  let l := s.link p
  match nack with
  | none => s.setLink p { l with lastNack := if l.named.isSome then l.named else l.lastNack, named := none, replay := false }
  | some at_ =>
    let held := l.history.any fun e => decide (s.slot < e.at_ + 4 ∧ e.pos = at_.1 ∧ e.slot % 256 = at_.2)
    if held = false ∧ l.resend.isEmpty = true then s.linkDown p
    else if l.named = some at_ then s
    else if l.lastNack = some at_ then s.linkDown p
    else ((s.setLink p { l with named := some at_, replay := true }).bump 0x2603 0x09 0).bump (portIdx p 1) 0x04 0

/-- The audit fields of a good block (R278): the peer's SENT against the own ACCEPTED, the own GOT against the peer's FREED. -/
def State.takeAudit (s : State) (p : Nat) (audit : Option AuditFields) : State :=
  let l := s.link p
  match l.audit, audit with
  | some a, some b =>
    let v := b.vc
    if b.slot = a.slot % 65536 ∧ a.done.contains v = false then
      let s := s.setLink p { l with audit := some { a with done := v :: a.done } }
      let s := s.bump 0x2603 0x0B 0 (if a.got.isNone then 1 else 2)
      let s := if a.got.isNone then s.bump 0x2603 0x0D 0 else s
      let s := if b.sent ≠ a.accepted.getD v 0 then s.violate p v else s
      match a.got with
      | some g => if g.getD v 0 % 2 ^ 32 ≠ b.freed then s.violate p v else s
      | none => s
    else s
  | _, _ => s

/-- With the block of a slot, the comparisons whose two copies both arrived bad are skipped and counted (R278). -/
def State.auditLate (s : State) (p slot : Nat) : State :=
  match (s.link p).audit with
  | none => s
  | some a =>
    let late := (List.range 8).filter fun v => decide (a.slot + 12 + v ≤ slot) && !a.done.contains v
    let s := if late.isEmpty then s else s.bump 0x2603 0x0D 0 (2 * late.length)
    s.setLink p { s.link p with audit := some { a with done := late ++ a.done } }

/-- The repair fields (R279): the first request read is acknowledged from the next block on. -/
def State.takeRepair (s : State) (p : Nat) (b : LinkFields) : State :=
  let l := s.link p
  let r := s.slot + (b.slot + 65536 - s.slot % 65536) % 65536
  let l := if b.req && l.repairPeer.isNone then { l with repairPeer := some (b.vc, r) } else l
  let l := match l.repairOwn with
    | some (v, own, _) => if b.ack = true ∧ b.vc = v ∧ b.slot = own % 65536 then { l with repairOwn := some (v, own, true) } else l
    | none => l
  s.setLink p l

/-- The announced epoch (R275): different for two slots is an audit violation. -/
def State.takeEpochBit (s : State) (p : Nat) (e : Bool) : State :=
  let l := s.link p
  if e = bit s.epochNow 0 then s.setLink p { l with epochDiff := 0 }
  else
    let s := s.setLink p { l with epochDiff := l.epochDiff + 1 }
    if l.epochDiff = 1 then (s.bump 0x2603 0x0C 0).bump (portIdx p 1) 0x06 0 else s

/-- A bad control block (R260, R262): ignored whole and counted; the 16th in a row takes the link DOWN. -/
def State.badBlock (s : State) (p slot : Nat) : State :=
  let l := s.link p
  let audit := l.audit.map fun a => if slot + 1 = a.slot then { a with badPrev := true } else a
  let s := (s.setLink p { l with badRun := l.badRun + 1, lastBad := some slot, audit := audit }).bump (portIdx p 1) 0x08 0
  if 16 ≤ l.badRun + 1 then s.linkDown p else s.auditLate p slot

/-- The credit counts of a good block of a slot (R260, R278). -/
def Link.credits (l : Link) (slot : Nat) (credit : List Nat) : Link :=
  let l := (List.range 8).foldl (fun (l : Link) v => l.setVc v ((l.vc v).credit (credit.getD v 0))) l
  let got := (List.range 8).map fun v => (l.vc v).got
  { l with read := some (slot, got), audit := l.audit.map fun a => if slot + 1 = a.slot then { a with got := some got } else a }

/-- The link part of a good control block. -/
def State.linkBlock (s : State) (p slot : Nat) (b : LinkFields) : State :=
  let l := { s.link p with badRun := 0, up := true }
  let s := (s.setLink p (l.credits slot b.credit)).takeNack p b.nack
  if (s.link p).up then (((((s.takeAudit p b.audit).auditLate p slot).takeRepair p b).takeEpochBit p b.epoch).retryHeld) else s

/-- The fields that a link's own block of slot n carries (R260, R261, R264, R275, R278, R279). -/
def State.ownFields (s : State) (p n : Nat) : LinkFields :=
  let l := s.link p
  { credit := (List.range 8).map fun v => (l.vc v).freed % 65536
    nack := l.nack.map fun x => (x.1, x.2 % 256)
    audit := match l.audit with
      | none => none
      | some a => if a.slot + 4 ≤ n ∧ n < a.slot + 20 then
          (let v := (n - a.slot - 4) % 8
           some { vc := v, slot := a.slot % 65536, sent := a.sent.getD v 0, got := (a.got.getD []).getD v 0, accepted := a.accepted.getD v 0
                  freed := a.freed.getD v 0 })
        else none
    req := match l.repairOwn with
      | some (v, r, acked) => !acked && (match l.repairPeer with
        | some x => decide (x = (v, r))
        | none => true)
      | none => false
    ack := l.repairPeer.isSome
    vc := match l.repairPeer, l.repairOwn with
      | some x, _ => x.1
      | none, some x => x.1
      | none, none => 0
    slot := (match l.repairPeer, l.repairOwn with
      | some x, _ => x.2
      | none, some x => x.2.1
      | none, none => 0) % 65536
    epoch := bit s.epochNow 0 }

/-- What forming the block of slot n leaves in the link: the CREDIT values it carries; an audit all of whose fields were sent and all of
whose comparisons were made ends. -/
def Link.formed (l : Link) (n : Nat) : Link :=
  if l.up = false then l else
  { l with blocks := (n, (List.range 8).map fun v => (l.vc v).freed) :: l.blocks.take 1
           audit := match l.audit with
             | some a => if a.slot + 20 ≤ n ∧ 8 ≤ a.done.length then none else some a
             | none => none }

/-! ### The congestion map (R280) -/

/-- The ports and channels of a held packet that lack credits for it. -/
def State.blockedAt (s : State) (h : Held) : List (Nat × Nat) :=
  let n := pktFlits h.pkt
  ((s.usablePorts h.pkt).filterMap fun p =>
    let vc := pktVc h.pkt
    if ((s.link p).vc vc).free < n then some (p, vc) else none)

/-- What a slot boundary adds to the congestion map. -/
def State.congSample (s : State) : State :=
  let s0 := s
  let s := (listBelow (fun p => (s0.link p).up) 48).foldl (fun s p =>
    (List.range 8).foldl (fun s v =>
      let used := vcCap v - ((s0.link p).vc v).free
      s.congAdd p v (Nat.min 7 (used * 8 / vcCap v)) 1) s) s
  let blocked := (((s0.rt.held.filter fun h => h.via.isNone).map s0.blockedAt).flatten).eraseDups
  blocked.foldl (fun s x => s.congAdd x.1 x.2 9 1) s

/-- Where a gathered figure stands in a record of the map, and its width (Table 12-7). -/
def congField (f : Nat) : Nat × Nat :=
  if f < 8 then (4 * f, 4) else if f = 8 then (32, 4) else if f = 9 then (36, 4) else if f = 10 then (40, 4) else (44, 8)

/-- Latch the map into OD 0x2620:01 and begin the next interval. -/
def State.latchMap (s : State) : State :=
  let lo := odKey 0x2620 0x01 0
  let s := { s with od := Sparse.dropKeys (fun k => decide (lo ≤ k ∧ k < lo + 65536)) s.od }
  let s := (s.odBytes 0x2620 0x01 0 (leBytes 8 s.rt.congFrom)).odBytes 0x2620 0x01 8 (leBytes 4 s.rt.congLen)
  let s := s.rt.cong.foldl (fun s e =>
    let w := congField (e.1 % 16)
    s.odBytes 0x2620 0x01 (64 + 64 * (e.1 / 16) + w.1) (leBytes w.2 e.2)) s
  { s with rt := { s.rt with cong := [], congFrom := s.slot, congLen := s.odg 0x2620 0x02 } }

end Sys2Proof.Machine
end

