-- ==== Sys2Proof/Machine/OpticsOps.lean ====
section
/-! DEFINITION. What the fabric-optics commands share (chapter 11): lane plans, masks, agreement, light ages, a change of plan, rings, the
control blocks that leave. Lane n is 96 × die + LLL; its channel is n mod 32. -/

namespace Sys2Proof.Machine

/-! ### Lane plans (R232-R234) -/

/-- What feeds channel c of a port in a plan: a lane n, or 384 plus the port whose light passes. -/
def State.source (s : State) (k p c : Nat) : Option Nat :=
  match (List.range 12).find? fun j => decide (s.txPort k (32 * j + c) = some p) with
  | some j => some (32 * j + c)
  | none => ((List.range 48).find? fun q => decide (s.passPort k q c = some p)).map fun q => 384 + q

/-- What takes channel c arriving on a port in a plan: a lane n, or 384 plus the port it passes to. -/
def State.sink (s : State) (k p c : Nat) : Option Nat :=
  match (List.range 12).find? fun j => decide (s.rxPort k (32 * j + c) = some p) with
  | some j => some (32 * j + c)
  | none => (s.passPort k p c).map fun q => 384 + q

/-- A mask of 32 channels. -/
def maskOf (f : Nat → Bool) : Nat := sumBelow (fun c => if f c then 2 ^ c else 0) 32

/-- The channels leaving on a port in a plan. -/
def State.planTx (s : State) (k p : Nat) : Nat := maskOf fun c => (s.source k p c).isSome

/-- The channels with a sink on a port in a plan. -/
def State.planRx (s : State) (k p : Nat) : Nat := maskOf fun c => (s.sink k p c).isSome

/-- Whether a port's ring table holds a channel (R243): sub 0x09 add rings, 0x0A drop rings. -/
def State.ringHas (s : State) (p sub c : Nat) : Bool := (List.range 32).any fun k => decide (s.odg (portIdx p 0) sub k = c)

/-- Whether a plan given as bytes breaks R233. -/
def State.planBad (s : State) (b : List Byte) : Bool :=
  let at_ := fun o => fld b o 1
  let lit := fun o => bit (at_ o) 7
  let port := fun o => at_ o % 64
  let used := (List.range 384).map (64 + ·) ++ (List.range 384).map (448 + ·) ++ (List.range 1536).map (832 + ·)
  let txs := fun p c => ((List.range 12).filter fun j => lit (64 + 32 * j + c) && decide (port (64 + 32 * j + c) = p)).length
  let rxs := fun p c => ((List.range 12).filter fun j => lit (448 + 32 * j + c) && decide (port (448 + 32 * j + c) = p)).length
  let ins := fun p c => ((List.range 48).filter fun q => lit (832 + 32 * q + c) && decide (port (832 + 32 * q + c) = p)).length
  let pass := fun p c => b2n (lit (832 + 32 * p + c))
  used.any (fun o => lit o && decide (48 ≤ port o))
    || (List.range 48).any fun p =>
      let tx := (List.range 32).map fun c => txs p c + ins p c
      let rx := (List.range 32).map fun c => rxs p c + pass p c
      tx.any (fun n => decide (1 < n)) || rx.any (fun n => decide (1 < n))
        || (List.range 32).any (fun c => lit (832 + 32 * p + c) && decide (port (832 + 32 * p + c) = p))
        || ((tx ++ rx).any (fun n => decide (0 < n)) &&
          ((List.range 32).all (fun c => decide (txs p c = 0)) || (List.range 32).all (fun c => decide (rxs p c = 0))))
        || (List.range 32).any fun c => (decide (0 < tx.getD c 0) && !s.ringHas p 0x09 c) || (decide (0 < rx.getD c 0) && !s.ringHas p 0x0A c)

/-- The status of a write of lane plan k (R10, R233), 0 where it is taken. -/
def State.lanePlanStatus (s : State) (k : Nat) (b : List Byte) : Nat :=
  if b.length ≠ 2368 then St.OD_SIZE_MISMATCH
  else if fld b 4 60 ≠ 0 ∨ (b.drop 64).any (fun x => x.getLsbD 6) = true then St.OD_RESERVED_NONZERO
  else if s.planBad b then St.LANE_PLAN_INVALID
  else if s.planNames 1 (fun a => a % 64) k then St.LANE_PLAN_IN_USE
  else 0

/-- What a port knows of its neighbour's plans. -/
def peersNone : PeerPlans := { masks := [], light := [] }

/-- What port p knows of plan agreement. -/
def State.peers (s : State) (p : Nat) : PeerPlans := Sparse.get (fun _ => peersNone) s.opt.peers p

/-- Write what port p knows of plan agreement. -/
def State.setPeers (s : State) (p : Nat) (x : PeerPlans) : State :=
  { s with opt := { s.opt with peers := Sparse.set (fun _ => peersNone) s.opt.peers p x } }

/-- The pass-throughs that the light leaving on a port and channel has made in a plan (R234). -/
def State.passesOut (s : State) (k p c : Nat) : Nat :=
  match s.source k p c with
  | some q => if 384 ≤ q then ((Sparse.find (s.peers (q - 384)).light (32 * k + c)).map fun x => x.2 + 1).getD 1 else 0
  | none => 0

/-- Whether plan k is agreed on port p (R234). -/
def State.agreed (s : State) (k p : Nat) : Bool :=
  let x := s.peers p
  let tx := s.planTx k p
  let rx := s.planRx k p
  bit (s.odg 0x2511 0x01) k &&
    (match Sparse.find x.masks k with
    | some m => decide (m.1 = rx ∧ m.2 = tx)
    | none => false) &&
    (List.range 32).all fun c =>
      (!bit tx c || decide (s.passesOut k p c ≤ 3)) &&
        (!bit rx c || (match Sparse.find x.light (32 * k + c) with
          | some l => decide (l.2 ≤ 3)
          | none => false))

/-! ### Light ages (R237) -/

/-- The age in ps of the light of a channel that arrives on a port in a plan: as announced, and the link's delay. -/
def State.ageIn (s : State) (k p c : Nat) : Option Nat :=
  (Sparse.find (s.peers p).light (32 * k + c)).map fun l => l.1 + s.odg (portIdx p 0) 0x06

/-- The age of the light that leaves on a port and channel in a plan: 0 from a lane; a pass-through forwards its input age. -/
def State.ageOut (s : State) (k p c : Nat) : Option Nat :=
  match s.source k p c with
  | some q => if 384 ≤ q then s.ageIn k (q - 384) c else some 0
  | none => none

/-- The ages of an element's source in the old plan and in the plan in effect, as far as they are known: the output of a port's multiplexer, or
the input of its demultiplexer where it has a sink. -/
def State.elementAges (s : State) (out : Bool) (p c : Nat) : List Nat :=
  [s.opt.oldPlan, s.planNow].filterMap fun k =>
    if out then s.ageOut k p c else if (s.sink k p c).isSome then s.ageIn k p c else none

/-- When an element switches after a change, in ps from its boundary (R237): it is blocked at the lesser age and connected at the
greater. -/
def State.switchAge (s : State) (out : Bool) (p c : Nat) (connect : Bool) : Nat :=
  match s.elementAges out p c with
  | [] => 0
  | a :: t => t.foldl (if connect then Nat.max else Nat.min) a

/-- The key of an element: the input of a port and channel, or its output. -/
def elementKey (out : Bool) (p c : Nat) : Nat := 1536 * b2n out + 32 * p + c

/-! ### Lanes and ports -/

/-- Links whose port has lost its last lit lane in a direction go DOWN (R262). -/
def State.settleLinks (s : State) : State :=
  (listBelow (fun p => (s.link p).up && !s.portTerm p) 48).foldl (fun s p => s.linkDown p) s

/-- A receive lane waits for the preamble that follows a boundary before it takes payload (R238, R239). -/
def State.awaitLane (s : State) (n slot : Nat) : State :=
  { s with opt := { s.opt with await := Sparse.ins n slot s.opt.await, refused := s.opt.refused.filter (· ≠ n) } }

/-- A transmit lane sends its preamble (Table 11-6): origin, lane, channel and plan. -/
def State.sendPreamble (s : State) (n : Nat) : State :=
  { s with out := .preamble n s.slot (s.ownAddr s.epochNow) (n % 32) s.planNow :: s.out }

/-- Lanes that are lit again take payload after a preamble at the next slot boundary (R245). -/
def State.rejoinLanes (s : State) (ls : List (Bool × Nat)) : State :=
  ls.foldl (fun s l =>
    if s.laneState l ≠ 3 then s
    else if l.1 then { s with opt := { s.opt with resume := l.2 :: s.opt.resume.filter (· ≠ l.2) } }
    else s.awaitLane l.2 (s.slot + 1)) s

/-- A lane's own laser, modulator or receiver holds lock again (Table 11-11, R245). -/
def State.relockLane (s : State) (l : Bool × Nat) : State := (s.setLane l 2).rejoinLanes [l]

/-- The plans that the plan in effect and the resident contexts use. -/
def State.usedPlans (s : State) : List Nat :=
  (s.planNow :: ((Sparse.keys s.ctxs).map fun c => ((entriesFrom 0 false (s.ctx c).plan0 ++ entriesFrom 0 false (s.ctx c).plan1).filter fun e =>
    decide (e.2.op = 1)).map fun e => e.2.arg % 64).flatten).eraseDups

/-- PARKED lanes that a used plan lights start to wake, and locked lanes that none lights park (Table 11-11). -/
def State.parkLanes (s : State) : State :=
  let ks := s.usedPlans
  allLanes.foldl (fun s l =>
    let used := ks.any fun k => (s.lanePort k l).isSome
    let st := s.laneOwn l
    if st = 0 ∧ used = true ∧ s.powered = true ∧ s.opt.supplyCut = false then s.setLane l 1
    else if st = 2 ∧ used = false then s.setLane l 0 else s) s

/-- The masks and the state of a port under the plan in effect: dark where a plan entry's plan is not agreed on it (R235); a port that is
SHUT stays so until its relight (R248). -/
def State.settlePort (s : State) (p : Nat) (dark : Bool) : State :=
  let k := s.planNow
  let tx := s.planTx k p
  let rx := s.planRx k p
  let s := (s.odp (portIdx p 0) 0x02 0 tx).odp (portIdx p 0) 0x03 0 rx
  let st := s.portState p
  if st = 2 then s
  else if tx = 0 ∧ rx = 0 then s.odp (portIdx p 0) 0x01 0 0
  else if dark then
    (if st = 3 then s else (s.bump 0x2502 0x06 0).odp (portIdx p 0) 0x01 0 3)
  else s.odp (portIdx p 0) 0x01 0 1

/-- The pass-throughs into ports that are not to carry light (R235, R241, R248): their outputs stay blocked. -/
def State.darkOutputs (s : State) : List Nat :=
  ((List.range 48).map fun p => if 2 ≤ s.portState p then
      (listBelow (fun c => match s.source s.planNow p c with
        | some q => decide (384 ≤ q)
        | none => false) 32).map fun c => elementKey true p c
    else []).flatten

/-- The lit lanes of the ports of a change send and await preambles; what a receiver refused before is taken up again (R238, R239). -/
def State.freshLanes (s : State) (scope : Nat → Bool) : State :=
  (listBelow scope 48).foldl (fun s p =>
    let txs := s.litLanes true p
    let rxs := s.litLanes false p
    let s : State := { s with opt := { s.opt with told := s.opt.told.filter fun n => decide (s.txPort s.planNow n ≠ some p) } }
    rxs.foldl (fun s n => s.awaitLane n s.slot) (txs.foldl State.sendPreamble s)) s

/-- The lanes and ports follow the content of the plan in effect: `scope` says to which ports' lanes a change applies, `bound` names the
context whose entry makes it (R235, R238). -/
def State.lightPlan (s : State) (scope : Nat → Bool) (bound : Option Nat) : State :=
  let s := (List.range 48).foldl (fun s p => s.settlePort p (match bound with
    | some c => s.memberPort c p && !s.agreed s.planNow p
    | none => false)) s
  let s := { s with opt := { s.opt with blocked := s.darkOutputs } }
  ((s.freshLanes scope).parkLanes).settleLinks

/-- Change the lane plan at a slot boundary (R235, R237-R239). Selecting the plan in effect changes nothing. -/
def State.changePlan (s : State) (k : Nat) (scope : Nat → Bool) (bound : Option Nat) : State :=
  let old := s.planNow
  if k = old then s else
  { s.odp 0x2500 0x01 0 k with opt := { s.opt with oldPlan := old, changeAt := some s.slot, scope := listBelow scope 48 } }.lightPlan scope bound

/-- Take a lane plan (R233): it is valid, and its agreement starts afresh (R234). Where it is the plan in effect, the lanes follow it at once
(log entry 38). -/
def State.takeLanePlan (s : State) (k : Nat) (b : List Byte) : State :=
  let m := s.odg 0x2511 0x01
  let s := (s.odBytes 0x2510 (k + 1) 0 b).odp 0x2511 0x01 0 (if bit m k then m else m + 2 ^ k)
  let s := (List.range 48).foldl (fun s p =>
    let x := s.peers p
    s.setPeers p { masks := Sparse.del x.masks k, light := Sparse.dropKeys (fun i => decide (i / 32 = k)) x.light }) s
  if k = s.planNow ∧ s.powered = true then s.lightPlan (fun _ => true) none else s

/-- The status of a plan selection (R236), 0 where it is taken. -/
def State.planSelectStatus (s : State) (v : Nat) : Nat :=
  if bits v 7 6 ≠ 0 then St.OD_RESERVED_NONZERO
  else if s.runningCtx.isSome then St.LANE_SELECT_REFUSED
  else if s.time.everLock = true ∧ v / 256 < s.slot + 2 then St.LANE_SELECT_REFUSED
  else 0

/-- Take a plan selection (R236): at its slot, or at once while fabric time is unlocked. -/
def State.takePlanSelect (s : State) (v : Nat) : State :=
  if s.time.everLock then { s with opt := { s.opt with planReq := some (v % 64, v / 256) } }
  else s.changePlan (v % 64) (fun _ => true) none

/-- The identity that a receive lane finds does not match, or none comes (R239): no payload until the next change. -/
def State.identityFails (s : State) (n : Nat) : State :=
  let s := { s with opt := { s.opt with await := Sparse.del s.opt.await n, refused := n :: s.opt.refused } }
  let s := s.bump 0x2502 0x05 0
  match s.rxPort s.planNow n with
  | some p => s.bump (portIdx p 0) 0x0B 0
  | none => s

/-- A spare laser of a die in use by a lane, or free (Table 11-12). -/
def State.spareOf (s : State) (die v : Nat) : Option Nat :=
  ((List.range 8).find? fun j => decide (s.odg 0x2501 0x03 (8 * die + j) = v)).map fun j => 8 * die + j

/-- The home die of a port (Table 11-1). -/
def homeDie (p : Nat) : Nat :=
  if p < 8 then 0 else if p < 16 then 1 else if p < 20 then 0 else if p < 24 then 1 else if p < 36 then 2
  else 3

/-- The lanes that end on a port and channel in the plan in effect: transmit lanes for an add ring, receive lanes for a drop ring. -/
def State.ringLanes (s : State) (drop : Bool) (p c : Nat) : List (Bool × Nat) :=
  (List.range 12).filterMap fun j =>
    let n := 32 * j + c
    if s.lanePort s.planNow (!drop, n) = some p then some (!drop, n) else none

/-- Retire a lane (R245). -/
def State.retireLane (s : State) (l : Bool × Nat) : State := s.setLane l 5

/-! ### Bring-up (R242, R243) -/

/-- The channels that the rings of a port take, in ascending ring index (R243): each the channel not yet assigned that it reaches with the
least heater power, or none, which retires it. -/
def assignRings (reach : Nat → List Nat) : List Nat :=
  (List.range 32).foldl (fun taken k => taken ++ [((reach k).find? fun c => !taken.contains c).getD 0xFF]) []

/-- The channels that a ring reaches, as the search found it. -/
def ringReach (f : StartFinding) (drop : Bool) (p k : Nat) : List Nat :=
  match f.rings.find? fun r => decide (r.drop = drop ∧ r.port.toNat = p ∧ r.ring.toNat = k) with
  | some r => r.reach.map BitVec.toNat
  | none => [k]

/-- The rings of every port are assigned at the first start-up of a cold start (R243). -/
def State.setRings (s : State) (f : StartFinding) : State :=
  if s.opt.ringsSet then s else
  let s := (List.range 48).foldl (fun s p =>
    [false, true].foldl (fun s drop =>
      (assignRings (ringReach f drop p)).zipIdx.foldl (fun s x => s.odp (portIdx p 0) (if drop then 0x0A else 0x09) x.2 x.1) s) s) s
  { s with opt := { s.opt with ringsSet := true } }

/-- The fabric optics begin to come up (Table 11-10): every lane searches, every loopback switch is closed. -/
def State.opticsBegin (s : State) : State :=
  let s := allLanes.foldl (fun s l => if s.laneOwn l = 5 then s else s.setLane l 1) s
  { s with opt := { s.opt with loopback := List.range 48 } }

/-- The release step of Table 11-10: lanes hold lock, rings hold their channels, the loopback switches are opened, and ports are lit by the
plan in effect. A lane that found no lock has failed its relocks (R245). -/
def State.opticsUp (s : State) (f : StartFinding) : State :=
  let s := (s.setRings f)
  let s := allLanes.foldl (fun s l => if s.laneOwn l = 5 then s else s.setLane l 2) s
  let s := f.unlocked.foldl (fun s l =>
    let n := l.idx.toNat
    if 384 ≤ n ∨ s.laneOwn (l.tx, n) = 5 then s
    else if l.tx = true ∧ (s.spareOf (n / 96) 0xFE).isSome = true then
      (let t := s.setLane (true, n) 4
       { t with opt := { t.opt with attempts := Sparse.set (fun _ => 0) t.opt.attempts n 3 } })
    else (s.retireLane (l.tx, n)).herdEvent 0x2502 n 4 0) s
  let s := { s with opt := { s.opt with loopback := [], resume := [] } }
  ((List.range 48).foldl (fun s p => s.odp (portIdx p 0) 0x01 0 0) s).lightPlan (fun _ => true) none

/-- Optics are dark: no lane that is not retired is locked, no port is lit, every link is DOWN, nothing is known of neighbours. -/
def State.opticsDark (s : State) : State :=
  let s := allLanes.foldl (fun s l => if s.laneOwn l = 5 then s else s.setLane l 0) s
  let s := (List.range 48).foldl (fun s p => (s.linkDown p).odp (portIdx p 0) 0x01 0 0) s
  { s with opt := { s.opt with planReq := none, changeAt := none, scope := [], await := [], refused := [], told := [], resume := [], attempts := []
                               blocked := [], searching := [], ringDown := [], loopback := [], peers := [], probes := [] } }

/-! ### Control blocks that leave (R231, R234, R239) -/

/-- The agreement message of plan k on a port (R234): masks, and for each channel it leaves with, where known, age and pass-throughs made. -/
def State.agreeMsg (s : State) (k p : Nat) : AgreeMsg :=
  { plan := BitVec.ofNat 6 k, tx := BitVec.ofNat 32 (s.planTx k p), rx := BitVec.ofNat 32 (s.planRx k p)
    light := (List.range 32).filterMap fun c => (s.ageOut k p c).map fun a => (BitVec.ofNat 5 c, a, s.passesOut k p c) }

/-- The control block of slot n leaves on a port's control lane with the time, the agreement message of the plan n mod 64 where it is valid
(log entry 38), the channels on which the port takes no payload, and the link's fields; every other lit lane repeats its identity. -/
def State.sendBlock (s : State) (n p : Nat) : State :=
  match s.controlLane p with
  | none => s
  | some lane =>
    let k := n % 64
    let ms := if bit (s.odg 0x2511 0x01) k then [s.agreeMsg k p] else []
    let no := ((s.litLanes false p).filter fun m => s.opt.refused.contains m).map fun m => m % 32
    let blk := Out.control p lane n (512 * n) ms no (s.ownFields p n).bits
    let ids := ((s.litLanes true p).filter (· ≠ lane)).map fun m => Out.identity m n (s.ownAddr s.epochNow) (m % 32) s.planNow
    let t := s.setLink p ((s.link p).formed n)
    { t with out := ids ++ blk :: t.out }

/-- What the links and lanes do at slot boundary n: preambles of lanes that were lit again, control blocks, then the packets. -/
def State.linkSlot (s : State) (n : Nat) : State :=
  let due := s.opt.resume
  let s := { s with opt := { s.opt with resume := [] } }
  let s := (due.filter fun m => decide (s.laneState (true, m) = 3)).foldl State.sendPreamble s
  (((List.range 48).foldl (fun s p => s.sendBlock n p) s).noteUsable).retryHeld

end Sys2Proof.Machine
end

