-- ==== Sys2Proof/Machine/PlanRun.lean ====
section
/-! DEFINITION. How a step plan runs (R208-R210): its entries in order, which are due, how a flow or timed entry of a kind is
taken, and lag. Cursors count entries in plan order. -/

namespace Sys2Proof.Machine

/-- Move the flow cursor over timed entries and skipped flow entries (SKIPIF). A skipped stash record keeps its number. -/
def flowSkip : List (Nat × PlanEntry) → Nat → Nat → Nat → Nat × Nat × Nat
  | [], i, k, j => (i, k, j)
  | e :: t, i, k, j =>
    if timedOp e.2.op then flowSkip t (i + 1) (k - 1) j
    else if 0 < k then flowSkip t (i + 1) (k - 1) (if e.2.op = 0x10 then j + 1 else j)
    else (i, k, j)

/-- The context with its flow cursor at the next flow entry. -/
def Ctx.settleFlow (x : Ctx) : Ctx :=
  let r := flowSkip (x.entries.drop x.flowPos) x.flowPos x.skipLeft x.stashJ
  { x with flowPos := r.1, skipLeft := r.2.1, stashJ := r.2.2 }

/-- Whether a WAIT or SKIPIF that has started holds back later flow entries (R210). -/
def Ctx.heldBack (x : Ctx) : Bool :=
  x.runs.any fun r => match x.plan[r.pos]? with
    | some e => decide (e.op = 0x08 ∨ e.op = 0x11)
    | none => false

/-- The next flow entry of a context, where flow entries may start: a step runs, is not refused, abandoned, restoring or
decided to repeat, fabric time is not LOST, and nothing holds it back (R207, R210, R216, R304). -/
def State.flowNext (s : State) (c : Nat) : Option (Nat × PlanEntry) :=
  let x := (s.ctx c).settleFlow
  if x.stepOn && !x.noStart && !x.refused && !x.exhausted && !x.restoring && !x.heldBack
      && decide (s.time.state ≠ .lost) && decide (x.verdict = none ∨ x.verdict = some .commit) then
    match x.entries[x.flowPos]? with
    | some e => if x.isDue e.2 then some e else none
    | none => none
  else none

/-- Start a flow entry (R210): traced, listed as started, the cursor behind it, its lag noted (Table 10-9). -/
def State.startFlow (s : State) (c pos : Nat) (e : PlanEntry) : State :=
  let x := (s.ctx c).settleFlow
  let lag := x.slots - (x.base + e.slot)
  (s.setCtx c { x with
    runs := x.runs ++ [{ pos := pos, due := x.base + e.slot }], flowPos := x.flowPos + 1
    maxLag := Nat.max x.maxLag lag }).entryStarts c pos

/-- Take the running context's next flow entry when it is of the operation given and may start. An entry that ran already as
wait work (R194) only completes. -/
def State.flowRun (s : State) (op : Nat) (act : State → Nat → Nat → PlanEntry → State) : State :=
  match s.runningCtx with
  | none => s
  | some c =>
    match s.flowNext c with
    | none => s
    | some (pos, e) =>
      if e.op ≠ op then s
      else if (s.ctx c).early.contains pos then
        (let s := s.startFlow c pos e
         if s.tasks.gathers.any (fun t => decide (t.ctx = c ∧ t.pos = pos)) then s else s.entryDone c pos)
      else act (s.startFlow c pos e) c pos e

/-- Whether the running context's next flow entry may start, is of the operation given and did not run as wait work. -/
def State.flowDue (s : State) (op : Nat) : Bool :=
  match s.runningCtx with
  | none => false
  | some c => match s.flowNext c with
    | none => false
    | some (pos, e) => decide (e.op = op) && !(s.ctx c).early.contains pos

/-- Whether a routine in progress of a context occupies a region (R286): no START and no other routine of it begins there. -/
def State.occupied (s : State) (c r : Nat) : Bool :=
  s.tasks.colls.any fun t => decide (t.ctx = c) && bit (fld t.bytes 32 8) r

/-- Whether a routine in progress occupies a region of a REGIONS mask. -/
def State.maskOccupied (s : State) (c m : Nat) : Bool := (List.range 64).any fun r => bit m r && s.occupied c r

/-- A U64 of module memory. -/
def State.memByte64 (s : State) (a : Nat) : Nat := leNat (s.memBytes a 8)

/-- Whether the running context's next flow entry, of the operation given, must wait for regions that its record's REGIONS, at the
offset given, names (R286, R298). -/
def State.flowHeld (s : State) (op offset : Nat) : Bool :=
  match s.runningCtx with
  | none => false
  | some c => match s.flowNext c with
    | none => false
    | some (pos, e) =>
      decide (e.op = op) && !(s.ctx c).early.contains pos && s.maskOccupied c (s.memByte64 (e.arg % 2 ^ 39 + offset))

/-- Take a flow entry whose operation reads or writes module memory, within what its surroundings hold for it (R130, R131). -/
def State.flowRunIn (s : State) (env : MemEnv) (op : Nat) (act : State → Nat → Nat → PlanEntry → State) : State :=
  if s.flowDue op then s.within env fun s => s.flowRun op act else s.flowRun op act

/-- Take the running context's next timed entry when it is of the operation given and due (R210). -/
def State.timedRun (s : State) (op : Nat) (act : State → Nat → Nat → PlanEntry → State) : State :=
  match s.runningCtx with
  | none => s
  | some c =>
    let x := s.ctx c
    match x.timedNext with
    | some (i, pos, e) =>
      if e.op = op ∧ x.stepOn = true ∧ x.isDue e = true then
        act ((s.setCtx c { x with timedPos := i + 1 }).entryStarts c pos) c pos e
      else s
    | none => s

/-- Whether the running context's next timed entry is of the operation given and due. -/
def State.timedDue (s : State) (op : Nat) : Bool :=
  match s.runningCtx with
  | none => false
  | some c => match (s.ctx c).timedNext with
    | some (_, _, e) => decide (e.op = op ∧ (s.ctx c).stepOn = true ∧ (s.ctx c).isDue e = true)
    | none => false

/-- Take a timed entry whose operation reads or writes module memory, within what its surroundings hold for it (R130, R131). -/
def State.timedRunIn (s : State) (env : MemEnv) (op : Nat) (act : State → Nat → Nat → PlanEntry → State) : State :=
  if s.timedDue op then s.within env fun s => s.timedRun op act else s

/-- Note an entry that runs early as wait work (R194). -/
def State.markEarly (s : State) (c pos : Nat) : State :=
  s.setCtx c { s.ctx c with early := pos :: (s.ctx c).early }

end Sys2Proof.Machine
end

