-- ==== Sys2Proof/Machine/Optics.lean ====
section
/-! DEFINITION. The fabric-optics commands (chapter 11). -/

namespace Sys2Proof.Machine

/-- LANE_PLAN (Table 10-3, R235, R238): the plan takes effect at its boundary; not while fabric time is LOST (R207). -/
def execLanePlan (s : State) : Host.Outcome State Fault Refusal :=
  .next (s.timedRun 1 fun s c pos e =>
    if s.time.state = .lost then s else (s.changePlan (e.arg % 64) (s.memberPort c) (some c)).entryDone c pos)

/-- LANE_PLAN_WRITE (R232, R233): a refused write leaves the plan unchanged. -/
def execLanePlanWrite (plan : BitVec 6) (bytes : List Byte) (s : State) : Host.Outcome State Fault Refusal :=
  let st := s.lanePlanStatus plan.toNat bytes
  .next ((if st = 0 then s.takeLanePlan plan.toNat bytes else s).answered st)

/-- PLAN_SELECT_REQUEST (R236). -/
def execPlanSelectRequest (v : BitVec 64) (s : State) : Host.Outcome State Fault Refusal :=
  let st := s.planSelectStatus v.toNat
  .next ((if st = 0 then s.takePlanSelect v.toNat else s).answered st)

/-- PATH_SWITCH (R237, R241): the output or the input element of a port and channel, where its path differs between the two plans, is blocked
and then connected, each once its light age has passed since the boundary; an output of a port that is not to carry light stays blocked. -/
def execPathSwitch (out : Bool) (port : BitVec 6) (channel : BitVec 5) (connect : Bool) (s : State) : Host.Outcome State Fault Refusal :=
  let p := port.toNat
  let c := channel.toNat
  if 48 ≤ p then .fault .noSuchUnit
  else
    let old := s.opt.oldPlan
    let k := s.planNow
    let same := if out then decide (s.source old p c = s.source k p c) else decide (s.sink old p c = s.sink k p c)
    let e := elementKey out p c
    let rest := s.opt.blocked.filter (· ≠ e)
    match s.opt.changeAt with
    | none => .next s
    | some t =>
      if same = true ∨ 1000 * s.time.fabric < 512000 * t + s.switchAge out p c connect then .next s
      else .next { s with opt := { s.opt with blocked := if connect && !s.darkOutputs.contains e then rest else e :: rest } }

/-- PREAMBLE_CHECK (R239): channel and plan number match, and the lane takes payload; or it does not until the next change. The
identity that the control block repeats is checked in the same way. -/
def execPreambleCheck (lane : BitVec 9) (channel : BitVec 5) (plan : BitVec 6) (s : State) : Host.Outcome State Fault Refusal :=
  let n := lane.toNat
  if 384 ≤ n then .fault .noSuchUnit
  else if s.laneState (false, n) ≠ 3 ∨ s.opt.refused.contains n = true then .next s
  else if channel.toNat = n % 32 ∧ plan.toNat = s.planNow then
    .next { s with opt := { s.opt with await := Sparse.del s.opt.await n } }
  else .next (s.identityFails n)

/-- When the preamble of a lane is overdue, in ps of fabric time (R239, Table 11-6): 8 ns after it is expected, which is the light's age after
its frames begin 4 ns from the boundary. -/
def State.preambleLate (s : State) (n slot : Nat) : Nat :=
  512000 * slot + 12000 + (match s.rxPort s.planNow n with
    | some p => (s.ageIn s.planNow p (n % 32)).getD 0
    | none => 0)

/-- PREAMBLE_TIMEOUT (R239). -/
def execPreambleTimeout (lane : BitVec 9) (s : State) : Host.Outcome State Fault Refusal :=
  let n := lane.toNat
  if 384 ≤ n then .fault .noSuchUnit
  else match Sparse.find s.opt.await n with
    | some t => if s.laneState (false, n) = 3 ∧ s.preambleLate n t ≤ 1000 * s.time.fabric then .next (s.identityFails n) else .next s
    | none => .next s

/-- A ring: whether it is a drop ring, its port and its index; none for a lane. -/
def ringOf : OpticRef → Option (Bool × Nat × Nat)
  | .lane _ => none
  | .addRing p k => some (false, p.toNat, k.toNat)
  | .dropRing p k => some (true, p.toNat, k.toNat)

/-- The channel that a ring holds, 0xFF where it is retired (Table 11-13). -/
def State.ringChannel (s : State) (r : Bool × Nat × Nat) : Nat := s.odg (portIdx r.2.1 0) (if r.1 then 0x0A else 0x09) r.2.2

/-- Whether an element exists in the module. -/
def opticHere : OpticRef → Bool
  | .lane l => decide (l.idx.toNat < 384)
  | .addRing p _ => decide (p.toNat < 48)
  | .dropRing p _ => decide (p.toNat < 48)

/-- WRONG_LOCK (R244): the element is unlocked and searches again; what depends on it is dark meanwhile. A ring's number in the
herd book is not stated and takes a free value (log entry 5). -/
def execWrongLock (e : OpticRef) (found : BitVec 5) (s : State) : Host.Outcome State Fault Refusal :=
  if opticHere e = false then .fault .noSuchUnit else
  match e, ringOf e with
  | .lane l, _ =>
    let n := l.idx.toNat
    if found.toNat = n % 32 ∨ s.laneOwn (l.tx, n) ≠ 2 then .next s
    else .next (((s.setLane (l.tx, n) 1).bump 0x2502 0x01 0).herdEvent 0x2501 n 0 found.toNat).settleLinks
  | _, some r =>
    let c := s.ringChannel r
    let key := ringKey r.1 r.2.1 r.2.2
    if c = 0xFF ∨ found.toNat = c ∨ s.powered = false ∨ s.opt.searching.contains key = true then .next s
    else
      let s := { s with opt := { s.opt with searching := key :: s.opt.searching } }
      .next (((s.bump 0x2502 0x01 0).herdEvent 0x2501 ((Config.freeWord s.free).toNat % 512) 0 found.toNat).drawn).settleLinks
  | _, none => .next s

/-- LANE_SEARCH_END (R244, Table 11-11): with a new lock, a SEARCHING lane is IDLE or LIT. -/
def execLaneSearchEnd (e : OpticRef) (locked : Bool) (s : State) : Host.Outcome State Fault Refusal :=
  if opticHere e = false then .fault .noSuchUnit
  else if locked = false then .next s
  else match e, ringOf e with
  | .lane l, _ =>
    if s.laneOwn (l.tx, l.idx.toNat) = 1 ∧ s.powered = true then .next (s.relockLane (l.tx, l.idx.toNat)) else .next s
  | _, some r =>
    let key := ringKey r.1 r.2.1 r.2.2
    if s.opt.searching.contains key then
      let s := { s with opt := { s.opt with searching := s.opt.searching.filter (· ≠ key) } }
      .next (s.rejoinLanes (s.ringLanes r.1 r.2.1 (s.ringChannel r)))
    else .next s
  | _, none => .next s

/-- LANE_LOCK_LOSS (R245): the lanes that depend on the element go DOWN. -/
def execLaneLockLoss (e : OpticRef) (s : State) : Host.Outcome State Fault Refusal :=
  if opticHere e = false then .fault .noSuchUnit else
  match e, ringOf e with
  | .lane l, _ =>
    let n := l.idx.toNat
    if s.laneOwn (l.tx, n) = 2 then
      let k := if l.tx then n else 384 + n
      let s := (s.setLane (l.tx, n) 4).bump 0x2502 0x02 0
      .next ({ s with opt := { s.opt with attempts := Sparse.del s.opt.attempts k } }).settleLinks
    else .next s
  | _, some r =>
    let c := s.ringChannel r
    let key := ringKey r.1 r.2.1 r.2.2
    if c = 0xFF ∨ s.powered = false ∨ s.opt.ringDown.contains key = true ∨ s.opt.searching.contains key = true then .next s
    else
      let s := { s with opt := { s.opt with ringDown := key :: s.opt.ringDown, attempts := Sparse.del s.opt.attempts (768 + key) } }
      .next (s.bump 0x2502 0x02 0).settleLinks
  | _, none => .next s

/-- The relock attempts made of an element. -/
def State.tries (s : State) (k : Nat) : Nat := Sparse.get (fun _ => 0) s.opt.attempts k

/-- Note a relock attempt. -/
def State.setTries (s : State) (k v : Nat) : State :=
  { s with opt := { s.opt with attempts := Sparse.set (fun _ => 0) s.opt.attempts k v } }

/-- A relock attempt of a lane has ended (R245, R353): relocked, another try, or out of tries. A transmit laser then waits for a
spare of its die; without one, and for a receive lane, the lane is retired. -/
def State.laneRelock (s : State) (tx : Bool) (n : Nat) (ok : Bool) : State :=
  let k := if tx then n else 384 + n
  let tries := s.tries k
  if s.laneOwn (tx, n) ≠ 4 ∨ 3 ≤ tries then s
  else if s.relockReady (n / 96) = false then s.bump 0x2006 0x08 0
  else if ok then ((s.setTries k 0).relockLane (tx, n)).herdEvent 0x2502 n ((tries + 1 : Nat) : Int) 0
  else if tries + 1 < 3 then s.setTries k (tries + 1)
  else if tx = true ∧ (s.spareOf (n / 96) 0xFE).isSome = true then s.setTries k 3
  else ((s.setTries k 0).retireLane (tx, n)).herdEvent 0x2502 n 4 0

/-- A relock attempt of a ring has ended (R245, R353): the third failure retires the ring, and its port lacks the channel. -/
def State.ringRelock (s : State) (r : Bool × Nat × Nat) (ok : Bool) : State :=
  let key := ringKey r.1 r.2.1 r.2.2
  let k := 768 + key
  let c := s.ringChannel r
  if s.opt.ringDown.contains key = false then s
  else if s.relockReady (homeDie r.2.1) = false then s.bump 0x2006 0x08 0
  else
    let up := { s.setTries k 0 with opt := { (s.setTries k 0).opt with ringDown := s.opt.ringDown.filter (· ≠ key) } }
    let tries := s.tries k
    if ok then up.rejoinLanes (s.ringLanes r.1 r.2.1 c)
    else if tries + 1 < 3 then s.setTries k (tries + 1)
    else up.odp (portIdx r.2.1 0) (if r.1 then 0x0A else 0x09) r.2.2 0xFF

/-- LANE_RELOCK_ATTEMPT_END (R245, R353). -/
def execLaneRelockAttemptEnd (e : OpticRef) (ok : Bool) (s : State) : Host.Outcome State Fault Refusal :=
  if opticHere e = false then .fault .noSuchUnit else
  match e, ringOf e with
  | .lane l, _ => .next (s.laneRelock l.tx l.idx.toNat ok)
  | _, some r => .next (s.ringRelock r ok)
  | _, none => .next s

/-- SPARE_SUBSTITUTION (R228, R245): a transmit laser that failed three relocks, or whose launch power fell, is replaced by a free
spare of its die, which carries payload after a preamble at the next slot boundary; the spare it may have been served by is retired. -/
def execSpareSubstitution (l : LaneRef) (s : State) : Host.Outcome State Fault Refusal :=
  let n := l.idx.toNat
  if 384 ≤ n then .fault .noSuchUnit else
  let die := n / 96
  let st := s.laneOwn (true, n)
  if l.tx = false ∨ ¬ ((st = 4 ∧ s.tries n = 3) ∨ st = 2) then .next s else
  let tries := s.tries n
  let s := match s.spareOf die (n % 96) with
    | some j => s.odp 0x2501 0x03 j 0xFF
    | none => s
  match s.spareOf die 0xFE with
  | some j =>
    let s := (((s.odp 0x2501 0x03 j (n % 96)).setTries n 0).relockLane (true, n)).bump 0x2502 0x03 0
    let s := s.herdEvent 0x2502 n (tries : Int) 1
    .next (if (s.spareOf die 0xFE).isNone then s.request 1 else s)
  | none => .next (((s.setTries n 0).retireLane (true, n)).herdEvent 0x2502 n 4 0).settleLinks

/-- What a port knows of probing before any probe. -/
def probeNone : Probe := { got := 0, seen := 0, proposed := 0, latest := 0 }

/-- The probing of a port. -/
def State.probe (s : State) (p : Nat) : Probe := Sparse.get (fun _ => probeNone) s.opt.probes p

/-- Write the probing of a port. -/
def State.setProbe (s : State) (p : Nat) (x : Probe) : State :=
  { s with opt := { s.opt with probes := Sparse.set (fun _ => probeNone) s.opt.probes p x } }

/-- PORT_OPEN (R241, R246): the port is SHUT and dark, pass-throughs into it included, and its link is DOWN; a neighbour that restarts
shows itself so, and what it announced is forgotten (R234, log entry 38). -/
def execPortOpen (port : BitVec 6) (power : BitVec 16) (s : State) : Host.Outcome State Fault Refusal :=
  let p := port.toNat
  if 48 ≤ p then .fault .noSuchUnit
  else if s.portState p ≠ 1 then .next s
  else
    let s := ((s.odp (portIdx p 0) 0x01 0 2).bump 0x2502 0x04 0).bump (portIdx p 0) 0x07 0
    let s := ((s.herdEvent 0x2503 p 0 (uNat 64 (sInt 16 power.toNat))).setProbe p probeNone).setPeers p peersNone
    .next ({ s with opt := { s.opt with blocked := (s.darkOutputs ++ s.opt.blocked).eraseDups } }.linkDown p)

/-- The lowest-numbered transmit lane that the plan in effect gives a port, on which it probes (R248). -/
def State.probeLane (s : State) (p : Nat) : Option Nat :=
  (List.range 384).find? fun n => decide (s.txPort s.planNow n = some p ∧ s.laneOwn (true, n) = 2)

/-- Send a probe that proposes the slot 4,096 ahead and says how many probes have come (R248). -/
def State.sendProbe (s : State) (p : Nat) : State :=
  match s.probeLane p with
  | none => s
  | some n =>
    let x := s.probe p
    let at_ := s.slot + 4096
    let s := (s.setProbe p { x with proposed := at_, latest := Nat.max at_ x.latest }).bump (portIdx p 0) 0x08 0
    { s with out := .probe p n at_ x.got :: s.out }

/-- PROBE_SEND (R248): a SHUT port probes. -/
def execProbeSend (port : BitVec 6) (s : State) : Host.Outcome State Fault Refusal :=
  if 48 ≤ port.toNat then .fault .noSuchUnit
  else if s.portState port.toNat = 2 then .next (s.sendProbe port.toNat) else .next s

/-- PROBE_RECEIVE (R248): the port answers at once with its own probe; the later of the two proposed slots holds. -/
def execProbeReceive (port : BitVec 6) (slot : BitVec 64) (seen : BitVec 8) (s : State) : Host.Outcome State Fault Refusal :=
  let p := port.toNat
  if 48 ≤ p then .fault .noSuchUnit
  else if s.portState p = 0 then .next s
  else
    let x := s.probe p
    let s := (s.setProbe p { x with got := x.got + 1, seen := seen.toNat }).sendProbe p
    let x := s.probe p
    .next (s.setProbe p { x with latest := Nat.max x.proposed slot.toNat })

/-- PORT_RELIGHT (R248): at the agreed slot, after two probes each way, the port is lit again with a preamble. -/
def execPortRelight (port : BitVec 6) (s : State) : Host.Outcome State Fault Refusal :=
  let p := port.toNat
  if 48 ≤ p then .fault .noSuchUnit else
  let x := s.probe p
  if s.portState p = 2 ∧ 2 ≤ x.got ∧ 2 ≤ x.seen ∧ x.latest ≤ s.slot then
    let s := ((s.odp (portIdx p 0) 0x01 0 0).setProbe p probeNone).settlePort p false
    let rest := s.opt.blocked.filter fun e => decide (¬ (48 * 32 + 32 * p ≤ e ∧ e < 48 * 32 + 32 * p + 32))
    .next ({ s with opt := { s.opt with blocked := rest } }.freshLanes fun q => decide (q = p))
  else .next s

end Sys2Proof.Machine
end

