-- ==== Sys2Proof/Machine/Capacity.lean ====
section
/-! DEFINITION. Capacity, floors and the retirement of cores and synchronisation banks (R86-R91, R386-R389). -/

namespace Sys2Proof.Machine

/-- Enabled cores of the module (OD 0x3001:01). -/
def State.coresNow (s : State) : Nat := sumBelow s.enabled 64

/-- Churns not RETIRED (OD 0x3001:02). -/
def State.churnsNow (s : State) : Nat := countBelow (fun k => decide ((s.churn k).st ≠ .retired)) 64

/-- Churns with every cell usable (OD 0x3001:03). -/
def State.fullChurns (s : State) : Nat :=
  countBelow (fun k => decide ((s.churn k).st ≠ .retired ∧ (s.churn k).badRows = [] ∧ (s.churn k).badCols = [])) 64

/-- Lanes of a direction not RETIRED (OD 0x3001:04, 05). -/
def State.lanesNow (s : State) (tx : Bool) : Nat := countBelow (fun n => decide (s.laneOwn (tx, n) ≠ 5)) 384

/-- Usable bytes: stacks in service less retired frames (OD 0x2402:04). -/
def State.usableBytes (s : State) : Nat :=
  countBelow (fun k => decide (s.odg 0x2400 0x03 k = 0)) 8 * 2 ^ 36 -
    (s.hbm.frames.filter fun f => decide (s.odg 0x2400 0x03 (f % 8) = 0)).length * 2 ^ 21

/-- Usable synchronisation objects (OD 0x3001:06). -/
def State.objsNow (s : State) : Nat := 256 * (256 - s.sync.retired.length)

/-- Whether a capacity figure lies below the floor of a resident context (R389). -/
def State.belowFloor (s : State) : Bool :=
  (Sparse.keys s.ctxs).any fun c => s.resident c &&
    (decide (s.coresNow < s.odg 0x3002 0x01 c) || decide (s.fullChurns < s.odg 0x3002 0x02 c)
      || decide (s.lanesNow true < s.odg 0x3002 0x03 c) || decide (s.lanesNow false < s.odg 0x3002 0x03 c)
      || decide (s.usableBytes / 2 ^ 30 < s.odg 0x3002 0x04 c))

/-- Whether the module counts as available (R384). -/
def State.available (s : State) : Bool :=
  (decide (s.ctl.mstate = .ready ∨ s.ctl.mstate = .run ∨ s.ctl.mstate = .service)
    || (s.ctl.commanded && decide (s.ctl.mstate ≠ .off))) && !s.belowFloor

/-- Bit 0 of the service request follows the floors (R389, Table 19-8). -/
def State.evalFloors (s : State) : State :=
  s.odp 0x3001 0x08 0 (s.odg 0x3001 0x08 / 2 * 2 + b2n s.belowFloor)

/-- A spare core of a region: its lowest position that is neither enabled nor retired; which spare serves first is the model's choice (log
entry 33). -/
def State.spareCore (s : State) (region : Nat) : Option Nat :=
  if s.odg 0x2300 0x02 region = 0 then none
  else (List.range 64).find? fun p => !bit (s.odg 0x2300 0x03 region) p && !s.ctl.deadCores.contains (coreAt region p)

/-- Retire a physical core (R90, R91, R386): a spare takes its logical index, or E falls by one and the logical indices above
it move down. Counted and recorded. -/
def State.retireCore (s : State) (core : Nat) : State :=
  let r := coreRegion core
  let p := corePos core
  if s.ctl.deadCores.contains core then s else
  let s : State := { s.bump 0x2300 0x05 r with ctl := { s.ctl with deadCores := core :: s.ctl.deadCores } }
  if bit (s.odg 0x2300 0x03 r) p then
    let i := s.logicalIndex core
    match s.spareCore r with
    | some q =>
      let left := s.odg 0x2300 0x02 r - 1
      let s := (s.odp 0x2300 0x02 r left).odp 0x2300 0x03 r (s.odg 0x2300 0x03 r - 2 ^ p + 2 ^ q)
      let s := (s.odp 0x2300 0x04 (64 * r + i) q).herdEvent 0x2302 (coreUnit core) ((s.enabled r : Nat) : Int) 1
      if left = 0 then s.request 1 else s
    | none =>
      let e := s.enabled r
      let s := (s.odp 0x2300 0x01 r (e - 1)).odp 0x2300 0x03 r (s.odg 0x2300 0x03 r - 2 ^ p)
      let s := (List.range (e - 1 - i)).foldl (fun s j => s.odp 0x2300 0x04 (64 * r + i + j) (s.odg 0x2300 0x04 (64 * r + i + j + 1))) s
      (s.odp 0x2300 0x04 (64 * r + e - 1) 0xFF).herdEvent 0x2302 (coreUnit core) ((e - 1 : Nat) : Int) 0
  else
    let left := s.odg 0x2300 0x02 r - 1
    let s := (s.odp 0x2300 0x02 r left).herdEvent 0x2302 (coreUnit core) ((s.enabled r : Nat) : Int) 0
    if left = 0 then s.request 1 else s

/-- Retire the cores that storage events have condemned, before the next step begins (R90, R386). -/
def State.retireCores (s : State) : State :=
  s.ctl.coreRetire.foldl State.retireCore { s with ctl := { s.ctl with coreRetire := [] } }

/-- Remap the banks with lost objects at a slot boundary (R387): each to a spare, the lost objects becoming counters of value 0, or the
bank is retired. -/
def State.remapSync (s : State) : State :=
  (s.sync.lost.map (· / 256)).eraseDups.foldl (fun s b =>
    let lost := fun (k : Nat) => decide (k / 256 = b) && s.sync.lost.contains k
    let zero := { s.sync with value := Sparse.dropKeys lost s.sync.value, typ := Sparse.dropKeys lost s.sync.typ
                              lost := s.sync.lost.filter fun k => decide (k / 256 ≠ b) }
    if s.sync.retired.contains b then { s with sync := zero }
    else if s.sync.spared.length < 4 then
      let t : State := { s with sync := { zero with spared := b :: s.sync.spared } }
      let t := t.herdEvent 0x3002 b 0 0
      if t.sync.spared.length = 4 then t.request 1 else t
    else
      let gone := fun (k : Nat) => decide (k / 256 = b)
      let t : State := { s with sync := { zero with
          value := Sparse.dropKeys gone zero.value, typ := Sparse.dropKeys gone zero.typ
          retired := b :: s.sync.retired } }
      t.herdEvent 0x3002 b 0 1) s

end Sys2Proof.Machine
end

