-- ==== Sys2Proof/Machine/Dma.lean ====
section
/-! DEFINITION. The DMA commands (chapter 07) and the atomic and reduction operations of the slices (R127-R129). An operation
row runs the next descriptor of its queue when that is the row's operation and may start (R150). -/

namespace Sys2Proof.Machine

/-- Whether a queue's TAIL_SYNC object announces descriptor h (R139). -/
def State.announced (s : State) (qr : List Byte) (h : Nat) : Bool := decide (h < (s.objVal (fld qr 10 2)).toNat)

/-- The bytes of a ring entry or record slot in space 0 or 1, with the status of an unreadable sector (R139). -/
def State.readSpace (s : State) (sp a n : Nat) : List Byte × Nat :=
  if sp = 0 then (s.memBytes a n, match s.readFail a n with
    | some (_, st) => st
    | none => 0)
  else match s.locOf 1 a 0 with
    | .core k o => (s.storeBytes k o n, 0)
    | _ => (List.replicate n 0, 0)

/-- A ring entry is read (R131, R139): the state after the read, the bytes, the status of an unreadable one. -/
def State.readEntry (s : State) (die c sp a : Nat) (env : XferEnv) : State × List Byte × Nat :=
  let s := (if sp = 0 then s.readRange false env.ecc a 64 else s).xferReplays die env.replays
  let r := s.readSpace sp a 64
  let st := if r.2 ≠ 0 then r.2 else if env.failAt.isSome then St.MEM_REPLAY_FAILED else 0
  let s := if r.2 = 0 ∧ st ≠ 0 then s.replaysEnd die (if sp = 0 then some a else none) else s
  (if st ≠ 0 then (s.metPoison st a).storageEvent (some c) st a else s, r.1, st)

/-- DESCRIPTOR_FETCH (R139): descriptor h is fetched once TAIL_SYNC exceeds h; an entry that cannot be read executes nothing and is a
storage event. It is judged when it would start (R145, R147). -/
def execDescriptorFetch (q : QRef) (env : XferEnv) (s : State) : Host.Outcome State Fault Refusal :=
  let key := qKey q
  let c := q.ctx.toNat
  let qr := (s.ctx c).dmaRec q.engine.toNat q.q.toNat
  let k := s.dq key
  if s.runningCtx = some c ∧ fld qr 9 1 ≠ 0 ∧ s.announced qr k.next = true then
    let sp := fld qr 8 1 % 8
    let a := fld qr 0 8 + 64 * (k.next % 2 ^ fld qr 9 1)
    .next (s.coherent (if sp = 0 then [(a, 64)] else []) fun s =>
      let r := s.readEntry q.engine.toNat c sp a env
      let d : Desc := { h := k.next, bytes := r.2.1, status := r.2.2, started := false, handed := false
                        flags := if r.2.2 = St.MEM_REPLAY_FAILED then 8 else 0, record := none }
      (r.1.setDq key { k with next := k.next + 1, items := k.items ++ [d] }).dmaSettle key 17)
  else .next (s.dmaSettle key 17)

/-- A COPY descriptor (R143, R144, R148). -/
def dmaCopy (env : XferEnv) (s : State) (key i : Nat) (d : Desc) : State :=
  let b := d.bytes
  let ms := s.copyMoves b
  let n := dRows b * dLen b
  let s := s.readMoves (dAlloc b) env.ecc (dLen b) ms
  let f := s.firstFail ms env n
  (s.doMoves (dAlloc b) true ms (s.srcByte env.hostData) (f.map Prod.fst)).xferDone key i d env f St.DMA_DONE 0 0 n
    (failMa ms ((f.map Prod.fst).getD 0))

/-- COPY (R143). -/
def execCopy (q : QRef) (env : XferEnv) (s : State) : Host.Outcome State Fault Refusal :=
  .next (s.dmaRun q (fun o => decide (o.head? = some 1)) (dmaCopy env))

/-- The moves of a FILL: no source, each destination byte at its transfer offset (R141). -/
def State.fillMoves (s : State) (d : List Byte) : List Move :=
  movesOf (dRows d * dLen d) (fun _ => .nowhere) (s.rowLoc (dstSide d))

/-- The byte of a FILL (R141): byte o of a row is byte (o mod e) of the element in OPERAND_A. -/
def fillByte (d : List Byte) (m : Move) : Byte := (leBytes 8 (dOpA d)).getD (m.off % dLen d % dE d) 0

/-- A FILL descriptor (R141). -/
def dmaFill (env : XferEnv) (s : State) (key i : Nat) (d : Desc) : State :=
  let b := d.bytes
  let ms := s.fillMoves b
  let n := dRows b * dLen b
  let f := s.firstFail ms env n
  (s.doMoves (dAlloc b) true ms (fillByte b) (f.map Prod.fst)).xferDone key i d env f St.DMA_DONE 0 0 n
    (failMa ms ((f.map Prod.fst).getD 0))

/-- FILL (R141). -/
def execFill (q : QRef) (env : XferEnv) (s : State) : Host.Outcome State Fault Refusal :=
  .next (s.dmaRun q (fun o => decide (o.head? = some 2)) (dmaFill env))

/-- What stops a page operation (R146, R148): a row's list entry, or a unit of an earlier row. -/
def State.pageFail (s : State) (env : XferEnv) (d : List Byte) (ms : List Move) (stop : Option (Nat × Nat)) : Option (Nat × Nat) :=
  match s.firstFail ms env (dRows d * dLen d), stop with
  | some (o, st), some (r, st2) => if r * dLen d ≤ o then some (r * dLen d, st2) else some (o, st)
  | some x, none => some x
  | none, some (r, st2) => some (r * dLen d, st2)
  | none, none => none

/-- A page operation (R145, R146, R148): the rows below the failing token are written, and the absent ones among them counted. -/
def dmaPage (env : XferEnv) (s : State) (key i : Nat) (d : Desc) : State :=
  let b := d.bytes
  let s := s.readRange (dAlloc b) env.ecc (listSpan b).1 (listSpan b).2
  let stop := s.pageStop env.listFail b
  let ms := s.pageMoves env.listFail b ((stop.map Prod.fst).getD (dRows b))
  let s := s.readMoves (dAlloc b) env.ecc (dLen b) ms
  let f := s.pageFail env b ms stop
  let ab := s.absentRows b ((f.map fun x => x.1 / dLen b).getD (dRows b))
  let addr := match f, stop with
    | some (o, _), some (r, _) => if o = r * dLen b then some (listMa b r) else failMa ms o
    | some (o, _), none => failMa ms o
    | none, _ => none
  (s.doMoves (dAlloc b) false ms (s.srcByte env.hostData) (f.map Prod.fst)).xferDone key i d env f
    (if ab = 0 then St.DMA_DONE else St.DMA_DONE_ABSENT) 0 ab (dRows b * dLen b) addr

/-- PAGE_READ (R145, R146). -/
def execPageRead (q : QRef) (env : XferEnv) (s : State) : Host.Outcome State Fault Refusal :=
  .next (s.dmaRun q (fun o => decide (o.head? = some 5)) (dmaPage env))

/-- PAGE_WRITE (R145, R146). -/
def execPageWrite (q : QRef) (env : XferEnv) (s : State) : Host.Outcome State Fault Refusal :=
  .next (s.dmaRun q (fun o => decide (o.head? = some 6)) (dmaPage env))

/-! ### Atomics -/

/-- An atomic on its word (R127): the word replaced in the slice, its old value to the core store; not executed on poison (R131). -/
def dmaAtomic (f : Nat → Nat → Nat → Nat) (env : XferEnv) (s : State) (key i : Nat) (d : Desc) : State :=
  let b := d.bytes
  let w := atomicWidth (dMemop b)
  let a := dDst b
  let s := s.readRange true env.ecc a w
  let st := if s.readStatus a ≠ 0 then s.readStatus a else match env.failAt with
    | some (_, e) => failStatus e
    | none => 0
  if st ≠ 0 then s.xferDone key i d env (some (0, st)) 0 0 0 0 (some a) else
  let s := s.bump 0x2403 0x03 (a / 2 ^ 36)
  let old := leNat (s.memBytes a w)
  let s := (s.putMem a (leBytes w (f old (dOpA b % 2 ^ (8 * w)) (dOpB b % 2 ^ (8 * w))))).sliceWrites a true false
  let s := match s.locOf 1 (dSrc b) 0 with
    | .core k o => s.putStoreRun k o (leBytes w old)
    | _ => s
  s.xferDone key i d env none St.DMA_DONE 0 0 w (some a)

/-- The command of an atomic code. -/
def runAtomic (code : Nat) (f : Nat → Nat → Nat → Nat) (q : QRef) (env : XferEnv) (s : State) : State :=
  s.dmaRun q (fun o => decide (o = [3, code])) (dmaAtomic f env)

/-- An FP32 operation on words held as numbers. -/
def onWords (op : Word → Word → Word) (a b : Nat) : Nat := (op (BitVec.ofNat 32 a) (BitVec.ofNat 32 b)).toNat

/-- AT_ADD_U32 (Table 06-5). -/
def execAtAddU32 (q : QRef) (env : XferEnv) (s : State) : Host.Outcome State Fault Refusal :=
  .next (runAtomic 0x01 (fun w a _ => (w + a) % 2 ^ 32) q env s)
/-- AT_ADD_U64 (Table 06-5). -/
def execAtAddU64 (q : QRef) (env : XferEnv) (s : State) : Host.Outcome State Fault Refusal :=
  .next (runAtomic 0x02 (fun w a _ => (w + a) % 2 ^ 64) q env s)
/-- AT_ADD_F32 (Table 06-5, R77). -/
def execAtAddF32 (q : QRef) (env : XferEnv) (s : State) : Host.Outcome State Fault Refusal :=
  .next (runAtomic 0x03 (fun w a _ => onWords add32 w a) q env s)
/-- AT_MAX_I32 (Table 06-5). -/
def execAtMaxI32 (q : QRef) (env : XferEnv) (s : State) : Host.Outcome State Fault Refusal :=
  .next (runAtomic 0x04 (fun w a _ => if sInt 32 w < sInt 32 a then a else w) q env s)
/-- AT_MIN_I32 (Table 06-5). -/
def execAtMinI32 (q : QRef) (env : XferEnv) (s : State) : Host.Outcome State Fault Refusal :=
  .next (runAtomic 0x05 (fun w a _ => if sInt 32 a < sInt 32 w then a else w) q env s)
/-- AT_MAX_U32 (Table 06-5). -/
def execAtMaxU32 (q : QRef) (env : XferEnv) (s : State) : Host.Outcome State Fault Refusal :=
  .next (runAtomic 0x06 (fun w a _ => Nat.max w a) q env s)
/-- AT_MIN_U32 (Table 06-5). -/
def execAtMinU32 (q : QRef) (env : XferEnv) (s : State) : Host.Outcome State Fault Refusal :=
  .next (runAtomic 0x07 (fun w a _ => Nat.min w a) q env s)
/-- AT_MAX_F32 (Table 06-5): as VMAX. -/
def execAtMaxF32 (q : QRef) (env : XferEnv) (s : State) : Host.Outcome State Fault Refusal :=
  .next (runAtomic 0x08 (fun w a _ => onWords max32 w a) q env s)
/-- AT_MIN_F32 (Table 06-5): as VMIN. -/
def execAtMinF32 (q : QRef) (env : XferEnv) (s : State) : Host.Outcome State Fault Refusal :=
  .next (runAtomic 0x09 (fun w a _ => onWords min32 w a) q env s)
/-- AT_AND (Table 06-5). -/
def execAtAnd (q : QRef) (env : XferEnv) (s : State) : Host.Outcome State Fault Refusal :=
  .next (runAtomic 0x0A (fun w a _ => w &&& a) q env s)
/-- AT_OR (Table 06-5). -/
def execAtOr (q : QRef) (env : XferEnv) (s : State) : Host.Outcome State Fault Refusal :=
  .next (runAtomic 0x0B (fun w a _ => w ||| a) q env s)
/-- AT_XOR (Table 06-5). -/
def execAtXor (q : QRef) (env : XferEnv) (s : State) : Host.Outcome State Fault Refusal :=
  .next (runAtomic 0x0C (fun w a _ => w ^^^ a) q env s)
/-- AT_SWAP_U32 (Table 06-5). -/
def execAtSwapU32 (q : QRef) (env : XferEnv) (s : State) : Host.Outcome State Fault Refusal :=
  .next (runAtomic 0x0D (fun _ a _ => a) q env s)
/-- AT_SWAP_U64 (Table 06-5). -/
def execAtSwapU64 (q : QRef) (env : XferEnv) (s : State) : Host.Outcome State Fault Refusal :=
  .next (runAtomic 0x0E (fun _ a _ => a) q env s)
/-- AT_CAS_U32 (Table 06-5). -/
def execAtCasU32 (q : QRef) (env : XferEnv) (s : State) : Host.Outcome State Fault Refusal :=
  .next (runAtomic 0x0F (fun w a b => if w = a then b else w) q env s)
/-- AT_CAS_U64 (Table 06-5). -/
def execAtCasU64 (q : QRef) (env : XferEnv) (s : State) : Host.Outcome State Fault Refusal :=
  .next (runAtomic 0x10 (fun w a b => if w = a then b else w) q env s)

/-! ### Reductions -/

/-- The source bytes of a reduction in transfer-offset order (R143). -/
def State.srcBytes (s : State) (d : List Byte) (host : List Byte) : List Byte :=
  (List.range (dRows d * dLen d)).map fun t => s.locByte host t (s.rowLoc (srcSide d) t)

/-- One plain element of a reduction (Table 06-6): source element k of row r is combined into its destination element. -/
def reduceElem (op : Word → Word → Word) (esize : Nat) (d src : List Byte) (s : State) (t : Nat) : State :=
  let per := dLen d / esize
  let r := t / per
  let k := t % per
  let a := dDst d + r * strideOr (dDstStride d) (dLen d) + 4 * k
  let v := fld src (r * dLen d + k * esize) esize
  let sv := if esize = 2 then bf16.widen v else BitVec.ofNat 32 v
  s.putMem a (leBytes 4 (op (BitVec.ofNat 32 (leNat (s.memBytes a 4))) sv).toNat)

/-- The moves of a reduction, each source byte against the first byte of the destination element it reaches; a byte of a part-element at the
end of a row reaches none. -/
def State.reduceMoves (s : State) (d : List Byte) (esize : Nat) : List Move :=
  movesOf (dRows d * dLen d) (s.rowLoc (srcSide d)) fun t =>
    if t % dLen d / esize < dLen d / esize then
      .mem (dDst d + t / dLen d * strideOr (dDstStride d) (dLen d) + 4 * (t % dLen d / esize))
    else .nowhere

/-- The status with which a byte of a reduction fails: of its source, else of the element it would change (R131). -/
def State.reduceStatus (s : State) (m : Move) : Nat :=
  let st : Loc → Nat := fun l => match l with
    | .mem a => s.readStatus a
    | _ => 0
  if st m.src ≠ 0 then st m.src else st m.dst

/-- The lower of two failures by transfer offset, of two at one offset the first. -/
def lowerFail (a b : Option (Nat × Nat)) : Option (Nat × Nat) :=
  match a, b with
  | some x, some y => if y.1 < x.1 then some y else some x
  | some x, none => some x
  | none, y => y

/-- A failure that the surroundings cause within n transfer offsets, moved to the start of its unit. -/
def envFail (env : XferEnv) (n : Nat) (unit : Nat → Nat) : Option (Nat × Nat) :=
  match env.failAt with
  | some (o, w) => if o < n then some (unit o, failStatus w) else none
  | none => none

/-- A plain reduction (R129, R131): elements in ascending order; one on a poisoned or retired sector is not executed and
stops the descriptor there. -/
def dmaReduce (op : Word → Word → Word) (esize : Nat) (env : XferEnv) (s : State) (key i : Nat) (d : Desc) : State :=
  let b := d.bytes
  let n := dRows b * dLen b
  let per := dLen b / esize
  let unit := fun o => o / dLen b * dLen b + o % dLen b / esize * esize
  let ms := s.reduceMoves b esize
  let s := s.readMoves true env.ecc (dLen b) ms
  let s := (movedSectors ms).foldl (fun s a => s.readSector true env.ecc a) s
  let own := (ms.find? fun m => decide (s.reduceStatus m ≠ 0)).map fun m => (unit m.off, s.reduceStatus m)
  let f := lowerFail (envFail env n unit) own
  let src := s.srcBytes b env.hostData
  let lim := match f with
    | some (o, _) => o / dLen b * per + Nat.min per (o % dLen b / esize)
    | none => dRows b * per
  let s := (List.range lim).foldl (reduceElem op esize b src) (s.bump 0x2403 0x03 (dDst b / 2 ^ 36) lim)
  let s := (movedSectors (ms.filter fun m => match f with
    | some (o, _) => decide (m.off < o)
    | none => true)).foldl (fun s a => s.sliceWrites a true false) s
  s.xferDone key i d env f St.DMA_DONE 0 0 (dRows b * (per * 4)) (failMa ms ((f.map Prod.fst).getD 0))

/-- The command of a plain reduction code. -/
def runReduce (code : Nat) (op : Word → Word → Word) (esize : Nat) (q : QRef) (env : XferEnv) (s : State) : State :=
  s.dmaRun q (fun o => decide (o = [4, code])) (dmaReduce op esize env)

/-- RD_ADD_F32 (Table 06-6). -/
def execRdAddF32 (q : QRef) (env : XferEnv) (s : State) : Host.Outcome State Fault Refusal :=
  .next (runReduce 0x20 add32 4 q env s)
/-- RD_ADD_BF16_F32 (Table 06-6, R99). -/
def execRdAddBf16F32 (q : QRef) (env : XferEnv) (s : State) : Host.Outcome State Fault Refusal :=
  .next (runReduce 0x21 add32 2 q env s)
/-- RD_ADD_I32 (Table 06-6): wrapping. -/
def execRdAddI32 (q : QRef) (env : XferEnv) (s : State) : Host.Outcome State Fault Refusal :=
  .next (runReduce 0x22 (fun a b => a + b) 4 q env s)
/-- RD_MAX_F32 (Table 06-6). -/
def execRdMaxF32 (q : QRef) (env : XferEnv) (s : State) : Host.Outcome State Fault Refusal :=
  .next (runReduce 0x23 max32 4 q env s)
/-- RD_MIN_F32 (Table 06-6). -/
def execRdMinF32 (q : QRef) (env : XferEnv) (s : State) : Host.Outcome State Fault Refusal :=
  .next (runReduce 0x24 min32 4 q env s)

/-- One element d + q × 2^(E − E_acc), saturating at the I32 limits (R128): the value and whether it saturated. -/
def bs8Add (d q sh : Int) : Int × Bool :=
  let big : Int := if q < 0 then -(2 ^ 62) else if q = 0 then 0 else 2 ^ 62
  let v := d + (if 30 < sh then big else q * 2 ^ sh.toNat)
  let c := clampInt (-2147483648) 2147483647 v
  (c, decide (c ≠ v))

/-- One block of RD_ADD_BS8_I32 (R128): the state and the flags it raises (bit 0 invalid, bit 1 exponent, bit 2 saturated). -/
def bs8Block (eacc : Int) (blk : Bs8) (a : Nat) (s : State) : State × Nat :=
  let inv := blk.invalid || expReserved blk.e
  let low := decide (blk.e < eacc)
  if inv || low then (s, b2n inv + 2 * b2n low) else
  blk.q.zipIdx.foldl (fun (acc : State × Nat) qi =>
    let p := a + 4 * qi.2
    let r := bs8Add (sInt 32 (leNat (acc.1.memBytes p 4))) qi.1 (blk.e - eacc)
    (acc.1.putMem p (leBytes 4 (uNat 32 r.1)), acc.2 ||| (if r.2 then 4 else 0))) (s, 0)

/-- The transfer offset of block b of segment sg of row r: its values within the segment (Table 05-6). -/
def bs8Off (d : List Byte) (r sg b : Nat) : Nat := r * dLen d + sg * 1088 + 32 * b

/-- The MA of the first destination element of segment sg of row r (R128). -/
def bs8Dst (d : List Byte) (r sg : Nat) : Nat := dDst d + r * strideOr (dDstStride d) (dLen d) + sg * 4096

/-- The first block of a segment that fails, with its transfer offset, status and MA (R148): the segment's exponents and status bytes belong to its
first block (log entry 28); a block fails by its source, else by the elements it would change. -/
def State.bs8Fail (s : State) (d : List Byte) (r sg : Nat) : Option (Nat × Nat × Nat) :=
  let bad := fun (o n : Nat) => (List.range n).findSome? fun j =>
    match s.rowLoc (srcSide d) (r * dLen d + sg * 1088 + o + j) with
    | .mem a => if s.readStatus a ≠ 0 then some (s.readStatus a, a) else none
    | _ => none
  match bad 1024 64 with
  | some x => some (bs8Off d r sg 0, x)
  | none => (List.range 32).findSome? fun b =>
    match bad (32 * b) 32 with
    | some x => some (bs8Off d r sg b, x)
    | none => (s.readFail (bs8Dst d r sg + 128 * b) 128).map fun x => (bs8Off d r sg b, x.2, bs8Dst d r sg + 128 * b + x.1)

/-- The start of the block that a transfer offset belongs to. -/
def bs8Unit (d : List Byte) (o : Nat) : Nat :=
  let p := o % dLen d % 1088
  o / dLen d * dLen d + o % dLen d / 1088 * 1088 + (if p < 1024 then p / 32 * 32 else 0)

/-- A RD_ADD_BS8_I32 descriptor (R128): whole segments of 32 blocks, block b into destination elements 32b on. -/
def dmaBs8 (env : XferEnv) (s : State) (key i : Nat) (d : Desc) : State :=
  let b := d.bytes
  let n := dRows b * dLen b
  let segs := dLen b / 1088
  let units := (List.range (dRows b * segs)).map fun t => (t / segs, t % segs)
  let ms := movesOf n (s.rowLoc (srcSide b)) fun _ => .nowhere
  let s := s.readMoves true env.ecc (dLen b) ms
  let s := units.foldl (fun s u => s.readRange true env.ecc (bs8Dst b u.1 u.2) 4096) s
  let own := units.findSome? fun u => s.bs8Fail b u.1 u.2
  let f := lowerFail (envFail env n (bs8Unit b)) (own.map fun x => (x.1, x.2.1))
  let src := s.srcBytes b env.hostData
  let done := (units.map fun u => (List.range 32).map fun k => (u.1, u.2, k)).flatten.filter fun u => match f with
    | some (o, _) => decide (bs8Off b u.1 u.2.1 u.2.2 < o)
    | none => true
  let r := done.foldl (fun (acc : State × Nat) u =>
    let x := bs8Block (dEacc b) (segBlock (sliceBytes src (u.1 * dLen b + u.2.1 * 1088) 1088) u.2.2) (bs8Dst b u.1 u.2.1 + 128 * u.2.2) acc.1
    (x.1, acc.2 ||| x.2)) (s.bump 0x2403 0x03 (dDst b / 2 ^ 36) (done.length * 32), 0)
  let t := done.foldl (fun s u => (List.range 4).foldl (fun s j =>
    s.sliceWrites ((bs8Dst b u.1 u.2.1 + 128 * u.2.2) / 32 * 32 + 32 * j) true false) s) r.1
  let st := if bit r.2 0 then St.MEM_RED_INVALID else if bit r.2 1 then St.MEM_RED_EXPONENT
    else if bit r.2 2 then St.MEM_RED_SATURATED else St.DMA_DONE
  let addr := match f, own with
    | some (o, _), some x => if o = x.1 then some x.2.2 else failMa ms o
    | some (o, _), none => failMa ms o
    | none, _ => none
  t.xferDone key i d env f st r.2 0 (dRows b * (segs * 4096)) addr

/-- RD_ADD_BS8_I32 (R128). -/
def execRdAddBs8I32 (q : QRef) (env : XferEnv) (s : State) : Host.Outcome State Fault Refusal :=
  .next (s.dmaRun q (fun o => decide (o = [4, 0x25])) (dmaBs8 env))

/-! ### Completion -/

/-- Count a completed descriptor (Table 07-7). -/
def State.dmaCounts (s : State) (e c q h : Nat) (r : List Byte) : State :=
  let st := fld r 2 2
  let rej := decide (st = St.CMD_RESERVED_NONZERO ∨ st = St.DMA_BAD_FIELD ∨ st = St.DMA_BAD_ADDRESS ∨ st = St.DMA_OVERLAP
    ∨ st = St.MEM_ALIGN)
  let s := ((s.bump 0x2404 0x01 e).bump 0x2404 0x04 e (fld r 8 8)).bump 0x2404 0x05 e (fld r 6 2)
  let s := if rej then s.bump 0x2404 0x02 e else s
  let s := if stopStatus st then s.bump 0x2404 0x03 e else s
  if rej || stopStatus st then s.odp 0x2404 0x06 e (st + c * 2 ^ 16 + q * 2 ^ 22 + h % 2 ^ 40 * 2 ^ 24) else s

/-- Write a completion record to its ring in space 0 or 1 (R149): a record discarded by retired memory is lost, a storage
event of the context. -/
def State.putRecord (s : State) (sp a c : Nat) (r : List Byte) : State :=
  if sp = 0 then
    let w := s.writeRun a r
    if w.2 = 0 then w.1 else w.1.storageEvent (some c) w.2 a
  else match s.locOf 1 a 0 with
    | .core k o => s.putStoreRun k o r
    | _ => s

/-- DMA_COMPLETION (R149, R150, R212): the oldest finished descriptor writes its record, in order of h, when its ring has
room, then signals. -/
def execDmaCompletion (q : QRef) (s : State) : Host.Outcome State Fault Refusal :=
  let key := qKey q
  let c := q.ctx.toNat
  let s := s.dmaSettle key 17
  let k := s.dq key
  let qr := (s.ctx c).dmaRec q.engine.toNat q.q.toNat
  match k.items with
  | d :: t =>
    match d.record with
    | some r =>
      if s.ringFree qr d.h then
        let sp := fld qr 24 1 % 8
        let a := fld qr 16 8 + 32 * (d.h % 2 ^ fld qr 25 1)
        .next (s.coherent (if sp = 0 then [(a, 32)] else []) fun s =>
          let s := (s.putRecord sp a c r).setDq key { k with items := t, written := d.h + 1 }
          let s := s.dmaCounts q.engine.toNat c q.q.toNat d.h r
          let s := s.traced 2 0 (4 * q.engine.toNat + q.q.toNat) (fld r 2 2) (fld r 0 2) d.h
          (if dSignal d.bytes && decide (d.status = 0) then s.signal (dSignalSync d.bytes) 1 else s).dmaSettle key 17)
      else .next s
    | none => .next s
  | [] => .next s

end Sys2Proof.Machine
end

