-- ==== Sys2Proof/Machine/LongSeq.lean ====
section
/-! DEFINITION. Long sequences (chapter 09): milk rounds, gathers, the cellar; and the completion of messages (R270). -/

namespace Sys2Proof.Machine

/-! ### Groups (R283, R284) -/

/-- A gather and reduction group as its descriptor gives it. -/
structure Group where
  g       : Nat
  p       : Nat
  own     : Nat
  members : List Nat
  deriving DecidableEq, Repr

/-- The directory entries as read at a step boundary (R283, R284): none where memory does not deliver them. -/
def State.readDir (s : State) (c : Nat) : State × List Nat :=
  let r := s.routineRead c (s.odg 0x2700 0x01) (8 * s.odg 0x2700 0x02)
  match r.2 with
  | some b => (r.1, (List.range (s.odg 0x2700 0x02)).map fun k => fld b (8 * k) 8)
  | none => (r.1, [])

/-- The MA of a group's descriptor: the directory entry of the last step boundary, none beyond the directory. -/
def State.groupMa (s : State) (c k : Nat) : Option Nat := (s.ctx c).groupDir[k]?

/-- Group k for a context (R284): none where the record that names it is rejected with COLL_BAD_GROUP. -/
def State.group (s : State) (c k : Nat) : Option Group :=
  match s.groupMa c k with
  | none => none
  | some ma =>
    let h := s.memBytes ma 16
    let g := fld h 0 2
    let p := fld h 2 1
    let ms := (List.range g).map fun m => s.memBytes (ma + 16 + 4 * m) 4
    let addr := fun b => fld b 0 1 % 64 + 64 * (fld b 1 1 % 64) + 4096 * (fld b 2 1 % 64)
    if 2 ^ 39 < ma + 16 + 4 * g ∨ g = 0 ∨ 20480 < g ∨ ¬ (p = 1 ∨ p = 2 ∨ p = 4 ∨ p = 8) ∨ g % p ≠ 0 ∨ fld h 3 1 ≠ 0 ∨ fld h 8 8 ≠ 0
      ∨ g ≤ fld h 4 2 ∨ fld h 6 2 ≠ (s.ctx c).job then none
    else if ms.any fun b => decide (64 ≤ fld b 0 1 ∨ 64 ≤ fld b 1 1 ∨ 64 ≤ fld b 2 1 ∨ fld b 3 1 ≠ 0) then none
    else
      let r : Group := { g := g, p := p, own := fld h 4 2, members := ms.map addr }
      if r.members.getD r.own 0 = s.ownAddr s.epochNow then some r else none

/-- Read the descriptor of a group that a record names (R283): false where memory does not deliver it, a storage event. -/
def State.readGroup (s : State) (c k : Nat) : State × Bool :=
  match s.groupMa c k with
  | none => (s, true)
  | some ma =>
    let r := s.routineRead c ma (16 + 4 * (leNat (s.memBytes ma 2) % 20481))
    (r.1, r.2.isSome)

/-- Send the same bytes to every other member of a group. -/
def State.toMembers (s : State) (r : Group) (tc rxq job : Nat) (bytes : List Byte) (owner : Nat × Nat) : State :=
  r.members.zipIdx.foldl (fun s m => if m.2 = r.own then s else s.sendRoutine m.1 tc rxq job bytes owner) s

/-- A receive queue number that the manual leaves to the routine: a free value (log entry 5). -/
def State.freeQueue (s : State) : Nat := (Config.freeWord s.free).toNat % 65535

/-! ### Milk rounds (R182-R186) -/

/-- PASS of a ring descriptor: true backward. -/
def mBack (d : List Byte) : Bool := bit (fld d 0 1) 0
/-- MODE: true multicast. -/
def mMulti (d : List Byte) : Bool := bit (fld d 0 1) 1
/-- DIR. -/
def mDir (d : List Byte) : Nat := bits (fld d 0 1) 2 2
/-- AXIS. -/
def mAxis (d : List Byte) : Nat := bits (fld d 0 1) 4 3
/-- N. -/
def mN (d : List Byte) : Nat := bits (fld d 1 1) 5 0 + 1
/-- TC. -/
def mTc (d : List Byte) : Nat := bits (fld d 2 1) 6 5
/-- LEN (R184). -/
def mLen (d : List Byte) : Nat := 2 * (16 * bits (fld d 2 1) 4 0) * fld d 3 1
/-- C. -/
def mC (d : List Byte) : Nat := bits (fld d 4 4) 23 0
/-- FIRST_SLOT. -/
def mFirst (d : List Byte) : Nat := fld d 8 4
/-- ROUND_SLOTS. -/
def mRound (d : List Byte) : Nat := fld d 12 4
/-- BUF. -/
def mBuf (d : List Byte) : Nat := bits (fld d 48 8) 38 0
/-- ROUND_SYNC. -/
def mRoundSync (d : List Byte) : Nat := fld d 56 2
/-- FREE_SYNC. -/
def mFreeSync (d : List Byte) : Nat := fld d 58 2
/-- TAG. -/
def mTag (d : List Byte) : Nat := fld d 60 2
/-- The number of parcel buffers (R184). -/
def mBufs (d : List Byte) : Nat := if mMulti d then mN d else 2
/-- The bytes of the rows of a parcel. -/
def mRowsLen (d : List Byte) : Nat := 4 * mC d * mLen d
/-- The bytes of the dK and dV section. -/
def mSectLen (d : List Byte) : Nat := 8 * mC d * mLen d
/-- PB (R184). -/
def mPb (d : List Byte) : Nat :=
  (mRowsLen d + (if mBack d then mSectLen d else 0) + 2097151) / 2097152 * 2097152
/-- The address of parcel buffer k. -/
def mBufAt (d : List Byte) (k : Nat) : Nat := mBuf d + k * mPb d
/-- The last value of ROUND_SYNC (R185, R186). -/
def mLast (d : List Byte) : Nat := if mBack d ∧ 1 < mN d then mN d + 1 else mN d

/-- The rejection of a ring descriptor (R183), 0 where it has none. -/
def State.milkReject (s : State) (x : Ctx) (d : List Byte) : Nat :=
  if fld d 0 1 / 32 ≠ 0 ∨ fld d 1 1 / 64 ≠ 0 ∨ bit (fld d 2 1) 7 = true ∨ fld d 7 1 ≠ 0 ∨ fld d 43 1 ≠ 0
      ∨ [16, 24, 32, 48].any (fun o => decide (fld d o 8 / 2 ^ 39 ≠ 0)) ∨ fld d 62 2 ≠ 0 then St.CMD_RESERVED_NONZERO
  else if mAxis d = 3 ∨ mN d ≠ x.fld (99 + mAxis d) 1 ∨ mC d = 0 ∨ mC d % 128 ≠ 0 ∨ 16777216 < 2 * mN d * mC d
      ∨ mLen d = 0 ∨ 512 < 2 * (16 * bits (fld d 2 1) 4 0) ∨ 64 < fld d 3 1 ∨ mBuf d % 2097152 ≠ 0
      ∨ 2 ^ 39 < mBuf d + mBufs d * mPb d then St.CMD_BAD_FIELD
  else if (List.range (mBufs d * mPb d / 2097152)).any fun k => s.hbm.frames.contains (frameOf (mBuf d + k * 2097152)) then
    St.CMD_BAD_FIELD
  else 0

/-- The member index of this module along a ring's axis (R180). -/
def State.milkIndex (s : State) (x : Ctx) (d : List Byte) : Nat :=
  let a := mAxis d
  let n := s.axisLen s.epochNow a
  (axisOf (s.ownAddr s.epochNow) a + n - x.fld (96 + a) 1 % (n + 1)) % n

/-- The successor's fabric address (R180): one member on in the direction of DIR, within the job's box. -/
def State.milkNext (s : State) (x : Ctx) (d : List Byte) : Nat :=
  let a := mAxis d
  let own := s.ownAddr s.epochNow
  let n := mN d
  let i := s.milkIndex x d
  let j := if mDir d = 0 then (i + 1) % n else (i + n - 1) % n
  let t := (x.fld (96 + a) 1 + j) % Nat.max 1 (s.axisLen s.epochNow a)
  own - axisOf own a * 64 ^ a + t * 64 ^ a

/-- The MA of a row of the member's own pool, or the status that stops the copy, with the MA it names (R145, R185). -/
def State.ownRow (s : State) (d : List Byte) (pool t : Nat) : Except Nat Nat :=
  let tok := bits (fld d 40 4) 23 0 + t
  let la := bits (fld d 16 8) 38 0 + 4 * (tok / 16)
  match s.readFail la 4 with
  | some (o, st) => .error (st + 65536 * (la + o))
  | none =>
    let l := leNat (s.memBytes la 4)
    if l = 0xFFFFFFFF then .error St.DMA_PAGE_ABSENT else
    let a := pool + l * (if fld d 44 4 = 0 then 16 * mLen d else fld d 44 4) + tok % 16 * mLen d
    match s.readFail a (mLen d) with
    | some (o, st) => .error (st + 65536 * (a + o))
    | none => .ok a

/-- The MAs of the member's own rows in local token order, keys then values (R184, R185). -/
def State.ownRows (s : State) (d : List Byte) : Except Nat (List Nat) := do
  let ks ← (List.range (2 * mC d)).mapM (s.ownRow d (bits (fld d 24 8) 38 0))
  let vs ← (List.range (2 * mC d)).mapM (s.ownRow d (bits (fld d 32 8) 38 0))
  pure (ks ++ vs)

/-- Whether a milk round has nothing left to do: every parcel complete, every round started, everything forwarded (R185, R186). -/
def milkOver (t : MilkTask) : Bool :=
  let d := t.desc
  decide (mLast d ≤ t.have_ ∧ mN d ≤ t.started) && (mMulti d || decide (mN d ≤ t.fwdRows + 1))
    && (!mBack d || decide (mN d ≤ 1 ∨ mN d ≤ t.fwdSect))

/-- Replace a milk round in progress; one with nothing left to do is forgotten. -/
def State.setMilk (s : State) (t : MilkTask) : State :=
  let ms := if milkOver t then s.tasks.milks.filter fun u => decide (¬ (u.ctx = t.ctx ∧ u.pos = t.pos))
    else s.tasks.milks.map fun u => if u.ctx = t.ctx ∧ u.pos = t.pos then t else u
  { s with tasks := { s.tasks with milks := ms } }

/-- Raise ROUND_SYNC for every parcel that is complete, in order (R185, R186); the last one completes the entry. -/
def State.milkAdvance (s : State) (t : MilkTask) : Nat → State
  | 0 => s.setMilk t
  | n + 1 =>
    let r := t.have_
    let rowsIn := t.rows.contains r || decide (r = mN t.desc)
    let sectIn := !(mBack t.desc) || decide (r < t.sects)
    if r < mLast t.desc ∧ rowsIn = true ∧ sectIn = true then
      let x := s.ctx t.ctx
      let late := decide (r < mN t.desc ∧ mRound t.desc ≠ 0 ∧ x.base + mFirst t.desc + r * mRound t.desc < x.slots)
      let s := s.signal (mRoundSync t.desc) 1
      let s := if r < mN t.desc then s.bump 0x2920 0x01 0 else s
      let s := if late then s.bump 0x2920 0x02 0 else s
      let t := { t with have_ := r + 1 }
      if r + 1 = mLast t.desc then (s.setMilk t).routineDone t.ctx t.pos else s.milkAdvance t n
    else s.setMilk t

/-- Whether round q's buffer may be written (Table 09-3): FREE_SYNC tells that the round that used it before is done, and what that
round held has been forwarded, which `sent` rounds have. -/
def State.mayFill (s : State) (d : List Byte) (q sent : Nat) : Bool :=
  decide (q < mBufs d) || (s.satisfied (mFreeSync d) (BitVec.ofNat 64 (q + 1 - mBufs d)) && decide (q - mBufs d < sent))

/-- Place the rows that have come by relay in their buffers, in order, as far as the buffers may be written. -/
def State.fillRows (s : State) (t : MilkTask) : List (List Byte) → State × MilkTask
  | [] => (s, { t with rowsWait := [] })
  | b :: more =>
    let q := t.rows.length
    if s.mayFill t.desc q t.fwdRows then
      (s.routineWrite t.ctx (mBufAt t.desc (q % mBufs t.desc)) b).fillRows { t with rows := q :: t.rows } more
    else (s, { t with rowsWait := b :: more })

/-- Place the dK and dV sections that have come in their buffers, in order, as far as the buffers may be written. -/
def State.fillSects (s : State) (t : MilkTask) : List (List Byte) → State × MilkTask
  | [] => (s, { t with sectWait := [] })
  | b :: more =>
    let q := t.sects
    if s.mayFill t.desc q t.fwdSect then
      (s.routineWrite t.ctx (mBufAt t.desc (q % mBufs t.desc) + mRowsLen t.desc) b).fillSects { t with sects := q + 1 } more
    else (s, { t with sectWait := b :: more })

/-- A milk round goes on: what waits for a buffer takes it, and complete parcels are signalled. -/
def State.milkGo (s : State) (t : MilkTask) : State :=
  let a := s.fillRows t t.rowsWait
  let b := a.1.fillSects a.2 a.2.sectWait
  b.1.milkAdvance b.2 (mN b.2.desc + 2)

/-- The MILK entry (R183-R185): the descriptor, judged; the own rows into buffer 0, the section of zeros, ROUND_SYNC 1. -/
def milkStart (s : State) (c pos : Nat) (e : PlanEntry) : State :=
  let i := s.routineRead c (e.arg % 2 ^ 39) 64
  let s := i.1
  match i.2 with
  | none => s
  | some d =>
    let st := s.milkReject (s.ctx c) d
    if st ≠ 0 then s.herdEvent 0x2902 c 0 (mTag d) else
    match s.ownRows d with
    | .error why => if storageStatus (why % 65536) then
        (s.metPoison (why % 65536) (why / 65536)).storageEvent (some c) (why % 65536) (why / 65536) else s
    | .ok rows =>
      let t := bits (fld d 40 4) 23 0
      let list := bits (fld d 16 8) 38 0 + t / 16 * 4
      let s := rows.foldl (fun s a => s.fetched a (mLen d)) (s.fetched list (((t + 2 * mC d - 1) / 16 - t / 16 + 1) * 4))
      let s := s.routineWrite c (mBuf d) (rows.map fun a => s.memBytes a (mLen d)).flatten
      let s := if mBack d then s.routineWrite c (mBuf d + mRowsLen d) (List.replicate (mSectLen d) 0) else s
      let t : MilkTask := { ctx := c, pos := pos, desc := d, started := 0, have_ := 0, rows := [0], sects := 1, fwdRows := 0
                            fwdSect := 0, rowsWait := [], sectWait := [] }
      { s with tasks := { s.tasks with milks := s.tasks.milks ++ [t] } }.milkAdvance t 1

/-- MILK (Table 10-3, R182-R185). -/
def execMilk (env : MemEnv) (s : State) : Host.Outcome State Fault Refusal := .next (s.flowRunIn env 0x0C milkStart)

/-- The milk rounds of the running context. -/
def State.milksNow (s : State) : List MilkTask := s.tasks.milks.filter fun t => decide (s.runningCtx = some t.ctx)

/-- The packets of a multicast of bytes along a ring (R185, R266): N - 1 modules served. -/
def State.multicast (s : State) (t : MilkTask) (bytes : List Byte) : State :=
  let x := s.ctx t.ctx
  let d := t.desc
  let own := s.ownAddr s.epochNow
  let far := s.stepAddr s.epochNow own (2 * mAxis d + mDir d) (mN d - 1)
  let served := (List.range (mN d - 1)).map fun k => s.stepAddr s.epochNow own (2 * mAxis d + mDir d) (k + 1)
  let rxq := s.freeQueue
  (chunks 16777216 bytes).foldl (fun s b =>
    let id := served.foldl (fun m a => Nat.max m (s.win (winKey a (mTc d))).nextId) 0
    let s := served.foldl (fun s a =>
      let k := winKey a (mTc d)
      s.setWin k { s.win k with nextId := (id + 1) % 65536 }) s
    let js := (messagePkts own far (mTc d) rxq x.job id b).map fun (p : Packet) =>
      let q : Packet := { p with typ := 1, mcAxis := BitVec.ofNat 2 (mAxis d), mcNeg := decide (mDir d = 1), mcHops := BitVec.ofNat 6 (mN d - 1) }
      let i : Inj := { pkt := q, dma := none, owner := some (t.ctx, t.pos), job := x.job }
      i
    { s with rt := { s.rt with inject := s.rt.inject ++ js } }) s.drawn

/-- Start the next round of a milk round (R185); in multicast mode round 0 sends the member's own parcel along the axis. -/
def State.roundStart (s : State) (t : MilkTask) : State :=
  let d := t.desc
  let u := { t with started := t.started + 1 }
  if t.started = 0 ∧ mMulti d = true ∧ 1 < mN d then
    let r := s.routineRead t.ctx (mBuf d) (mRowsLen d)
    match r.2 with
    | some b => ((r.1.multicast t b).bump 0x2920 0x03 0 (mRowsLen d)).milkGo u
    | none => r.1.milkGo u
  else s.milkGo u

/-- MILK_ROUND_START (R185): the next round starts once its parcel is complete and its slot has come. -/
def execMilkRoundStart (k : Nat) (env : MemEnv) (s : State) : Host.Outcome State Fault Refusal :=
  match s.milksNow[k]? with
  | none => .next s
  | some t =>
    let x := s.ctx t.ctx
    let d := t.desc
    if t.started < mN d ∧ t.started < t.have_ ∧ x.base + mFirst d + t.started * mRound d ≤ x.slots then
      .next (s.within env fun s => s.roundStart t)
    else .next s

/-- Forward bytes of a parcel to the successor (R185, R186), counted as injected: bytes that memory does not deliver are a storage
event and are not sent. -/
def State.forwardParcel (s : State) (t : MilkTask) (u : MilkTask) (a n : Nat) : State :=
  let x := s.ctx t.ctx
  let r := s.routineRead t.ctx a n
  match r.2 with
  | some b => ((r.1.sendRoutine (r.1.milkNext x t.desc) (mTc t.desc) r.1.freeQueue x.job b (t.ctx, t.pos)).drawn.bump 0x2920 0x03 0 n).milkGo u
  | none => r.1.milkGo u

/-- PARCEL_FORWARD (R185, R186): in relay mode the rows of the round's parcel go to the successor once its FREE_SYNC, of value `free`,
has reached the round (Table 09-3); in the backward pass the section follows once the own FREE_SYNC has been raised past the round. -/
def execParcelForward (k : Nat) (free : BitVec 64) (env : MemEnv) (s : State) : Host.Outcome State Fault Refusal :=
  match s.milksNow[k]? with
  | none => .next s
  | some t =>
    let d := t.desc
    if mMulti d = false ∧ t.fwdRows < t.started ∧ t.fwdRows + 1 < mN d ∧ t.fwdRows ≤ free.toNat then
      .next (s.within env fun s =>
        s.forwardParcel t { t with fwdRows := t.fwdRows + 1 } (mBufAt d (t.fwdRows % mBufs d)) (mRowsLen d))
    else if mBack d = true ∧ 1 < mN d ∧ t.fwdSect < t.started ∧ t.fwdSect < mN d
        ∧ s.satisfied (mFreeSync d) (BitVec.ofNat 64 (t.fwdSect + 1)) = true then
      .next (s.within env fun s =>
        s.forwardParcel t { t with fwdSect := t.fwdSect + 1 } (mBufAt d (t.fwdSect % mBufs d) + mRowsLen d) (mSectLen d))
    else .next (s.milkGo t)

/-- The rows of a parcel have arrived (R185): those of a multicast go to their sender's buffer, those of a relay come in order. -/
def State.parcelIn (s : State) (t : MilkTask) (sender : Nat) (rows : List Byte) : State :=
  let x := s.ctx t.ctx
  let d := t.desc
  let i := s.milkIndex x d
  if rows.length ≠ mRowsLen d then s
  else if mMulti d then
    let r := if mDir d = 0 then (i + mN d - sender % mN d) % mN d else (sender + mN d - i % mN d) % mN d
    if t.rows.contains r then s else (s.routineWrite t.ctx (mBufAt d r) rows).milkGo { t with rows := r :: t.rows }
  else if t.rows.length + t.rowsWait.length < mN d then s.milkGo { t with rowsWait := t.rowsWait ++ [rows] }
  else s

/-- A dK and dV section has arrived (R186): sections come in order. -/
def State.sectionIn (s : State) (t : MilkTask) (bytes : List Byte) : State :=
  let d := t.desc
  if mBack d = true ∧ bytes.length = mSectLen d ∧ t.sects + t.sectWait.length < mLast d then
    s.milkGo { t with sectWait := t.sectWait ++ [bytes] }
  else s

/-! ### Gathers (R190-R192) -/

/-- FORM of a gather record. -/
def gForm (d : List Byte) : Nat := bits (fld d 0 1) 1 0
/-- DST_SPACE. -/
def gSpace (d : List Byte) : Nat := bits (fld d 1 1) 2 0
/-- ROWS. -/
def gRows (d : List Byte) : Nat := fld d 8 4
/-- COLS. -/
def gCols (d : List Byte) : Nat := fld d 12 4
/-- DST. -/
def gDst (d : List Byte) : Nat := fld d 24 8
/-- FIRST. -/
def gFirst (d : List Byte) : Nat := fld d 32 4
/-- COUNT. -/
def gCount (d : List Byte) : Nat := fld d 36 4
/-- The storage blocks of the tensor, B_T (R190). -/
def gBlocks (d : List Byte) : Nat := gRows d / 32 * (gCols d / 32)
/-- The blocks of tile t (R192): row i and column j of its 4 × 4 blocks. -/
def tileBlock (d : List Byte) (t i j : Nat) : Nat :=
  let per := gCols d / 128
  (4 * (t / Nat.max 1 per) + i) * (gCols d / 32) + 4 * (t % Nat.max 1 per) + j
/-- Whether a gather delivers block g. -/
def gDelivers (d : List Byte) (g : Nat) : Bool :=
  if gForm d = 2 then
    (let t := g / Nat.max 1 (gCols d / 32) / 4 * (gCols d / 128) + g % Nat.max 1 (gCols d / 32) / 4
     decide (gFirst d ≤ t ∧ t < gFirst d + gCount d))
  else decide (gFirst d ≤ g ∧ g < gFirst d + gCount d)

/-- The destination of a gather as a side of a transfer. -/
def gSide (d : List Byte) : Side :=
  let n := if gForm d = 0 then 1088 else if gForm d = 1 then 2048 else 16384
  ⟨gSpace d, gDst d, 1, gCount d * n, 0⟩

/-- The rejection of a gather record (R192, R147), 0 where it has none. -/
def State.gatherReject (s : State) (c : Nat) (d : List Byte) : Nat :=
  let f := gForm d
  let unit := if f = 2 then 128 else 32
  let total := if f = 2 then gRows d / 128 * (gCols d / 128) else gBlocks d
  if fld d 0 1 / 16 ≠ 0 ∨ fld d 1 1 / 8 ≠ 0 ∨ fld d 16 8 / 2 ^ 39 ≠ 0 ∨ fld d 44 8 ≠ 0 ∨ fld d 52 8 ≠ 0 ∨ fld d 60 4 ≠ 0
      ∨ (if f = 2 then fld d 43 1 ≠ 0 else fld d 40 4 ≠ 0) ∨ highBits (gSpace d) (gDst d) = true then St.CMD_RESERVED_NONZERO
  else if f = 3 ∨ (f = 0 ∧ gSpace d ≠ 0) ∨ (f = 1 ∧ 2 < gSpace d) ∨ (f = 2 ∧ gSpace d ≠ 2) ∨ gRows d = 0 ∨ gCols d = 0
      ∨ gRows d % unit ≠ 0 ∨ gCols d % unit ≠ 0 ∨ gCount d = 0 ∨ total < gFirst d + gCount d then St.DMA_BAD_FIELD
  else if s.sideOk (s.ctx c) (gSide d) true = false ∨ (f = 1 ∧ gSpace d = 2 ∧ gDst d % 2048 ≠ 0)
      ∨ (f = 2 ∧ s.enabled (addrRegion (gDst d)) * 2 ^ 18 < bits (fld d 40 4) 23 0 + gCount d) then St.DMA_BAD_ADDRESS
  else if (s.group c (fld d 2 2)).isNone then St.COLL_BAD_GROUP
  else 0

/-- Write bytes at an offset of a gather's destination. -/
def State.gatherWrite (s : State) (c : Nat) (d : List Byte) (off : Nat) (bytes : List Byte) : State :=
  if gSpace d = 0 then s.routineWrite c (gDst d + off) bytes
  else bytes.zipIdx.foldl (fun s b => s.putLoc b.1 (s.locOf (gSpace d) (gDst d) (off + b.2))) s

/-- The numerical-overflow event of an invalid block (R192, R302); its status is not stated (log entry 5). -/
def State.invalidEvent (s : State) (c : Nat) : State :=
  (s.numericEvent c ((Config.freeWord s.free).toNat % 65536) 3).drawn

/-- The 32 BS8 blocks of a segment. -/
def segBlocks (seg : List Byte) : List Bs8 := (List.range 32).map (segBlock seg)

/-- A segment widened to BF16, an invalid block to zeros (R110, R192). -/
def widenSeg (seg : List Byte) : List Byte :=
  ((segBlocks seg).map fun b => (b.q.map fun q =>
    leBytes 2 (if b.invalid then 0 else bf16.ofVal (widenBs8 q b.e))).flatten).flatten

/-- Replace a gather in progress. -/
def State.setGather (s : State) (t : GatherTask) : State :=
  let gs := s.tasks.gathers.map fun u => if u.ctx = t.ctx ∧ u.pos = t.pos then t else u
  { s with tasks := { s.tasks with gathers := gs } }

/-- Whether a gather has delivered everything. -/
def gatherFull (t : GatherTask) : Bool :=
  if gForm t.bytes = 2 then decide (gCount t.bytes ≤ t.tiles.length)
  else decide (gCount t.bytes ≤ (t.segs.filter fun e => gDelivers t.bytes e.1).length)

/-- Complete a gather that has delivered everything (Table 09-6). -/
def State.gatherSettle (s : State) (t : GatherTask) : State :=
  if gatherFull t then
    let s := { s with tasks := { s.tasks with gathers := s.tasks.gathers.filter fun u => decide (¬ (u.ctx = t.ctx ∧ u.pos = t.pos)) } }
    let s := s.bump 0x2920 0x04 0
    let s := if bit (fld t.bytes 0 1) 2 then s.signal (fld t.bytes 6 2) 1 else s
    s.routineDone t.ctx t.pos
  else s.setGather t

/-- The copy of a segment that is written (R110): INVALID is set in a block with a reserved exponent. -/
def markReserved (seg : List Byte) : List Byte :=
  seg.take 1056 ++ (List.range 32).map fun b =>
    let st := BitVec.ofNat 8 (fld seg (1056 + b) 1)
    if expReserved (sInt 8 (fld seg (1024 + b) 1)) then st ||| 2 else st

/-- The segment of block g has arrived (R192): FORM 0 and 1 write it; FORM 2 keeps it until its tile is complete. -/
def State.gatherSeg (s : State) (t : GatherTask) (g : Nat) (seg : List Byte) : State × GatherTask :=
  let d := t.bytes
  if gDelivers d g = false ∨ (Sparse.find t.segs g).isSome ∨ seg.length ≠ 1088 then (s, t) else
  let t := { t with segs := Sparse.ins g seg t.segs }
  let s := if (segBlocks seg).any (·.invalid) then s.invalidEvent t.ctx else s
  if gForm d = 0 then (s.gatherWrite t.ctx d ((g - gFirst d) * 1088) (markReserved seg), t)
  else if gForm d = 1 then (s.gatherWrite t.ctx d ((g - gFirst d) * 2048) (widenSeg seg), t)
  else (s, t)

/-- The 32 rows of 32 BF16 values of a storage block's bytes (R121, R287). -/
def rowsOf (b : List Byte) : List (List FVal) :=
  (List.range 32).map fun i => (List.range 32).map fun j => bf16.decode (fld b (64 * i + 2 * j) 2)

/-- The numeric flags of a BS8 conversion (R101): a NaN source sets bit 3. -/
def seenFlags (rows : List (List FVal)) : BitVec 4 := if rows.any fun r => r.any (·.isNan) then flagSeen else 0

/-- The segment of a block of a BF16 shard (R109, R191): a free exponent for each row, RND 0. -/
def shardSeg (rows : List (List FVal)) : List Byte :=
  segBytes (rows.map fun r => quantise r none 0 (List.replicate 32 0))

/-- Start a gather record of the plan (R191): the owner's blocks are quantised, sent to every member, and delivered here. -/
def gatherStart (s : State) (c pos : Nat) (e : PlanEntry) : State :=
  let i := s.routineRead c (e.arg % 2 ^ 39) 64
  match i.2 with
  | none => i.1
  | some d =>
    let j := i.1.readGroup c (fld d 2 2)
    let s := j.1
    if j.2 = false ∨ s.gatherReject c d ≠ 0 then s else
    match s.group c (fld d 2 2) with
    | none => s
    | some r =>
      let own := (List.range (gBlocks d)).filter fun g => decide (g % r.g = r.own)
      let t : GatherTask := { ctx := c, pos := pos, bytes := d, segs := [], tiles := [] }
      let s := { s with tasks := { s.tasks with gathers := s.tasks.gathers ++ [t] } }
      let x := own.foldl (fun (x : State × GatherTask) g =>
        let b := x.1.routineRead c (bits (fld d 16 8) 38 0 + g / r.g * 2048) 2048
        match b.2 with
        | none => (b.1, x.2)
        | some bytes =>
          let rows := rowsOf bytes
          let seg := shardSeg rows
          let s := b.1.routineFlags c (seenFlags rows)
          let s := s.toMembers r 0 s.freeQueue (s.ctx c).job seg (c, pos)
          s.drawn.gatherSeg x.2 g seg) (s, t)
      x.1.gatherSettle x.2

/-- GATHER (Table 10-3, R191). -/
def execGather (env : MemEnv) (s : State) : Host.Outcome State Fault Refusal := .next (s.flowRunIn env 0x0D gatherStart)

/-- The gathers of the running context. -/
def State.gathersNow (s : State) : List GatherTask := s.tasks.gathers.filter fun t => decide (s.runningCtx = some t.ctx)

/-- The codes of a tile (R111, R192): E_t the largest exponent of its 512 blocks; an invalid block zeroes the tile. -/
def tileConvert (segs : Nat → Nat → List Byte) : Int × List Byte :=
  let blk := fun i j b => segBlock (segs i j) b
  let all := ((List.range 4).map fun i => ((List.range 4).map fun j => (List.range 32).map (blk i j)).flatten).flatten
  let et := all.foldl (fun (m : Int) b => if m < b.e then b.e else m) (-128)
  if all.any (·.invalid) then (et, List.replicate 16384 0) else
  (et, ((List.range 128).map fun k => ((List.range 4).map fun j =>
    let b := blk (k / 32) j (k % 32)
    b.q.map fun q => BitVec.ofInt 8 (weightCode q b.e et)).flatten).flatten)

/-- GATHER_TILE_CONVERT (R111, R192): a tile whose 16 segments have all arrived. -/
def execGatherTileConvert (k : Nat) (tile : Nat) (s : State) : Host.Outcome State Fault Refusal :=
  match s.gathersNow[k]? with
  | none => .next s
  | some t =>
    let d := t.bytes
    let here := (List.range 16).all fun n => (Sparse.find t.segs (tileBlock d tile (n / 4) (n % 4))).isSome
    if gForm d = 2 ∧ gFirst d ≤ tile ∧ tile < gFirst d + gCount d ∧ t.tiles.contains tile = false ∧ here = true then
      let x := tileConvert fun i j => Sparse.get (fun _ => []) t.segs (tileBlock d tile i j)
      let s := s.gatherWrite t.ctx d ((tile - gFirst d) * 16384) x.2
      let s := s.putRegion (addrRegion (gDst d)) (bits (fld d 40 4) 23 0 + (tile - gFirst d)) (leBytes 1 (uNat 8 x.1))
      .next (s.gatherSettle { t with tiles := tile :: t.tiles })
    else .next s

/-! ### Messages complete (R270, R213) -/

/-- Apply one record of the signal queue (R213), or discard and count it. -/
def State.signalRecord (s : State) (job : Nat) (b : List Byte) : State :=
  let o := fld b 0 2
  let ok := decide (b.length = 16 ∧ fld b 2 6 = 0 ∧ job ≠ 0) &&
    (s.objOwners o).any fun c => decide ((s.ctx c).job = job)
  if ok then s.signal o (BitVec.ofNat 64 (fld b 8 8)) else s.bump 0x2803 0x07 0

/-- A complete message of a reassembly entry (R270): the queue's object is signalled, or its signal records are applied. -/
def State.entryComplete (s : State) (i : Nat) : State :=
  match Sparse.find s.rt.done i with
  | none => s
  | some e =>
    let t := if s.entry i = e then s.setEntry i reasmNone else s
    let t := { t with rt := { t.rt with done := t.rt.done.eraseIdx (t.rt.done.findIdx fun (x : Nat × Reasm) => decide (x.1 = i)) } }
    let t := t.bump 0x2603 0x03 0
    if e.rxq = 0xFFFF then (chunks 16 (e.body.map Prod.snd).flatten).foldl (fun s b => s.signalRecord e.job b) t
    else t.signal (fld (t.rxRec e.rxq) 4 2) 1

/-- MESSAGE_COMPLETE (R270; R185, R186, R192 for the routines' own messages). -/
def execMessageComplete (m : MsgDone) (env : MemEnv) (s : State) : Host.Outcome State Fault Refusal :=
  match m with
  | .entry i => .next (s.entryComplete i)
  | .parcel k sender rows => match s.milksNow[k]? with
    | some t => .next (s.within env fun s => s.parcelIn t sender.toNat rows)
    | none => .next s
  | .dkvSection k bytes => match s.milksNow[k]? with
    | some t => .next (s.within env fun s => s.sectionIn t bytes)
    | none => .next s
  | .segment k g bytes => match s.gathersNow[k]? with
    | some t => .next (s.within env fun s => let x := s.gatherSeg t g bytes; x.1.gatherSettle x.2)
    | none => .next s

/-! ### The cellar (R195-R202) -/

/-- The usable frames of the cellar (R195). -/
def State.cellarFrames (s : State) : List Nat :=
  ((List.range (s.odg 0x2900 0x02)).map fun i => s.odg 0x2900 0x01 / 2097152 + i).filter fun f =>
    !s.hbm.frames.contains (frameOf (f * 2097152))

/-- The cellar at a step boundary (R195, R197): CAP, mark and policy fixed, nothing held, mode FULL. -/
def State.cellarStep (s : State) : Cellar :=
  let fs := s.cellarFrames
  { cellarNone with
    cap := 32 * fs.length, mark := Nat.min (s.odg 0x2900 0x04) (32 * fs.length), policy := s.odg 0x2900 0x05
    spill := s.odg 0x2900 0x07, frames := fs, outMa := s.odg 0x2900 0x08 }

/-- first_fit (R197): the lowest run of n free lines that ends at or below the limit. -/
def Cellar.fit (y : Cellar) (spilled : Bool) (n limit : Nat) : Option Nat :=
  let mine := y.runs.filter fun r => decide (r.2.2.1 = spilled ∧ r.2.2.2.2 ≠ 0)
  let free := fun a => decide (a + n ≤ limit) && mine.all fun r => decide (a + n ≤ r.2.2.2.1 ∨ r.2.2.2.1 + r.2.2.2.2 ≤ a)
  if n = 0 then some 0
  else (0 :: mine.map fun r => r.2.2.2.1 + r.2.2.2.2).foldl (fun (best : Option Nat) a =>
    if free a then (match best with
      | some b => if a < b then some a else best
      | none => some a) else best) none

/-- The outcome of a stash record (R197): outcome and first line, with the mode it leaves; none where it fits nowhere. -/
def Cellar.place (y : Cellar) (full ckpt : Nat) : Option (Nat × Nat) × Nat :=
  match (if y.mode = 0 then y.fit false full y.mark else none) with
  | some r => (some (0, r), 0)
  | none =>
    let mode := if y.mode = 0 then (if y.policy = 1 then 1 else 2) else y.mode
    match (if mode = 1 then y.fit true full y.spill else none) with
    | some r => (some (2, r), 1)
    | none =>
      match y.fit false ckpt y.cap with
      | some r => (some (1, r), 2)
      | none => match (if y.policy = 1 then y.fit true ckpt y.spill else none) with
        | some r => (some (3, r), 2)
        | none => (none, 2)

/-- The lines held, local or spilled. -/
def Cellar.lines (y : Cellar) (spilled : Bool) : Nat :=
  ((y.runs.filter fun r => decide (r.2.2.1 = spilled)).map fun r => r.2.2.2.2).foldl (· + ·) 0

/-- Take a run and note what R201 reports. -/
def Cellar.take (y : Cellar) (layer micro full ckpt out first mode : Nat) (expect : Bool) : Cellar :=
  let spilled := decide (2 ≤ out)
  let n := if out % 2 = 0 then full else ckpt
  let y := { y with runs := y.runs ++ [(layer, micro, spilled, first, n)], mode := mode, reached := y.reached || decide (mode ≠ 0)
                    mismatch := y.mismatch + b2n (expect != decide (out % 2 = 1))
                    reduced := if out = 0 then y.reduced else match y.reduced with
                      | some l => some (Nat.min l layer)
                      | none => some layer }
  { y with peak := Nat.max y.peak (y.lines false), peakSpill := Nat.max y.peakSpill (y.lines true) }

/-- The STASH entry (R197, R200): its record in the next position is evaluated; the outcome word is written, or the step is
abandoned with CELLAR_EXHAUSTED. -/
def stashStart (s : State) (c pos : Nat) (_ : PlanEntry) : State :=
  let x := s.ctx c
  match x.plan[pos + 1]? with
  | none => s
  | some r =>
    let lo := r.lo.toNat
    let layer := bits lo 15 0
    let micro := bits lo 31 16
    let y := x.cellar
    let j := x.stashJ
    if bit lo 32 then
      (s.setCtx c { x with stashJ := j + 1, cellar := { y with
        runs := y.runs.filter fun u => decide (¬ (u.1 = layer ∧ u.2.1 = micro)) } }).entryDone c pos
    else
      let full := bits r.hi.toNat 31 0
      let ckpt := bits r.hi.toNat 63 32
      match y.place full ckpt with
      | (some (out, first), mode) =>
        let z := y.take layer micro full ckpt out first mode (bit lo 33)
        let s := if z.mismatch ≠ y.mismatch then s.bump 0x2901 0x05 0 else s
        let s := s.setCtx c { x with stashJ := j + 1, cellar := z }
        let w := s.writeRun (y.outMa + 8 * j) (leBytes 8 (out + first * 4))
        (if w.2 = 0 then w.1.setCtx c { w.1.ctx c with outcomes := (y.outMa + 8 * j) :: (w.1.ctx c).outcomes }
          else w.1.storageEvent (some c) w.2 (y.outMa + 8 * j)).entryDone c pos
      | (none, mode) =>
        ((s.bump 0x2901 0x06 0).bump 0x2702 0x0A 0).setCtx c { x with
          stashJ := j + 1, exhausted := true, restoring := !x.undo.isEmpty
          cellar := { y with mode := mode, reached := true } }

/-- STASH (Table 10-3, R197). -/
def execStash (env : MemEnv) (s : State) : Host.Outcome State Fault Refusal := .next (s.flowRunIn env 0x10 stashStart)

/-- The SKIPIF entry (Table 10-3): it waits until its outcome word has been written in this step; when the outcome's bit of the mask is
1 the next count entries are skipped. -/
def skipifStart (s : State) (c pos : Nat) (e : PlanEntry) : State :=
  if (s.ctx c).outcomes.contains (e.arg % 2 ^ 39) then
    let r := s.routineRead c (e.arg % 2 ^ 39) 8
    match r.2 with
    | none => r.1
    | some b =>
      let x := r.1.ctx c
      (r.1.setCtx c { x with skipLeft := if bit (bits e.arg 43 40) (leNat b % 4) then bits e.arg 55 48 else 0 }).entryDone c pos
  else s

/-- SKIPIF (Table 10-3, R198). -/
def execSkipif (env : MemEnv) (s : State) : Host.Outcome State Fault Refusal := .next (s.flowRunIn env 0x11 skipifStart)

end Sys2Proof.Machine
end

