-- ==== Sys2Proof/Machine/Collect.lean ====
section
/-! DEFINITION. Collectives (chapter 13, R283-R297): the COLL entry, the reduction hop, saturation and re-runs, norms. -/

namespace Sys2Proof.Machine

/-! ### Records -/

/-- TC of a collective record (Table 13-2). -/
def cTc (d : List Byte) : Nat := bits (fld d 0 1) 3 2
/-- GROWTH of a collective record. -/
def cGrowth (d : List Byte) : Nat := bits (fld d 0 1) 6 4
/-- GROUP of a collective record. -/
def cGroup (d : List Byte) : Nat := fld d 2 2
/-- RXQ of a collective record. -/
def cRxq (d : List Byte) : Nat := fld d 4 2
/-- REGIONS of a collective record. -/
def cRegions (d : List Byte) : Nat := fld d 32 8

/-- TID of a bucket entry (Table 13-3). -/
def bTid (e : List Byte) : Nat := fld e 0 4
/-- FIRST of a bucket entry. -/
def bFirst (e : List Byte) : Nat := fld e 4 4
/-- BLOCKS of a bucket entry. -/
def bBlocks (e : List Byte) : Nat := fld e 8 4
/-- EB of a bucket entry. -/
def bEb (e : List Byte) : Int := sInt 8 (fld e 12 1)
/-- SRC of a bucket entry. -/
def bSrc (e : List Byte) : Nat := bits (fld e 16 8) 38 0
/-- The storage blocks of a bucket, ascending. -/
def bList (e : List Byte) : List Nat := (List.range (bBlocks e)).map fun i => bFirst e + i

/-- ceil(log2 n), 0 for n ≤ 1 (R288). -/
def ceilLog2 (n : Nat) : Nat := if n ≤ 1 then 0 else Nat.log2 (n - 1) + 1

/-- The members' contributions in a partial sum of stage s (chapter 13). -/
def stageCount (p s : Nat) : Nat := if s ≤ Nat.log2 p then 2 ^ s else (s - Nat.log2 p + 1) * p

/-- The last stage. -/
def lastStage (g p : Nat) : Nat := Nat.log2 p + g / p - 1

/-- What R288 adds to EB + 2a at a stage. -/
def growthAt (growth p s : Nat) : Int := ((growth * ceilLog2 (stageCount p s) / 4 : Nat) : Int)

/-- E(s, a) of a bucket (R288). -/
def expAt (d e : List Byte) (p s a : Nat) : Int := bEb e + 2 * (a : Int) + growthAt (cGrowth d) p s

/-- The bucket entries of a record's table. -/
def State.bucketTable (s : State) (d : List Byte) : List (List Byte) :=
  (List.range (cBuckets d)).map fun i => s.memBytes (cTable d + 48 * i) 48

/-- Whether a REGIONS mask is zero or names a region with no enabled core (R286). -/
def State.regionsBad (s : State) (m : Nat) : Bool :=
  decide (m = 0) || (List.range 64).any fun r => bit m r && decide (s.enabled r = 0)

/-- Whether the receive queue of a record breaks R286. -/
def State.rxqBad (s : State) (x : Ctx) (d : List Byte) (bmax : Nat) : Bool :=
  let r := s.rxRec (cRxq d)
  decide (cRxq d = 0xFFFF) || !bit (fld r 0 1) 0 || decide (bits (fld r 0 1) 3 1 ≠ 0 ∨ fld r 2 2 ≠ x.job
    ∨ fld r 16 8 < 2 * ((bmax + 31) / 32) * 1088 * 32)

/-- The rejection of a collective record (R286), 0 where it has none. -/
def State.collReject (s : State) (c : Nat) (d : List Byte) : Nat :=
  let tableBad := decide (cBuckets d = 0 ∨ 65536 < cBuckets d ∨ cTable d % 16 ≠ 0 ∨ 2 ^ 39 < cTable d + 48 * cBuckets d)
  let es := if tableBad then [] else s.bucketTable d
  if bit (fld d 0 1) 7 = true ∨ fld d 1 1 ≠ 0 ∨ fld d 16 8 / 2 ^ 39 ≠ 0 ∨ fld d 24 8 / 2 ^ 39 ≠ 0 ∨ fld d 56 8 ≠ 0
      ∨ es.any (fun e => decide (fld e 15 1 ≠ 0 ∨ fld e 16 8 / 2 ^ 39 ≠ 0 ∨ fld e 24 8 / 2 ^ 39 ≠ 0 ∨ fld e 40 8 ≠ 0)) = true then
    St.CMD_RESERVED_NONZERO
  else if tableBad = true ∨ 4 < cGrowth d ∨ cNormOut d % 8 ≠ 0 ∨ s.regionsBad (cRegions d) = true
      ∨ es.any (fun e => decide (bBlocks e = 0 ∨ 65536 < bBlocks e ∨ 2 ^ 18 < bFirst e + bBlocks e ∨ bSrc e % 2048 ≠ 0
        ∨ fld e 24 8 % 2048 ≠ 0 ∨ 2 ^ 39 < bSrc e + 2048 * (bFirst e + bBlocks e))) = true
      ∨ s.rxqBad (s.ctx c) d (es.foldl (fun m e => Nat.max m (bBlocks e)) 0) = true then St.CMD_BAD_FIELD
  else match s.group c (cGroup d) with
    | none => St.COLL_BAD_GROUP
    | some r => if es.any fun e => decide (121 < expAt d e r.p (lastStage r.g r.p) 0) then St.CMD_BAD_FIELD else 0

/-! ### Draws, quantisation and hops (R289-R291) -/

/-- The word drawn for element i of BS8 block b of storage block g at a stage (R291). -/
def collDraw (x : Ctx) (tid a stage g b i : Nat) : Nat :=
  drawU x.seed x.step (tid + 2 * a + stage / 16384) (if stage = 0 then 3 else 4)
    (stage % 16384 * 2 ^ 28 + 1024 * g + 32 * b + i)

/-- The words drawn for a BS8 block. -/
def collDraws (x : Ctx) (tid a stage g b : Nat) : List Nat := (List.range 32).map (collDraw x tid a stage g b)

/-- Read the storage blocks at a list of MAs; one that memory does not deliver is a storage event and is left out. -/
def State.readBlocks (s : State) (c : Nat) (as : List Nat) : State × List (List Byte) :=
  as.foldl (fun (acc : State × List (List Byte)) a =>
    let r := acc.1.routineRead c a 2048
    (r.1, acc.2 ++ r.2.toList)) (s, [])

/-- The least exponent e at which every value of a list has magnitude at most 127 × 2^e; 1000 where one is not finite. -/
def needExp (vs : List FVal) : Int :=
  if vs.any fun v => !v.isFin then 1000
  else if vs.all (fun v => v.eq (.fin false 0 0)) then -300 else freeExp vs 320 (-170)

/-- The larger of a need and one not yet known. -/
def needMax (a : Option Int) (b : Int) : Option Int :=
  match a with
  | some x => some (if x < b then b else x)
  | none => some b

/-- A hop on one BS8 block (R290), with its exact sums. -/
def hopBlock (A B : Bs8) (eOut : Int) (us : List Nat) : Bs8 × List FVal :=
  if A.invalid || B.invalid then (⟨List.replicate 32 0, -128, A.sat || B.sat, true⟩, [])
  else
    let el := if A.e < B.e then A.e else B.e
    let sums := (A.q.zip B.q).map fun x => x.1 * ((2 ^ (A.e - el).toNat : Nat) : Int) + x.2 * ((2 ^ (B.e - el).toNat : Nat) : Int)
    (requantise sums el eOut 2 us (A.sat || B.sat) false, sums.map fun i => .fin (decide (i < 0)) i.natAbs el)

/-- What becomes of a held block: it stays for a hop, goes to a member, or is final (R289). -/
inductive BlkNext where
  | stay
  | send (m : Nat)
  | final
  deriving DecidableEq, Repr

/-- The next move of block g at a stage; `hopped` says that it has just made its ring hop (R289). -/
def CollTask.nextOf (t : CollTask) (g stage : Nat) (hopped : Bool) : BlkNext :=
  let T := t.g / t.p
  let j := t.own % t.p
  let tt := t.own / t.p
  let delta := (tt + T - g % t.g / t.p) % T
  if stage < Nat.log2 t.p then
    (if bit (g % t.g % t.p) stage = bit j stage then .stay else .send (t.own ^^^ 2 ^ stage))
  else if T ≤ 1 then .final
  else if delta = 0 then (if hopped then .final else .stay)
  else if delta = 1 ∨ hopped = true then .send ((tt + 1) % T * t.p + j)
  else .stay

/-- The ring hop at which a block is received (R289). -/
def CollTask.ringHop (t : CollTask) (g : Nat) : Nat :=
  let T := t.g / t.p
  let delta := (t.own / t.p + T - g % t.g / t.p) % T
  if delta = 0 then T - 1 else delta - 1

/-- Replace a bucket of a collective. -/
def CollTask.setBucket (t : CollTask) (i : Nat) (b : BucketSt) : CollTask := { t with buckets := t.buckets.set i b }

/-- Replace a collective in progress. -/
def State.setColl (s : State) (t : CollTask) : State :=
  let cs := s.tasks.colls.map fun u => if u.ctx = t.ctx ∧ u.pos = t.pos then t else u
  { s with tasks := { s.tasks with colls := cs } }

/-- A block of a bucket moves on (R289): held, handed to the list of messages, or written to the shard. -/
def State.moveBlock (acc : State × CollTask × List (Nat × List Byte)) (i g stage : Nat) (seg : List Byte) (hopped : Bool) :
    State × CollTask × List (Nat × List Byte) :=
  let t := acc.2.1
  match t.buckets[i]? with
  | none => acc
  | some b =>
    match t.nextOf g stage hopped with
    | .stay => (acc.1, t.setBucket i { b with blocks := (Sparse.ins g { seg := seg, stage := stage } b.blocks : Sparse BlkSt) }, acc.2.2)
    | .send m => (acc.1, t.setBucket i { b with blocks := Sparse.del b.blocks g }, acc.2.2 ++ [(m, seg)])
    | .final =>
      let bs := segBlocks seg
      (acc.1.routineWrite t.ctx (shardAt b.entry t.g g) (widenSeg seg),
        t.setBucket i { b with blocks := Sparse.del b.blocks g, sat := b.sat || bs.any (fun z => z.sat && !z.invalid)
                               bad := b.bad || bs.any (·.invalid) }, acc.2.2)

/-- Send the segments that a move named, one message to each member, in order (R287). -/
def State.sendMoves (s : State) (t : CollTask) (ms : List (Nat × List Byte)) : State :=
  ((ms.map Prod.fst).eraseDups).foldl (fun s m =>
    s.sendRoutine (t.members.getD m 0) (cTc t.bytes) (cRxq t.bytes) (s.ctx t.ctx).job
      ((ms.filter fun x => decide (x.1 = m)).map Prod.snd).flatten (t.ctx, t.pos)) s

/-- Stage 0 of one block (R289): a block that cannot be read is a storage event and never arrives. -/
def State.stageZero (acc : State × CollTask × List (Nat × List Byte)) (i g : Nat) : State × CollTask × List (Nat × List Byte) :=
  let s := acc.1
  let t := acc.2.1
  match t.buckets[i]? with
  | none => acc
  | some b =>
    let r := s.routineRead t.ctx (bSrc b.entry + 2048 * g) 2048
    match r.2 with
    | none => (r.1, t.setBucket i { b with blocks := (Sparse.ins g { seg := [], stage := 0 } b.blocks : Sparse BlkSt) }, acc.2.2)
    | some bytes =>
      let rows := rowsOf bytes
      let s := r.1.routineFlags t.ctx (seenFlags rows)
      let x := s.ctx t.ctx
      let e := expAt t.bytes b.entry t.p 0 t.attempt
      let bs := rows.zipIdx.map fun r => quantise r.1 (some e) 2 (collDraws x (bTid b.entry) t.attempt 0 g r.2)
      let t := t.setBucket i { b with need := needMax b.need (needExp rows.flatten) }
      State.moveBlock (s, t, acc.2.2) i g 0 (segBytes bs) false

/-- Start an attempt for the buckets listed (R289, R293). -/
def State.attempt (s : State) (t : CollTask) (bs : List Nat) : State × CollTask :=
  let fresh := t.buckets.zipIdx.map fun (b : BucketSt × Nat) =>
    if bs.contains b.2 then { b.1 with blocks := [], sat := false, bad := false, need := none } else b.1
  let t := { t with phase := 0, active := bs, buckets := fresh }
  let r := bs.foldl (fun acc i => match t.buckets[i]? with
    | some b => (bList b.entry).foldl (fun acc g => State.stageZero acc i g) acc
    | none => acc) (s, t, [])
  (r.1.sendMoves r.2.1 r.2.2, r.2.1)

/-! ### Agreement (R293) -/

/-- A bitmap of the buckets as bytes, bit b in bit b mod 8 of byte b div 8. -/
def bitmapBytes (n : Nat) (p : Nat → Bool) : List Byte :=
  (List.range ((n + 7) / 8)).map fun k => BitVec.ofNat 8 (sumBelow (fun j => if p (8 * k + j) ∧ 8 * k + j < n then 2 ^ j else 0) 8)

/-- The member's bitmaps SATMAP and BADMAP as one message. -/
def CollTask.maps (t : CollTask) : List Byte :=
  let n := t.buckets.length
  bitmapBytes n (fun i => (t.buckets[i]?.map (·.sat)).getD false) ++ bitmapBytes n (fun i => (t.buckets[i]?.map (·.bad)).getD false)

/-- Send a message of an exchange: level l < log2 P to the partner of that level, then to the member at the same position of
every other tray (R293, R296). -/
def State.exchange (s : State) (t : CollTask) (bytes : List Byte) : State :=
  let r := Nat.log2 t.p
  let job := (s.ctx t.ctx).job
  let one := fun (s : State) (m : Nat) =>
    s.sendRoutine (t.members.getD m 0) (cTc t.bytes) (cRxq t.bytes) job bytes (t.ctx, t.pos)
  if t.level < r then one s (t.own ^^^ 2 ^ t.level)
  else if t.level = r then
    (List.range (t.g / t.p)).foldl (fun s u => if u = t.own / t.p then s else one s (u * t.p + t.own % t.p)) s
  else s

/-- LSQ or OSQ: the squares of each block by the pairwise tree of 10 levels, the block sums added in order (R295). -/
def sumSquares (blocks : List (List (List FVal))) : Word :=
  let up : List Word → List Word := pairUp
  blocks.foldl (fun acc rows =>
    let sq := rows.flatten.map fun v => let w := BitVec.ofNat 32 (fp32.ofVal v); mul32 w w
    let r := up (up (up (up (up (up (up (up (up (up sq)))))))))
    add32 acc (r.headD 0)) 0
where
  /-- One level of the pairwise tree. -/
  pairUp : List Word → List Word
    | a :: b :: t => add32 a b :: pairUp t
    | l => l

/-- The advised exponent's byte (R294): a free value where a local value was not finite. -/
def needByte (draws : Nat) (need : Option Int) : Byte :=
  match need with
  | none => BitVec.ofInt 8 (-128)
  | some n => if 500 < n then Config.undefByte draws 0 else BitVec.ofInt 8 (clampInt (-128) 121 n)

/-- Close a bucket after its last attempt (R293-R295): EB, NEED, flags and norms in its entry. -/
def State.closeBucket (s : State) (t : CollTask) (b : BucketSt) (failed : Bool) : State × BucketSt :=
  let e := b.entry
  let local_ := s.readBlocks t.ctx ((bList e).map fun g => bSrc e + 2048 * g)
  let owned := local_.1.readBlocks t.ctx ((ownedBlocks e t.g t.own).map (shardAt e t.g))
  let eb := if failed then
      (let lim := 121 - growthAt (cGrowth t.bytes) t.p (lastStage t.g t.p)
       if bEb e + 6 < lim then bEb e + 6 else lim)
    else bEb e
  let flags := b2n (decide (1 ≤ b.reran)) + 2 * b2n (decide (2 ≤ b.reran)) + 4 * b2n failed + 8 * b2n b.bad
  let e := putBytes e 12 [BitVec.ofInt 8 eb, needByte s.free b.need, BitVec.ofNat 8 flags]
  let e := if cNorms t.bytes then
      putBytes e 32 (leBytes 4 (sumSquares (local_.2.map rowsOf)).toNat ++ leBytes 4 (sumSquares (owned.2.map rowsOf)).toNat)
    else e
  let s := if cNorms t.bytes then owned.1 else s
  let s := if failed then s.numericEvent t.ctx St.COLL_OVERFLOW 4 else s
  let s := if b.bad then s.numericEvent t.ctx St.COLL_INVALID 3 else s
  (s.drawn, { b with entry := e, failed := failed })

/-- The status that a collective completes with (R292). -/
def CollTask.status (t : CollTask) : Nat :=
  if t.buckets.any (·.bad) then St.COLL_INVALID
  else if t.buckets.any (·.failed) then St.COLL_OVERFLOW
  else St.COLL_DONE

/-- The member's own totals L_m and O_m (R296). -/
def CollTask.totals (t : CollTask) : Nat × Nat :=
  t.buckets.foldl (fun (a : Nat × Nat) b =>
    (f64.addV (f64.decode a.1) (fp32.decode (fld b.entry 32 4)), f64.addV (f64.decode a.2) (fp32.decode (fld b.entry 36 4)))) (0, 0)

/-- A pair of totals as a message. -/
def pairBytes (p : Nat × Nat) : List Byte := leBytes 8 p.1 ++ leBytes 8 p.2

/-- Complete a collective with its norms written (R295-R297). -/
def State.collDone (s : State) (t : CollTask) : State :=
  let s := if cNorms t.bytes then
      (let s := if cNormOut t.bytes ≠ 0 then s.routineWrite t.ctx (cNormOut t.bytes) (pairBytes t.pair) else s
       let x := s.ctx t.ctx
       s.setCtx t.ctx { x with norms := Sparse.ins t.pos (t.pair.1, t.pair.2, t.g, cExamples t.bytes) x.norms })
    else s
  s.collFinish t t.status

/-- Begin the exchange of norms, or complete (R296). -/
def State.collNorms (s : State) (t : CollTask) : State :=
  if cNorms t.bytes then
    (let t := { t with phase := 2, level := 0, pair := t.totals }
     if t.g ≤ 1 then s.collDone t
     else (s.setColl t).exchange { t with level := 0 } (pairBytes t.pair))
  else s.collDone t

/-- The next step of a collective whose blocks have all gone (R293): agreement, then re-runs, or the end. -/
def State.collAgreed (s : State) (t : CollTask) : Nat → State
  | 0 => s.setColl t
  | n + 1 =>
    let a := t.attempt
    let tooHigh := fun (b : BucketSt) => decide (121 < expAt t.bytes b.entry t.p (lastStage t.g t.p) (a + 1))
    let again := t.active.filter fun i => match t.buckets[i]? with
      | some b => b.sat && !b.bad && decide (a < 2) && !tooHigh b
      | none => false
    let r := (t.active.filter fun i => !again.contains i).foldl (fun (acc : State × CollTask) i =>
      match acc.2.buckets[i]? with
      | some b => let x := acc.1.closeBucket acc.2 b (b.sat && (decide (2 ≤ a) || (!b.bad && tooHigh b)))
        (x.1, acc.2.setBucket i x.2)
      | none => acc) (s, t)
    if again.isEmpty then r.1.collNorms r.2
    else
      let rerun := r.2.buckets.zipIdx.map fun (b : BucketSt × Nat) =>
        if again.contains b.2 then { b.1 with reran := b.1.reran + 1 } else b.1
      let t := { r.2 with attempt := a + 1, buckets := rerun }
      let z := r.1.attempt t again
      if z.2.buckets.all (fun b => b.blocks.isEmpty) then
        (if z.2.g ≤ 1 then z.1.collAgreed z.2 n
         else (z.1.setColl { z.2 with phase := 1, level := 0 }).exchange { z.2 with phase := 1, level := 0 } z.2.maps)
      else z.1.setColl z.2

/-- Note that no block is held any more: the agreement begins (R293). -/
def State.collSettle (s : State) (t : CollTask) : State :=
  if t.phase = 0 ∧ t.buckets.all (fun b => b.blocks.isEmpty) = true then
    (if t.g ≤ 1 then s.collAgreed t 3
     else (s.setColl { t with phase := 1, level := 0 }).exchange { t with phase := 1, level := 0 } t.maps)
  else s.setColl t

/-! ### The commands -/

/-- A rejected record (R286): its STATUS, its signal, the plan entry completes. -/
def State.collRejected (s : State) (c pos ma : Nat) (d : List Byte) (st : Nat) : State :=
  let s := (s.routineWrite c (ma + 42) (leBytes 2 st)).bump 0x2702 0x01 0
  let s := if cSignal d then s.signal (cSync d) 1 else s
  s.routineDone c pos

/-- Start a collective (R285, R289). -/
def collStart (s : State) (c pos : Nat) (e : PlanEntry) : State :=
  let ma := e.arg % 2 ^ 39
  let i := s.routineRead c ma 64
  match i.2 with
  | none => i.1
  | some d =>
    let j := i.1.routineRead c (cTable d) (48 * (cBuckets d % 65537))
    let k := j.1.readGroup c (cGroup d)
    match j.2, k.2 with
    | none, _ => j.1
    | _, false => k.1
    | some _, true =>
      let s := k.1
      let st := s.collReject c d
      if st ≠ 0 then s.collRejected c pos ma d st else
      match s.group c (cGroup d) with
      | none => s
      | some r =>
        let bs := (s.bucketTable d).map fun e =>
          ({ entry := e, attempt := 0, blocks := [], sat := false, bad := false, need := none, reran := 0, failed := false } : BucketSt)
        let t : CollTask := { ctx := c, pos := pos, ma := ma, bytes := d, g := r.g, p := r.p, own := r.own, members := r.members
                              phase := 0, attempt := 0, active := List.range bs.length, buckets := bs, pair := (0, 0), level := 0, worst := 0 }
        let s := { s with tasks := { s.tasks with colls := s.tasks.colls ++ [t] } }
        let z := s.attempt t (List.range bs.length)
        z.1.collSettle z.2

/-- COLL (Table 10-3, R285-R289): it waits while another routine occupies a region of its record. -/
def execColl (env : MemEnv) (s : State) : Host.Outcome State Fault Refusal :=
  .next (if s.flowHeld 0x0E 32 then s else s.flowRunIn env 0x0E collStart)

/-- The collectives of the running context. -/
def State.collsNow (s : State) : List CollTask := s.tasks.colls.filter fun t => decide (s.runningCtx = some t.ctx)

/-- Whether an incoming block is accepted (R292). -/
def blockOk (seg : List Byte) (e : Int) (b : Nat) : Bool :=
  let ex := sInt 8 (fld seg (1024 + b) 1)
  let st := fld seg (1056 + b) 1
  (decide (ex = e) && decide (st / 4 = 0)) || (decide (ex = -128) && bit st 1)

/-- A partner's segment arrives (R289, R290, R292). -/
def State.hopIn (s : State) (t : CollTask) (i g : Nat) (seg : List Byte) : State :=
  match t.buckets[i]? with
  | none => s
  | some b =>
    match Sparse.find b.blocks g with
    | none => s
    | some k =>
      if t.phase ≠ 0 ∨ t.active.contains i = false ∨ seg.length ≠ 1088 ∨ k.seg.isEmpty = true then s else
      let r := Nat.log2 t.p
      let ring := decide (r ≤ k.stage)
      let from_ := if ring then r + t.ringHop g - 1 else k.stage
      let stage := from_ + 1
      let eIn := expAt t.bytes b.entry t.p from_ t.attempt
      if (List.range 32).all (blockOk seg eIn) = false then
        ((s.bump 0x2702 0x05 0).lostEvent t.ctx St.COLL_EXP_MISMATCH).collStop t St.COLL_EXP_MISMATCH
      else
        let x := s.ctx t.ctx
        let eOut := expAt t.bytes b.entry t.p stage t.attempt
        let hs := (List.range 32).map fun n =>
          hopBlock (segBlock k.seg n) (segBlock seg n) eOut (collDraws x (bTid b.entry) t.attempt stage g n)
        let sums := (hs.map Prod.snd).flatten
        let need := if sums.isEmpty then b.need
          else needMax b.need (needExp sums - growthAt (cGrowth t.bytes) t.p stage)
        let t := t.setBucket i { b with need := need }
        let z := State.moveBlock (s, t, []) i g stage (segBytes (hs.map Prod.fst)) ring
        (z.1.sendMoves z.2.1 z.2.2).collSettle z.2.1

/-- A partner's bitmaps arrive (R293). -/
def State.agreeIn (s : State) (t : CollTask) (sats bads : List Nat) : State :=
  if t.phase ≠ 1 then s else
  let ored := t.buckets.zipIdx.map fun (b : BucketSt × Nat) =>
    if t.active.contains b.2 then { b.1 with sat := b.1.sat || sats.contains b.2, bad := b.1.bad || bads.contains b.2 } else b.1
  let t := { t with level := t.level + 1, buckets := ored }
  if Nat.log2 t.p + (t.g / t.p - 1) ≤ t.level then s.collAgreed t 1
  else (s.setColl t).exchange t t.maps

/-- The pair of an in-tray partner arrives (R296). -/
def State.pairIn (s : State) (t : CollTask) (p : Nat × Nat) : State :=
  if t.phase ≠ 2 ∨ Nat.log2 t.p ≤ t.level then s else
  let t := { t with level := t.level + 1, pair := (f64.addV (f64.decode t.pair.1) (f64.decode p.1)
                                                   , f64.addV (f64.decode t.pair.2) (f64.decode p.2)) }
  if Nat.log2 t.p ≤ t.level ∧ t.g / t.p ≤ 1 then s.collDone t
  else (s.setColl t).exchange t (pairBytes t.pair)

/-- The pairs of every tray have arrived (R296): added in ascending tray order, the own tray's in its place. -/
def State.totalsIn (s : State) (t : CollTask) (ps : List (Nat × Nat)) : State :=
  let T := t.g / t.p
  if t.phase ≠ 2 ∨ t.level < Nat.log2 t.p ∨ T ≤ 1 ∨ ps.length ≠ T then s else
  let all := ps.set (t.own / t.p) t.pair
  let sum := fun (f : Nat × Nat → Nat) => (all.drop 1).foldl (fun a p => f64.addV (f64.decode a) (f64.decode (f p))) (f (all.headD (0, 0)))
  s.collDone { t with pair := (sum Prod.fst, sum Prod.snd) }

/-- REDUCTION_HOP (R289-R296): what the k-th collective of the running context receives. -/
def execReductionHop (k : Nat) (i : HopInput) (env : MemEnv) (s : State) : Host.Outcome State Fault Refusal :=
  match s.collsNow[k]? with
  | none => .next s
  | some t => .next (s.within env fun s => match i with
    | .segment bucket block bytes => s.hopIn t bucket block bytes
    | .agreement sats bads => s.agreeIn t sats bads
    | .trayPair l o => s.pairIn t (l.toNat, o.toNat)
    | .trayTotals ps => s.totalsIn t (ps.map fun p => (p.1.toNat, p.2.toNat)))

/-! ### The gradient statistics of a step (R297) -/

/-- F64 division, rounded to nearest even. -/
def Fmt.divV (f : Fmt) : FVal → FVal → Nat
  | .nan, _ => f.nan
  | _, .nan => f.nan
  | .inf _, .inf _ => f.nan
  | .inf a, .fin b _ _ => f.signed (a != b) (f.top + 1)
  | .fin a _ _, .inf b => f.signed (a != b) 0
  | .fin a m x, .fin b n y =>
    if n = 0 then (if m = 0 then f.nan else f.signed (a != b) (f.top + 1))
    else let q := scaleBy m n (y - x); f.ofQ (a != b) q.1 q.2

/-- Bytes 64-127 of the step report (Table 13-5). -/
def normReport (x : Ctx) : List Byte :=
  let add := fun a b => f64.addV (f64.decode a) (f64.decode b)
  let sub := fun a b => f64.addV (f64.decode a) (f64.decode b).neg
  let mul := fun a b => f64.ofVal ((f64.decode a).mul (f64.decode b))
  let div := fun a b => f64.divV (f64.decode a) (f64.decode b)
  let num := fun (n : Nat) => f64.ofDy (n : Int) 0 false
  let norms := x.norms.map Prod.snd
  let sumL := norms.foldl (fun a n => add a n.1) 0
  let sumO := norms.foldl (fun a n => add a n.2.1) 0
  let g := (norms.head?.map fun n => n.2.2.1).getD 0
  let ex := (norms.head?.map fun n => n.2.2.2).getD 0
  let lm := div sumL (num g)
  let om := div sumO (mul (num g) (num g))
  let tsq := div (sub (mul (num g) om) lm) (num (g - 1))
  let nse := div (mul (mul (f64.ofVal (fp32.decode ex)) (sub lm om)) (num g)) (num (g - 1))
  let bn := div nse tsq
  let valid := decide (2 ≤ g) && (FVal.fin false 0 0).lt (f64.decode tsq) && norms.all fun n => decide (n.2.2.1 = g ∧ n.2.2.2 = ex)
  let v := fun a => if valid then a else 0
  leBytes 8 sumL ++ leBytes 8 sumO ++ leBytes 8 (v tsq) ++ leBytes 8 (v nse) ++ leBytes 8 (v bn) ++ leBytes 4 x.reruns
    ++ leBytes 4 x.fails ++ leBytes 4 x.invalids ++ leBytes 4 g ++ leBytes 4 ex ++ leBytes 1 (b2n valid) ++ leBytes 3 0

end Sys2Proof.Machine
end

