-- ==== Sys2Proof/Machine/Optimiser.lean ====
section
/-! DEFINITION. The optimiser (chapter 13, R298-R301, R304) and wait work (R194). -/

namespace Sys2Proof.Machine

/-- ALGO (Table 13-6). -/
def oAlgo (d : List Byte) : Nat := bits (fld d 0 1) 1 0
/-- STATE_FMT: true for BF16 moments. -/
def oBf (d : List Byte) : Bool := bit (fld d 0 1) 2
/-- WHEY_EN. -/
def oWhey (d : List Byte) : Bool := bit (fld d 0 1) 3
/-- SIGNAL. -/
def oSignal (d : List Byte) : Bool := bit (fld d 0 1) 4
/-- TIES_M1. -/
def oTies (d : List Byte) : Nat := bits (fld d 0 1) 6 5
/-- SIGNAL_SYNC. -/
def oSync (d : List Byte) : Nat := fld d 2 2
/-- BLOCKS. -/
def oBlocks (d : List Byte) : Nat := fld d 4 4
/-- PARAM. -/
def oParam (d : List Byte) : Nat := bits (fld d 8 8) 38 0
/-- WHEY. -/
def oWheyMa (d : List Byte) : Nat := bits (fld d 16 8) 38 0
/-- STATE. -/
def oState (d : List Byte) : Nat := bits (fld d 24 8) 38 0
/-- GRADt. -/
def oGrad (d : List Byte) (t : Nat) : Nat := bits (fld d (32 + 8 * t) 8) 38 0
/-- An F32 field. -/
def oF32 (d : List Byte) (o : Nat) : Word := BitVec.ofNat 32 (fld d o 4)
/-- SCALE_MA. -/
def oScaleMa (d : List Byte) : Nat := bits (fld d 96 8) 38 0
/-- UNDO. -/
def oUndo (d : List Byte) : Nat := bits (fld d 104 8) 38 0
/-- TID. -/
def oTid (d : List Byte) : Nat := fld d 120 4
/-- F: the bytes of one block of moments (R298). -/
def oF (d : List Byte) : Nat := if oBf d then 2048 else 4096
/-- M: the moments (R300). -/
def oM (d : List Byte) : Nat := if oAlgo d = 0 then 1 else 2
/-- U: the bytes of one block's undo copy (R300). -/
def oU (d : List Byte) : Nat := 2048 * (1 + b2n (oWhey d)) + oM d * oF d

/-- The places of block k that the optimiser writes, in the order of its undo copy (R298, R300). -/
def oPlaces (d : List Byte) (k : Nat) : List (Nat × Nat) :=
  [(oParam d + 2048 * k, 2048)] ++ (if oWhey d then [(oWheyMa d + 2048 * k, 2048)] else []) ++
    (List.range (oM d)).map fun m => (oState d + oF d * (m * oBlocks d + k), oF d)

/-- The rejection of an optimiser record (R298), 0 where it has none. -/
def State.optReject (s : State) (d : List Byte) : Nat :=
  let grads := (List.range 4).any fun t =>
    if t ≤ oTies d then decide (fld d (32 + 8 * t) 8 / 2 ^ 39 ≠ 0) else decide (fld d (32 + 8 * t) 8 ≠ 0)
  let n := oBlocks d
  if bit (fld d 0 1) 7 = true ∨ fld d 1 1 ≠ 0 ∨ fld d 8 8 / 2 ^ 39 ≠ 0
      ∨ (if oWhey d then fld d 16 8 / 2 ^ 39 ≠ 0 else fld d 16 8 ≠ 0) ∨ fld d 24 8 / 2 ^ 39 ≠ 0 ∨ grads = true
      ∨ fld d 96 8 / 2 ^ 39 ≠ 0 ∨ fld d 104 8 / 2 ^ 39 ≠ 0 then St.CMD_RESERVED_NONZERO
  else if 2 ≤ oAlgo d ∨ n = 0 ∨ oParam d % 2048 ≠ 0 ∨ oWheyMa d % 2048 ≠ 0 ∨ oState d % 2048 ≠ 0
      ∨ (List.range 4).any (fun t => decide (oGrad d t % 2048 ≠ 0)) = true ∨ oUndo d % 2048 ≠ 0
      ∨ s.regionsBad (fld d 112 8) = true ∨ 2 ^ 39 < oParam d + 2048 * n ∨ 2 ^ 39 < oState d + oF d * oM d * n
      ∨ 2 ^ 39 < oUndo d + oU d * n ∨ (oWhey d = true ∧ 2 ^ 39 < oWheyMa d + 2048 * n)
      ∨ (List.range (oTies d + 1)).any (fun t => decide (2 ^ 39 < oGrad d t + 2048 * n)) = true
      ∨ [64, 68, 72, 76, 80, 84, 88, 92].any (fun o => !(val32 (oF32 d o)).isFin) = true then St.CMD_BAD_FIELD
  else 0

/-- FP32 one. -/
def one32 : Word := 0x3F800000

/-- The update of one element (R299): parameter, whey, moments and the numeric flags it raises (R101, R112), none where g or delta is
not finite. -/
def optElement (d : List Byte) (sc : Word) (p w : Nat) (m v : Word) (gs : List Word) :
    Option (Nat × Nat × Word × Word × BitVec 4) :=
  let g := mul32 ((gs.drop 1).foldl add32 (gs.headD 0)) sc
  let b1 := oF32 d 68
  let b2 := oF32 d 72
  let m1 := if oAlgo d = 0 then fma32 b1 m g else add32 (mul32 b1 m) (mul32 (sub32 one32 b1) g)
  let v1 := if oAlgo d = 0 then v else add32 (mul32 b2 v) (mul32 (sub32 one32 b2) (mul32 g g))
  let u := if oAlgo d = 0 then m1 else
    mul32 (mul32 m1 (oF32 d 84)) (funcOne false 3 (add32 (funcOne false 5 (mul32 v1 (oF32 d 88))) (oF32 d 76)))
  let delta := mul32 (oF32 d 64) (fma32 (oF32 d 80) (bf16.widen p) u) ^^^ 0x80000000
  if !(val32 g).isFin || !(val32 delta).isFin then none
  else
    let plain := bf16.narrow (val32 (add32 (bf16.widen p) delta)) 0 0
    let r := if oWhey d then wheyUpdate delta p w else (plain.1, w)
    some (r.1, r.2, m1, v1, if oWhey d then wheyFlags delta p w else plain.2)

/-- A stored moment widened. -/
def momentAt (d bs : List Byte) (x : Nat) : Word :=
  if oBf d then bf16.widen (fld bs (2 * x) 2) else BitVec.ofNat 32 (fld bs (4 * x) 4)

/-- A moment narrowed to BF16 with the drawn word of its purpose and position (R299), and the flags it raises. -/
def momentNarrow (d : List Byte) (c : Ctx) (which k x : Nat) (w : Word) : Nat × BitVec 4 :=
  bf16.narrow (val32 w) 2 (drawU c.seed c.step (oTid d + which) 5 (1024 * k + x))

/-- A moment as it is stored (R299). -/
def momentBytes (d : List Byte) (c : Ctx) (which k x : Nat) (w : Word) : List Byte :=
  if oBf d then leBytes 2 (momentNarrow d c which k x w).1 else leBytes 4 w.toNat

/-- The flags that storing a moment raises (R101). -/
def momentFlags (d : List Byte) (c : Ctx) (which k x : Nat) (w : Word) : BitVec 4 :=
  if oBf d then (momentNarrow d c which k x w).2 else 0

/-- The places of module memory that the update of block k reads: what it writes, and its reduced gradients. -/
def oReads (d : List Byte) (k : Nat) : List (Nat × Nat) :=
  oPlaces d k ++ (List.range (oTies d + 1)).map fun t => (oGrad d t + 2048 * k, 2048)

/-- Update block k (R299, R300): its undo copy first; the elements left unchanged are counted. -/
def State.optBlock (s : State) (c : Nat) (d : List Byte) (sc : Word) (k : Nat) : State × Nat :=
  let x := s.ctx c
  let s := (oReads d k).foldl (fun s q => s.fetched q.1 q.2) s
  let ps := (oPlaces d k).map fun q => s.memBytes q.1 q.2
  let s := s.routineWrite c (oUndo d + oU d * k) ps.flatten
  let pb := ps.getD 0 []
  let wb := if oWhey d then ps.getD 1 [] else []
  let mb := ps.getD (1 + b2n (oWhey d)) []
  let vb := ps.getD (2 + b2n (oWhey d)) []
  let gb := (List.range (oTies d + 1)).map fun t => s.memBytes (oGrad d t + 2048 * k) 2048
  let rs := (List.range 1024).map fun i =>
    let old := (fld pb (2 * i) 2, fld wb (2 * i) 2, momentAt d mb i, momentAt d vb i)
    (i, old, optElement d sc old.1 old.2.1 old.2.2.1 old.2.2.2 (gb.map fun b => bf16.widen (fld b (2 * i) 2)))
  let keep := fun (bs : List Byte) (i : Nat) => sliceBytes bs ((if oBf d then 2 else 4) * i) (if oBf d then 2 else 4)
  let new := [(rs.map fun r => leBytes 2 ((r.2.2.map fun y => y.1).getD r.2.1.1)).flatten]
    ++ (if oWhey d then [(rs.map fun r => leBytes 2 ((r.2.2.map fun y => y.2.1).getD r.2.1.2.1)).flatten] else [])
    ++ [(rs.map fun r => match r.2.2 with
      | some y => momentBytes d x 0 k r.1 y.2.2.1
      | none => keep mb r.1).flatten]
    ++ (if oAlgo d = 0 then [] else [(rs.map fun r => match r.2.2 with
      | some y => momentBytes d x 1 k r.1 y.2.2.2.1
      | none => keep vb r.1).flatten])
  let fl := rs.foldl (fun (f : BitVec 4) r => match r.2.2 with
    | some y => f ||| y.2.2.2.2 ||| momentFlags d x 0 k r.1 y.2.2.1
        ||| (if oAlgo d = 0 then 0 else momentFlags d x 1 k r.1 y.2.2.2.1)
    | none => f) 0
  let s := ((oPlaces d k).zip new).foldl (fun s q => s.routineWrite c q.1.1 q.2) (s.routineFlags c fl)
  (s, (rs.filter fun r => r.2.2.isNone).length)

/-- The first place of block k that cannot be read. -/
def State.optReadFail (s : State) (d : List Byte) (k : Nat) : Option (Nat × Nat) :=
  (oReads d k).findSome? fun q => (s.readFail q.1 q.2).map fun f => (q.1 + f.1, f.2)

/-- Complete an optimiser record: STATUS, the count, SIGNAL_SYNC, the plan entry. -/
def State.optEnd (s : State) (c pos ma : Nat) (d : List Byte) (st : Nat) : State :=
  let s := (s.routineWrite c (ma + 126) (leBytes 2 st)).bump 0x2702 0x06 0
  let s := if oSignal d then s.signal (oSync d) 1 else s
  s.routineDone c pos

/-- Run an optimiser record (R298-R300). A block that memory does not deliver is a storage event, and the record stays
incomplete. -/
def optStart (s : State) (c pos : Nat) (e : PlanEntry) : State :=
  let ma := e.arg % 2 ^ 39
  let i := s.routineRead c ma 128
  match i.2 with
  | none => i.1
  | some d =>
    let rej := i.1.optReject d
    if rej ≠ 0 then i.1.optEnd c pos ma d rej else
    let j := if oScaleMa d = 0 then (i.1, some []) else i.1.routineRead c (oScaleMa d) 4
    match j.2 with
    | none => j.1
    | some f =>
      let s := j.1
      let sc := if oScaleMa d = 0 then oF32 d 92 else mul32 (oF32 d 92) (BitVec.ofNat 32 (leNat f))
      let r := (List.range (oBlocks d)).foldl (fun (a : State × Nat × List Byte) k =>
        match a.1.optReadFail d k with
        | some (m, st) => ((a.1.metPoison st m).storageEvent (some c) st m, a.2.1, a.2.2 ++ [0])
        | none => let y := a.1.optBlock c d sc k; (y.1, a.2.1 + y.2, a.2.2 ++ [1])) (s, 0, [])
      let x := r.1.ctx c
      let s := r.1.setCtx c { x with undo := x.undo ++ [d ++ r.2.2] }
      let s := if r.2.1 = 0 then s else (s.bump 0x2702 0x07 0 r.2.1).numericEvent c St.OPT_NONFINITE 5
      if r.2.2.contains 0 then s else s.optEnd c pos ma d (if r.2.1 = 0 then St.OPT_DONE else St.OPT_NONFINITE)

/-- OPT (Table 10-3, R298-R300): it waits while another routine occupies a region of its record. -/
def execOpt (env : MemEnv) (s : State) : Host.Outcome State Fault Refusal :=
  .next (if s.flowHeld 0x0F 112 then s else s.flowRunIn env 0x0F optStart)

/-- Restore the undo blocks of one record (R304): those that were copied, which a byte behind the record tells of each. -/
def State.undoRecord (s : State) (c : Nat) (d : List Byte) : State :=
  (listBelow (fun k => decide (d.getD (128 + k) 0 = 1)) (oBlocks d)).foldl (fun s k =>
    ((oPlaces d k).foldl (fun (a : State × Nat) q =>
      let r := a.1.routineRead c (oUndo d + oU d * k + a.2) q.2
      ((match r.2 with
        | some b => r.1.routineWrite c q.1 b
        | none => r.1), a.2 + q.2)) (s, 0)).1) s

/-- Restore every undo block of a context and empty the list (R304). -/
def State.undoAll (s : State) (c : Nat) : State :=
  let s := (s.ctx c).undo.foldl (fun s d => s.undoRecord c d) s
  s.setCtx c { s.ctx c with undo := [] }

/-! ### Wait work (R194) -/

/-- The flow entries that will run whatever the SKIPIF entries among them decide: `k` entries may yet be skipped. -/
def certainFrom : List (Nat × PlanEntry) → Nat → List (Nat × PlanEntry)
  | [], _ => []
  | e :: t, k =>
    let next := Nat.max (k - 1) (if e.2.op = 0x11 then bits e.2.arg 55 48 else 0)
    if k = 0 ∧ timedOp e.2.op = false then e :: certainFrom t next else certainFrom t next

/-- The flow entries of a context that lie ahead of its cursor, will run and have not run. -/
def Ctx.ahead (x : Ctx) : List (Nat × PlanEntry) :=
  let y := x.settleFlow
  (certainFrom (y.entries.drop y.flowPos) y.skipLeft).filter fun e => !y.early.contains e.1

/-- The gradient shards that the buckets of a COLL entry write (Table 13-3). -/
def State.collShards (s : State) (e : PlanEntry) : List Nat :=
  let d := s.memBytes (e.arg % 2 ^ 39) 64
  (List.range (cBuckets d % 65537)).map fun i => bits (leNat (s.memBytes (cTable d + 48 * i + 24) 8)) 38 0

/-- Whether a flow entry of a context has completed: it lies behind the cursor and no longer runs. -/
def Ctx.completed (x : Ctx) (pos : Nat) : Bool :=
  let y := x.settleFlow
  (y.entries.take y.flowPos).any (fun e => decide (e.1 = pos)) && y.runs.all fun r => decide (r.pos ≠ pos)

/-- Whether the reduction of every bucket that an OPT entry reads has completed (R194): each of its reduced gradients is the shard of
a bucket of an earlier COLL entry, and every such entry has completed. -/
def State.reduced (s : State) (x : Ctx) (pos : Nat) (d : List Byte) : Bool :=
  let colls := x.entries.filter fun e => decide (e.2.op = 0x0E ∧ e.1 < pos)
  (List.range (oTies d + 1)).all fun t =>
    let mine := colls.filter fun e => (s.collShards e.2).contains (oGrad d t)
    !mine.isEmpty && mine.all fun e => x.completed e.1

/-- The optimiser entry that wait work may start: the first one ahead whose buckets are reduced. -/
def State.readyOpt (s : State) (c : Nat) : Option (Nat × PlanEntry) :=
  (s.ctx c).ahead.find? fun e => decide (e.2.op = 0x0F) && s.reduced (s.ctx c) e.1 (s.memBytes (e.2.arg % 2 ^ 39) 128)
    && !s.maskOccupied c (s.memByte64 (e.2.arg % 2 ^ 39 + 112))

/-- The layer of each GATHER entry: gathers that follow one another among the flow entries serve one layer (log entry 36). -/
def layersFrom : List (Nat × PlanEntry) → Nat → Bool → List (Nat × Nat)
  | [], _, _ => []
  | e :: t, n, same =>
    if timedOp e.2.op then layersFrom t n same
    else if e.2.op = 0x0D then
      (let m := if same then n else n + 1
       (e.1, m) :: layersFrom t m true)
    else layersFrom t n false

/-- The layer of a GATHER entry of a plan. -/
def Ctx.layerOf (x : Ctx) (pos : Nat) : Nat := (((layersFrom x.entries 0 false).find? fun e => decide (e.1 = pos)).map Prod.snd).getD 0

/-- Whether the destinations of two gather records meet. -/
def gatherMeet (a b : List Byte) : Bool :=
  decide (gSpace a = gSpace b ∧ gDst a < gDst b + (gSide b).row ∧ gDst b < gDst a + (gSide a).row)

/-- The gather entry that wait work may start (R194): PREFETCH set, not to be rejected, its buffer free, and with it no more layers
gathered ahead than OD 0x2902:02 allows. -/
def State.readyGather (s : State) (c : Nat) : Option (Nat × PlanEntry) :=
  let x := (s.ctx c).settleFlow
  let rec_ := fun (e : Nat × PlanEntry) => s.memBytes (e.2.arg % 2 ^ 39) 64
  let early := (x.entries.drop x.flowPos).filter fun e => decide (e.2.op = 0x0D) && x.early.contains e.1
  let used := early.map rec_ ++ (s.tasks.gathers.filter fun t => decide (t.ctx = c)).map (·.bytes)
  x.ahead.find? fun e =>
    let d := rec_ e
    decide (e.2.op = 0x0D) && bit (fld d 0 1) 3 && (s.readFail (e.2.arg % 2 ^ 39) 64).isNone && decide (s.gatherReject c d = 0)
      && !used.any (gatherMeet d)
      && decide (((x.layerOf e.1 :: early.map fun y => x.layerOf y.1).eraseDups).length ≤ s.odg 0x2902 0x02)

/-- Whether a WAIT entry that has started holds a context. -/
def Ctx.waitsObj (x : Ctx) : Bool :=
  x.runs.any fun r => match x.plan[r.pos]? with
    | some e => decide (e.op = 8)
    | none => false

/-- The wait work that the running context may start now, in the order of OD 0x2902:01 (R194). -/
def State.waitWork (s : State) (c : Nat) : Option (Nat × PlanEntry) :=
  let x := s.ctx c
  let waits := x.waitsObj && x.stepOn && !x.noStart && !x.refused && !x.exhausted && !x.restoring
    && decide (s.time.state ≠ .lost) && decide (x.verdict = none ∨ x.verdict = some .commit)
  let mode := s.odg 0x2902 0x01
  if waits = false ∨ 2 ≤ mode then none
  else if mode = 0 then (s.readyOpt c).orElse fun _ => s.readyGather c
  else (s.readyGather c).orElse fun _ => s.readyOpt c

/-- WAIT_WORK_START (R194): while the running context waits on an object, the first ready piece of wait work runs; its entry
only completes at its own slot. -/
def execWaitWorkStart (env : MemEnv) (s : State) : Host.Outcome State Fault Refusal :=
  match s.runningCtx with
  | none => .next s
  | some c =>
    match s.waitWork c with
    | none => .next s
    | some (pos, e) =>
      .next (s.within env fun s =>
        let s := (s.markEarly c pos).bump 0x2920 0x05 0
        if e.op = 0x0F then optStart s c pos e else gatherStart s c pos e)

end Sys2Proof.Machine
end

