-- ==== Sys2Proof/Machine/HostOps.lean ====
section
/-! DEFINITION. The job ring (R311-R313): taking entries, forming response records, writing them in order. -/

namespace Sys2Proof.Machine

/-- Write bytes into host memory. -/
def State.putHost (s : State) (a : Nat) (bs : List Byte) : State :=
  { s with host := { s.host with mem := bs.zipIdx.foldl (fun m b => Sparse.set (fun _ => 0) m (a + b.2) b.1) s.host.mem } }

/-- Whether the job ring is active (OD 0x2805:09). -/
def State.ringOn (s : State) : Bool := decide (s.odg 0x2805 0x09 = 1)

/-- Write the response records that the host has room for, each followed by its MSI-X message (R313). `fuel` bounds them. -/
def State.drainRsp (s : State) : Nat → State
  | 0 => s
  | k + 1 =>
    match s.host.held with
    | [] => s
    | r :: t =>
      let n := s.host.rspNext - s.host.held.length
      let size := 2 ^ s.odg 0x2805 0x05
      if s.ringOn = true ∧ s.host.linkUp = true ∧ n < s.host.rspDone + size then
        let s := s.putHost (s.odg 0x2805 0x04 + 32 * (n % size)) r
        let s := { s with host := { s.host with held := t } }
        let s := if s.odg 0x2805 0x06 = 0xFFFF then s else { s with out := .msix (s.odg 0x2805 0x06) :: s.out }
        s.drainRsp k
      else s

/-- Write every held response that fits. -/
def State.drainAll (s : State) : State := s.drainRsp (s.host.held.length + 1)

/-- The instance number of the host interface's time stamps. -/
def hostInst : Nat := 0x8001

/-- Form a response record (Table 14-4); while the ring is not active it is discarded (R313). -/
def State.respond (s : State) (event : Bool) (tag status ctx index : Nat) : State :=
  if s.ringOn then
    let step := if s.resident ctx then (s.ctx ctx).step else 0
    let r := leBytes 2 tag ++ leBytes 2 status ++ leBytes 1 (b2n event) ++ leBytes 1 ctx ++ leBytes 2 0 ++ leBytes 8 index
      ++ leBytes 8 step ++ leBytes 8 (s.stampOf hostInst)
    let s := s.stamped hostInst
    { s with host := { s.host with held := s.host.held ++ [r], rspNext := s.host.rspNext + 1 } }.drainAll
  else s

/-- A job event (R313): its index is its own number. -/
def State.jobEvent (s : State) (ctx status tag : Nat) : State := s.respond true tag status ctx s.host.rspNext

/-- OP of a job-ring entry (Table 14-3). -/
def jOp (e : JobEntry) : Nat := fld e.bytes 0 1
/-- CONTEXT of a job-ring entry. -/
def jCtx (e : JobEntry) : Nat := fld e.bytes 1 1 % 64
/-- SPACE of a job-ring entry, with the keep-0 bits above it. -/
def jSpace (e : JobEntry) : Nat := fld e.bytes 2 1
/-- ADDR of a job-ring entry. -/
def jAddr (e : JobEntry) : Nat := fld e.bytes 8 8
/-- SLOT of a job-ring entry. -/
def jSlot (e : JobEntry) : Nat := fld e.bytes 16 8
/-- TAG of a job-ring entry. -/
def jTag (e : JobEntry) : Nat := fld e.bytes 24 2
/-- Whether a field that an entry keeps 0 is nonzero: `space`, `addr` and `slot` say which fields its operation uses (R10, R312). -/
def jResv (e : JobEntry) (space addr slot : Bool) : Bool :=
  decide (64 ≤ fld e.bytes 1 1 ∨ fld e.bytes 3 5 ≠ 0 ∨ fld e.bytes 26 38 ≠ 0) || decide ((if space then 8 else 1) ≤ jSpace e)
    || (!addr && decide (jAddr e ≠ 0)) || (!slot && decide (jSlot e ≠ 0))

/-- Whether the module takes an entry of the job ring now (R311, R313, R318). -/
def State.takesEntry (s : State) : Bool :=
  s.ringOn && s.host.linkUp && s.host.headHeld && s.host.held.isEmpty && decide (s.host.taken < s.host.head)

/-- Answer the entry that was taken (R312, R313). -/
def State.answerEntry (s : State) (e : JobEntry) (status : Nat) : State :=
  let h := s.host.taken
  { s with host := { s.host with taken := h + 1 } }.respond false (jTag e) status (jCtx e) h

/-- Run a job-ring entry of the operation given (R312): the context field's bits 7 and 6 and every field the operation does not
use keep 0 (R10). -/
def State.jobRun (s : State) (e : JobEntry) (op : Nat) (uses : Bool × Bool × Bool)
    (act : State → Nat → State × Nat) : State :=
  if s.takesEntry = true ∧ jOp e = op then
    if jResv e uses.1 uses.2.1 uses.2.2 then s.answerEntry e St.CMD_RESERVED_NONZERO
    else
      let r := act s (jCtx e)
      r.1.answerEntry e r.2
  else s

end Sys2Proof.Machine
end

