-- ==== Sys2Proof/Machine/StepOps.lean ====
section
/-! DEFINITION. Steps of a context (chapter 10): what a step boundary does, beacons, abandoning a step, reports, context
switches. -/

namespace Sys2Proof.Machine

/-- JOB_DIAMETER, CALM, MAX_REPEAT, LAG, SAVE, REPORT and E_MAP of a context (Table 10-6). -/
def Ctx.calmLimit (x : Ctx) : Nat := x.fld 19 1
/-- MAX_REPEAT (Table 10-6). -/
def Ctx.maxRepeat (x : Ctx) : Nat := bits (x.fld 20 1) 3 0
/-- LAG (Table 10-6). -/
def Ctx.lagLimit (x : Ctx) : Nat := x.fld 36 4
/-- SAVE (Table 10-6). -/
def Ctx.save (x : Ctx) : Nat := bits (x.fld 64 8) 38 0
/-- The slot of report n (R223). -/
def Ctx.reportAt (x : Ctx) (n : Nat) : Nat := bits (x.fld 72 8) 38 0 + 256 * (n % 2 ^ x.fld 80 1)
/-- E_MAP (Table 10-6). -/
def Ctx.eMap (x : Ctx) : Nat := bits (x.fld 88 8) 38 0

/-- The entry of an operation that occurs once in a plan version: its index in plan order and itself. -/
def Ctx.only (x : Ctx) (op : Nat) : Option (Nat × Nat × PlanEntry) :=
  (x.entries.zipIdx.find? fun e => decide (e.1.2.op = op)).map fun e => (e.2, e.1.1, e.1.2)

/-! ### Beacons (R218-R220) -/

/-- The largest lag, in slots, of the flow entries that have not started: how long they have been due (R219, R223). -/
def Ctx.lagNow (x : Ctx) : Nat :=
  let y := x.settleFlow
  if y.stepOn then
    ((y.entries.drop y.flowPos).filter fun e => !timedOp e.2.op && !y.early.contains e.1).foldl
      (fun m e => Nat.max m (y.slots - (y.base + e.2.slot))) 0
  else 0

/-- BEHIND (R219). -/
def Ctx.behind (x : Ctx) : Bool := decide (x.lagLimit < x.lagNow)

/-- Whether the plan in effect lights a receive lane of a port. -/
def State.rxPlanned (s : State) (p : Nat) : Bool := (List.range 384).any fun n => decide (s.rxPort s.planNow n = some p)

/-- The ports on which job neighbours are heard. -/
def State.jobPorts (s : State) (c : Nat) : List Nat := listBelow (fun p => s.memberPort c p && s.rxPlanned p) 48

/-- Whether the running context pauses at slot n (R218): a switch request, or a SWITCH entry at the next STEP_END. -/
def State.pausesAt (s : State) (x : Ctx) (n : Nat) : Bool :=
  (match s.switchTo with
    | some w => decide (w.2 = n) && s.resident w.1
    | none => false) ||
  (match x.only 4, x.only 5 with
    | some e, some _ => x.stepOn && decide (x.base + e.2.2.slot = x.slots + 1)
    | _, _ => false)

/-- The beacon word (Table 10-7). -/
def State.beaconWord (s : State) (x : Ctx) : Nat :=
  let v := x.combined.getD ⟨false, false, false⟩
  x.job + x.step % 65536 * 2 ^ 16 + b2n s.throttled * 2 ^ 32 + b2n x.behind * 2 ^ 33 + b2n x.vote.isSome * 2 ^ 34
    + b2n v.done * 2 ^ 35 + b2n v.stretch * 2 ^ 36 + b2n v.stop * 2 ^ 37 + b2n (decide (s.time.state = .holdover)) * 2 ^ 38
    + b2n (s.pausesAt x (s.time.slotDone + 1)) * 2 ^ 39

/-- Whether the running context pauses at the boundary that stands (R217): a switch is due. -/
def State.pausing (s : State) : Bool :=
  match s.switchTo with
  | some w => decide (w.2 ≤ s.time.slotDone) && s.resident w.1
  | none => false

/-- Send the beacon of a boundary on every port whose lanes reach a member of the job, while the context runs on (R218). -/
def State.sendBeacons (s : State) (c : Nat) : State :=
  if s.pausing then s else
  let w := s.beaconWord (s.ctx c)
  let ps := listBelow (fun p => s.memberPort c p && s.portTerm p) 48
  if ps.isEmpty then s
  else { s.odp 0x2804 0x01 0 w with out := ps.map (fun p => Out.beacon p (BitVec.ofNat 64 w)) ++ s.out }

/-- Combine a vote with a neighbour's word (R220): a word that does not count as voted is DONE = 0, STRETCH = 1, STOP = 0. -/
def Vote.meet (v : Vote) (good done stretch stop : Bool) : Vote :=
  ⟨v.done && good && done, v.stretch || !good || stretch, v.stop || (good && stop)⟩

/-- Beacons that did not arrive since the last boundary (R220, OD 0x2804:02). -/
def State.missBeacons (s : State) (c : Nat) : State :=
  let gone := (s.jobPorts c).filter fun p => !s.time.heard.contains p
  if gone.isEmpty then s
  else
    let x := s.ctx c
    (s.bump 0x2804 0x02 0 gone.length).setCtx c { x with
      combined := x.combined.map fun v => if x.verdict.isNone then v.meet false false false false else v }

/-- Combine a vote, as it is latched, with the word last received on a port (R220): one that is missing or carries another JOB or STEP
does not count as voted; one sent before its member voted decides nothing yet. -/
def State.heardVote (s : State) (x : Ctx) (v : Vote) (p : Nat) : Vote :=
  let w := Sparse.get (fun _ => 0) s.time.words p
  if w = 0 ∨ bits (w - 1) 15 0 ≠ x.job ∨ bits (w - 1) 31 16 ≠ x.step % 65536 then v.meet false false false false
  else if bit (w - 1) 34 then v.meet true (bit (w - 1) 35) (bit (w - 1) 36) (bit (w - 1) 37)
  else v

/-- What a boundary of a running step notes (R219, R220, R223). -/
def State.markBoundary (s : State) (c : Nat) : State :=
  let x := s.ctx c
  let t := s.throttled
  let early := x.vote.isNone
  s.setCtx c { x with
    throtSlots := x.throtSlots + b2n t, sawThrot := x.sawThrot || (t && early), sawBehind := x.sawBehind || (x.behind && early)
    maxLag := Nat.max x.maxLag x.lagNow }

/-! ### Step boundaries -/

/-- What happens to the module at a step boundary of the running context (R90, R135, R195, R334, R389). -/
def State.stepBoundary (s : State) : State :=
  let s := s.retireStacks.retireCores.evalFloors
  let s := s.odp 0x2900 0x03 0 (32 * s.cellarFrames.length)
  s.takeLevel

/-- Compare E_MAP with E of every region (R216). -/
def State.checkE (s : State) (c : Nat) : State :=
  let x := s.ctx c
  match s.readFail x.eMap 64 with
  | some (o, st) =>
    let s := (s.metPoison st (x.eMap + o)).storageEvent (some c) st (x.eMap + o)
    s.setCtx c { s.ctx c with noStart := true }
  | none =>
    if (List.range 64).all fun r => decide ((s.memByte (x.eMap + r)).toNat = s.enabled r) then s
    else s.setCtx c { x with refused := true }

/-- Begin a step of a context at this boundary and the context slot given (R208, R216). -/
def State.beginStep (s : State) (c base : Nat) : State :=
  let s := s.stepBoundary
  let x := s.ctx c
  let x := { x with
    stepOn := true, base := base, timedPos := 0, flowPos := 0, skipLeft := 0, runs := [], stashJ := 0, noStart := false
    refused := false, exhausted := false, repeatEv := false, storageEv := false, lostEv := false, sawThrot := false }
  let x := { x with
    sawBehind := false, vote := none, combined := none, verdict := none, startT := 512 * s.time.slotDone, deadlineT := 0
    throtSlots := 0, maxLag := 0, phases := [], reruns := 0, fails := 0, invalids := 0, norms := [], early := [] }
  let x := { x with cellar := s.cellarStep, outcomes := [] }
  let r := (s.setCtx c x).readDir c
  ((r.1.setCtx c { r.1.ctx c with groupDir := r.2 }).checkE c).markBoundary c

/-- The version of the next step after a verdict (R222). -/
def Ctx.nextVersion (x : Ctx) : Nat :=
  if x.plan1.isEmpty then 0
  else if (x.combined.map Vote.stretch).getD false then 1
  else if x.version = 1 ∧ x.calm < x.calmLimit then 1
  else 0

/-- A step over: the next step's number, repeats and version (R221, R222). -/
def Ctx.rolled (x : Ctx) : Ctx :=
  let v := x.nextVersion
  match x.verdict with
  | some .commit => { x with step := (x.step + 1) % 2 ^ 48, repeats := 0, version := v }
  | some .repeated => { x with repeats := x.repeats + 1, version := v }
  | _ => { x with version := v }

/-- A context stops (R221, R312): its programs end, nothing runs, a job event tells why. -/
def State.stopCtx (s : State) (c status tag : Nat) : State :=
  let x := s.ctx c
  (s.setCtx c { x with st := .stopped, stepOn := false, runs := [], stopTag := none }).jobEvent c status tag

/-! ### Abandoning a step (R152, R221, R271, R303) -/

/-- Complete every announced descriptor of a queue that has not started with DMA_FLUSHED, in order of h (R152); one whose ring entry
cannot be read completes with its memory status, TAG 0 and no signal (R139). -/
def State.flushQueue (s : State) (c n q : Nat) : State :=
  let key := n * 256 + c * 4 + q
  let qr := (s.ctx c).dmaRec n q
  if fld qr 9 1 = 0 then s else
  let k := s.dq key
  let more := Nat.min ((s.objVal (fld qr 10 2)).toNat - k.next) (2 ^ fld qr 9 1)
  let late : List Desc := (List.range more).map fun i =>
    let a := fld qr 0 8 + 64 * ((k.next + i) % 2 ^ fld qr 9 1)
    let r := s.readSpace (fld qr 8 1 % 8) a 64
    { h := k.next + i, bytes := r.1, status := r.2, started := false, handed := false, flags := 0, record := none }
  let s := s.setDq key { k with next := k.next + more, items := k.items ++ late }
  (List.range (s.dq key).items.length).foldl (fun s i =>
    match (s.dq key).items[i]? with
    | some d =>
      if d.record.isNone && !d.started && !d.handed then
        (if d.status = 0 then s.dmaFinish key i d (dTag d.bytes) St.DMA_FLUSHED 0 0 0
         else
           let a := fld qr 0 8 + 64 * (d.h % 2 ^ fld qr 9 1)
           (if k.next ≤ d.h then (s.metPoison d.status a).storageEvent (some c) d.status a else s).dmaFinish key i d 0 d.status 0 0 0)
      else s
    | none => s) s

/-- Complete every queued command of a churn with CHURN_FLUSHED, in order (R221). -/
def State.flushChurn (s : State) (ch : Nat) : State :=
  let x := s.churn ch
  x.work.queue.foldl (fun s cmd => s.chComplete ch cmd St.CHURN_FLUSHED 0 0)
    (s.setChurn ch { x with work := { x.work with queue := [] } })

/-- End the programs of a context on every core (R221). -/
def State.haltCores (s : State) (c : Nat) : State :=
  { s with files := s.files.mapAll (fun _ => fileNone) fun k (f : CoreFile) =>
      if k % 64 = c then { f with running := false, waiting := none } else f }

/-- Abandon the routines of a context and what they have not yet injected (R303). -/
def State.dropTasks (s : State) (c : Nat) : State :=
  State.closeMsgs { s with
    tasks := { milks := s.tasks.milks.filter fun t => decide (t.ctx ≠ c), gathers := s.tasks.gathers.filter fun t => decide (t.ctx ≠ c)
               colls := s.tasks.colls.filter fun t => decide (t.ctx ≠ c) }
    rt := { s.rt with inject := s.rt.inject.filter fun (i : Inj) => match i.owner with
      | some o => decide (o.1 ≠ c)
      | none => true } }

/-- Every incomplete reassembly entry of a job becomes stale (R271). -/
def State.staleJob (s : State) (job : Nat) : State :=
  { s with rt := { s.rt with reasm := s.rt.reasm.map fun (e : Nat × Reasm) =>
      if e.2.job = job ∧ ¬ (e.2.got = e.2.len ∧ e.2.last = true) then (e.1, { e.2 with stale := true }) else e } }

/-- What a verdict of repeat or stop flushes (R221). -/
def State.abandon (s : State) (c : Nat) : State :=
  let s := (List.range 16).foldl (fun s i => s.flushQueue c (i / 4) (i % 4)) s
  let s := (List.range 64).foldl State.flushChurn s
  let s := ((s.haltCores c).dropTasks c).staleJob (s.ctx c).job
  s.setCtx c { s.ctx c with runs := [] }

/-! ### Reports (R201, R223) -/

/-- The step report (Table 10-9). -/
def stepReport (x : Ctx) (v : Verdict) (now : Nat) : List Byte :=
  let code := match v with
    | .commit => 0
    | .repeated => 1
    | .stop => 2
  let own := (x.vote.map Vote.stretch).getD false
  leBytes 6 x.step ++ leBytes 1 code ++ leBytes 1 (x.version + 2 * b2n own) ++ leBytes 8 x.startT ++ leBytes 8 x.deadlineT
    ++ leBytes 8 now ++ leBytes 4 x.throtSlots ++ leBytes 4 (Nat.max x.maxLag x.lagNow) ++ leBytes 1 x.repeats ++ List.replicate 23 0
    ++ sliceBytes (normReport x) 0 64 ++ ((List.range 16).map fun p => leBytes 8 (Sparse.get (fun _ => 0) x.phases p)).flatten

/-- The extremes and sums of a cellar record after a step (R201, Table 19-7): MAX the highest occupancy, ARG the highest spill lines
and the mismatches; `most` is MAX before the step. -/
def HerdRec.cellar (r : HerdRec) (most : Int) (peak spill wrong : Nat) : HerdRec :=
  { r with qmax := if most < (peak : Int) then peak else most
           arg := Nat.max (r.arg % 2 ^ 32) spill + (r.arg / 2 ^ 32 + wrong) % 2 ^ 32 * 2 ^ 32 }

/-- Whether a record is the cellar record of context c in the interval in progress. -/
def cellarRec (c : Nat) (r : HerdRec) : Bool := decide (r.kind = 0x2901 ∧ r.inst = c)

/-- The cellar record of a context takes a step whose q is counted already. -/
def State.cellarTake (s : State) (c : Nat) (most : Int) (peak spill wrong : Nat) : State :=
  let take := fun (r : HerdRec) => if cellarRec c r then r.cellar most peak spill wrong else r
  { s with herd := { s.herd with accs := s.herd.accs.map take } }

/-- Record a step that reached the mark (R201): one event whose q is the lowest layer with an outcome other than 0. -/
def State.cellarMark (s : State) (c : Nat) (y : Cellar) : State :=
  let most := ((s.herd.accs.find? (cellarRec c)).map (·.qmax)).getD 0
  ((s.bump 0x2901 0x04 0).herdEvent 0x2901 c (y.reduced.getD 0xFFFF : Nat) 0).cellarTake c most y.peak y.peakSpill y.mismatch

/-- The record of a context that no step of the interval has entered yet (log entry 36): no step counted, MIN above every layer, MAX 0. -/
def cellarFresh (hd : Herd) (c : Nat) : HerdRec :=
  { herdFirst hd 0x2901 c 0xFFFF 0 with count := 0, qmax := 0, hist := List.replicate 8 0 }

/-- The mismatches of a step that did not reach the mark enter the record too, the step itself does not (R201). -/
def State.cellarWrong (s : State) (c : Nat) (y : Cellar) : State :=
  let s := if s.herd.accs.any (cellarRec c) then s
    else if s.herd.accs.length < 512 then { s with herd := { s.herd with accs := s.herd.accs ++ [cellarFresh s.herd c] } }
    else s.herdEvent 0x2901 c 0 0
  s.cellarTake c (((s.herd.accs.find? (cellarRec c)).map (·.qmax)).getD 0) 0 0 y.mismatch

/-! ### Context switches (R55, R93, R152, R217) -/

/-- A core's waits are abandoned; they issue again when the context resumes (R93). -/
def State.dropWaits (s : State) (c : Nat) : State :=
  (Sparse.keys s.files).foldl (fun s k =>
    if k % 64 = c then
      (let f := { Sparse.get (fun _ => fileNone) s.files k with waiting := none }
       { s with files := Sparse.set (fun _ => fileNone) s.files k f })
    else s) s

/-- Take the codes of a STREAM in flight, oldest first, until none is left in the air (R55); an abort drops those that follow it. -/
def State.landExec (s : State) (ch : Nat) (e : ChExec) : Nat → State × ChExec
  | 0 => (s, e)
  | n + 1 =>
    match e.air with
    | (v, _, r) :: t =>
      let p := s.takeCodes ch { e with air := t } v r false
      p.1.landExec ch p.2 n
    | [] => (s, e)

/-- Accumulate every vector that a churn has launched (R55). -/
def State.landAll (s : State) (ch : Nat) : State :=
  (List.range (s.churn ch).work.exec.length).foldl (fun s i =>
    match (s.churn ch).work.exec[i]? with
    | some e =>
      let p := s.landExec ch e e.air.length
      let x := p.1.churn ch
      p.1.setChurn ch { x with work := { x.work with exec := x.work.exec.set i p.2 } }
    | none => s) s

/-- The bytes of a saved churn state (R55): queue and completion records in their places, the rest not defined by the manual. -/
def saveBytes (draw : Nat) (w : ChWork) : List Byte :=
  let q := (w.queue.map fun c => sliceBytes c 0 32).flatten
  let f := ((w.fifo ++ w.held.map Prod.fst).map fun r => sliceBytes r 0 16).flatten
  let free := fun a n => (List.range n).map fun i => Config.undefByte draw (a + i)
  (q ++ free 0 1024).take 1024 ++ (f ++ free 1024 512).take 512 ++ free 1536 64

/-- A STREAM that a switch restored goes on as the churn's state lets it (R47, R52, R55): a DARK churn wakes for it, and without light
it follows its FALLBACK. -/
def State.resumeStreams (s : State) (ch : Nat) : State :=
  let x := s.churn ch
  if x.work.streams = false then s else
  match x.st with
  | .dark => s.setChurn ch { x with st := .waking }
  | .relighting | .retired => s.dropStreams ch
  | .waking | .ready | .streaming | .calibrating => s

/-- Restore the incoming context's work, its banks from their recorded sources, after a calibration in progress (R55). -/
def State.restoreChurn (s : State) (inc ch : Nat) : State :=
  let n := Sparse.get (fun _ => workNone) s.saved (64 * ch + inc)
  let x := s.churn ch
  let st := if x.st = .streaming then .ready else x.st
  let before := if x.before = .streaming then .ready else x.before
  let s : State := { s.setChurn ch { x with work := n, st := st, before := before, reload := true, idleAt := s.ctl.clock } with
      saved := Sparse.del s.saved (64 * ch + inc) }
  let s := if x.st = .calibrating then s else s.reloadBanks ch
  ((s.resumeStreams ch).chRefill ch).chSettleAll ch

/-- Save a churn's work for the outgoing context and restore the incoming one's, its banks from their recorded sources (R55). -/
def State.swapChurn (s : State) (old : Option Nat) (inc ch : Nat) : State :=
  let s := (s.landAll ch).finishStreams ch 40
  let w := (s.churn ch).work
  let s := match old with
    | some c =>
      if s.resident c then
        let s := { s with saved := Sparse.set (fun _ => workNone) s.saved (64 * ch + c) w }
        (s.writeRun ((s.ctx c).save + 1600 * ch) (saveBytes s.free w)).1.drawn
      else s
    | none => s
  s.restoreChurn inc ch

/-- The module's churns and cores change from one context to another (R217). -/
def State.swapCtx (s : State) (old : Option Nat) (inc : Nat) : State :=
  let s := match old with
    | some c => s.dropWaits c
    | none => s
  let s := if old = some inc then s else (List.range 64).foldl (fun s ch => s.swapChurn old inc ch) s
  { s with current := some inc }

/-- The incoming context runs from this boundary (R208, R217): a paused step goes on, its counter advancing; a context between
steps, or one that never ran, begins a step with the counter as it stands. -/
def State.resumeCtx (s : State) (c : Nat) : State :=
  let x := s.ctx c
  match x.st with
  | .paused =>
    if x.stepOn then (s.setCtx c { x with st := .running, slots := x.slots + 1 }).markBoundary c
    else (s.setCtx c { x with st := .running }).beginStep c x.slots
  | .loaded | .started => (s.setCtx c { x with st := .running }).beginStep c x.slots
  | .empty | .running | .stopped => s

end Sys2Proof.Machine
end

