-- ==== Sys2Proof/Machine/LoadCtx.lean ====
section
/-! DEFINITION. Loading a context (R209, R211, R215, R235, R252, R300, R387, R425): the checks of a descriptor and of its plan
versions, in their order. -/

namespace Sys2Proof.Machine

/-- Whether a stash record breaks Table 09-7. -/
def stashBad (e : PlanEntry) : Bool :=
  let lo := e.lo.toNat
  let hi := e.hi.toNat
  decide (2 ^ 34 ≤ lo) || (if bit lo 32 then decide (2 ^ 33 ≤ lo ∨ hi ≠ 0) else decide (hi % 2 ^ 32 < hi / 2 ^ 32))

/-- Whether an entry breaks Table 10-2, Table 10-3 or R211. -/
def entryBad (e : PlanEntry) : Bool :=
  let t := e.target
  let a := e.arg
  decide (e.resv ≠ 0) ||
    (match e.op with
    | 0x01 | 0x05 => decide (t ≠ 0 ∨ 64 ≤ a)
    | 0x02 => decide (t ≠ 0 ∨ 2 ≤ a)
    | 0x03 | 0x04 | 0x10 => decide (t ≠ 0 ∨ a ≠ 0)
    | 0x08 | 0x09 => decide (t ≠ 0)
    | 0x0A => decide (3 ≤ t ∨ (t = 1 ∧ a / 2 ^ 48 = 0))
    | 0x0B => bit t 6 || decide (2 ^ 18 ≤ a)
    | 0x0C | 0x0D | 0x0E | 0x0F => decide (t ≠ 0 ∨ 2 ^ 39 ≤ a)
    | 0x11 => decide (t ≠ 0) || bit a 39 || decide (bits a 47 44 ≠ 0 ∨ bits a 63 56 ≠ 0 ∨ bits a 55 48 = 0)
    | 0x12 => decide (16 ≤ t ∨ a ≠ 0)
    | _ => true)

/-- Whether slots of timed entries fall (R209). -/
def slotsFall : List Nat → Bool
  | a :: b :: t => decide (b < a) || slotsFall (b :: t)
  | _ => false

/-- Whether a SWITCH stands elsewhere than directly after STEP_END with its SLOT (Table 10-3); `prev` is the entry before the list. -/
def switchBad : Option PlanEntry → List (Nat × PlanEntry) → Bool
  | _, [] => false
  | prev, e :: t =>
    (decide (e.2.op = 5) && !(match prev with
      | some a => decide (a.op = 4 ∧ a.slot = e.2.slot)
      | none => false)) || switchBad (some e.2) t

/-- Whether a plan version is invalid (R209, R211, R300) for a job of diameter d. -/
def planInvalid (d : Nat) (p : List PlanEntry) : Bool :=
  let es := entriesFrom 0 false p
  let timed := es.filter fun e => timedOp e.2.op
  let one := fun op => es.filter fun e => decide (e.2.op = op)
  let after := (es.dropWhile fun e => decide (e.2.op ≠ 3)).filter fun e => !timedOp e.2.op && decide (e.2.op ≠ 0x12)
  es.any (fun e => entryBad e.2 || (decide (e.2.op = 0x10) && (match p[e.1 + 1]? with
    | some r => stashBad r
    | none => true)))
  || slotsFall (timed.map fun e => e.2.slot) || !after.isEmpty || switchBad none es || es.isEmpty
  || (match one 3, one 4 with
    | [a], [b] => decide (b.2.slot < a.2.slot + d + 1)
    | _, _ => true)
  || decide (4096 < (one 0x0F).length)

/-- Whether a plan version names a routing version that is not valid (R252), or a lane plan not agreed on every lit port whose
neighbour is a member of the job (R235), or one whose PARKED lanes may not wake within 1 ms (R245, log entry 38). -/
def State.planRefs (s : State) (c : Nat) (p : List PlanEntry) : Bool :=
  (entriesFrom 0 false p).any fun e =>
    (decide (e.2.op = 2) && !bit (s.odg 0x2600 0x03) (e.2.arg % 2)) ||
      (decide (e.2.op = 1) && (List.range 48).any fun q =>
        let k := e.2.arg % 64
        decide (s.planTx k q ≠ 0 ∨ s.planRx k q ≠ 0) && s.memberPort c q && !s.agreed k q)
      || (decide (e.2.op = 1 ∧ 512 * e.2.slot < 1000000) && allLanes.any fun l =>
        decide (s.laneOwn l = 0) && (s.lanePort (e.2.arg % 64) l).isSome)

/-- The entries of a plan version in memory. -/
def State.planAt (s : State) (a n : Nat) : List PlanEntry :=
  (List.range n).map fun i => ⟨BitVec.ofNat 64 (leNat (s.memBytes (a + 16 * i) 8)), BitVec.ofNat 64 (leNat (s.memBytes (a + 16 * i + 8) 8))⟩

/-- Whether a keep-0 field of a queue record is nonzero (Table 07-1). -/
def queueResv (q : List Byte) : Bool :=
  decide (8 ≤ fld q 8 1 ∨ fld q 12 4 ≠ 0 ∨ 8 ≤ fld q 24 1 ∨ fld q 26 6 ≠ 0)

/-- Whether a queue record breaks a limit of Table 07-1 (R138), or its rings run past module memory; `n` and `m` are the sizes of a
descriptor and of a record, `core` says that its rings lie in core stores. -/
def queueBad (q : List Byte) (n m : Nat) (core : Bool) : Bool :=
  if fld q 9 1 = 0 then q.any fun b => decide (b ≠ 0)
  else
    let rs := fld q 8 1
    let cs := fld q 24 1
    (if core then decide (rs ≠ 1 ∨ cs ≠ 1) else decide (1 < rs ∨ 1 < cs))
      || decide (fld q 9 1 < 4 ∨ 16 < fld q 9 1 ∨ fld q 25 1 < 4 ∨ 16 < fld q 25 1)
      || decide (fld q 0 8 % 64 ≠ 0 ∨ fld q 16 8 % 32 ≠ 0)
      || decide ((rs = 0 ∧ 2 ^ 39 < fld q 0 8 + n * 2 ^ fld q 9 1) ∨ (cs = 0 ∧ 2 ^ 39 < fld q 16 8 + m * 2 ^ fld q 25 1))

/-- Whether a keep-0 field of a context descriptor is nonzero (Table 10-6). Bits [63:39] of SAVE and REPORT, which the table does not mark so, count
among them, as those of the other addresses: the model's choice (log entry 40). -/
def Ctx.resvBad (x : Ctx) : Bool :=
  decide (16 ≤ x.fld 20 1 ∨ x.fld 21 3 ≠ 0 ∨ x.fld 81 7 ≠ 0 ∨ x.fld 102 26 ≠ 0)
    || [40, 56, 64, 72, 88].any (fun o => decide (2 ^ 39 ≤ x.fld o 8))
    || (List.range 16).any (fun i => queueResv (x.dmaRec (i / 4) (i % 4)))
    || (List.range 64).any fun r => queueResv (x.attnRec r)

/-- Whether a field of a context descriptor breaks a limit of Table 10-6 (R425). -/
def Ctx.limitBad (x : Ctx) : Bool :=
  decide (x.pbase % 8 ≠ 0 ∨ x.pcount % 8 ≠ 0 ∨ x.pcount < 8 ∨ 64 < x.pbase + x.pcount)
    || decide (x.diameter = 0 ∨ x.calmLimit = 0 ∨ x.maxRepeat = 0)
    || decide (x.sbase % 4096 ≠ 0 ∨ x.slimit % 4096 ≠ 0 ∨ x.slimit ≤ x.sbase ∨ 262144 < x.slimit)
    || decide (65536 < x.syncBase + x.syncCount)
    || decide (x.fld 40 8 % 16 ≠ 0 ∨ x.fld 56 8 % 16 ≠ 0 ∨ x.fld 48 4 < 2)
    || decide (x.save % 4096 ≠ 0 ∨ 2 ^ 39 < x.save + 102400 ∨ x.fld 72 8 % 256 ≠ 0 ∨ 16 < x.fld 80 1)
    || decide (2 ^ 39 < x.fld 72 8 + 256 * 2 ^ x.fld 80 1 ∨ 2 ^ 39 < x.eMap + 64)
    || (List.range 16).any (fun i => queueBad (x.dmaRec (i / 4) (i % 4)) 64 32 false)
    || (List.range 64).any fun r => queueBad (x.attnRec r) 128 32 true

/-- Whether the ranges of two contexts overlap (R215). -/
def Ctx.overlaps (x y : Ctx) : Bool :=
  decide (x.pbase < y.pbase + y.pcount ∧ y.pbase < x.pbase + x.pcount)
    || decide (x.sbase < y.slimit ∧ y.sbase < x.slimit)
    || decide (0 < x.syncCount ∧ 0 < y.syncCount ∧ x.syncBase < y.syncBase + y.syncCount ∧ y.syncBase < x.syncBase + x.syncCount)

/-- The context that a descriptor makes. -/
def State.ctxOf (s : State) (d : List Byte) : Ctx :=
  let x : Ctx := { ctxNone with st := .loaded, desc := d }
  { x with step := x.fld 2 6, plan0 := s.planAt (x.fld 40 8) (x.fld 48 4), plan1 := s.planAt (x.fld 56 8) (x.fld 52 4) }

/-- The MA and status of the first sector of the plan versions of a descriptor that cannot be read (R425, check 7). -/
def State.planUnread (s : State) (y : Ctx) : Option (Nat × Nat) :=
  ((s.readFail (y.fld 40 8) (16 * y.fld 48 4)).map fun f => (y.fld 40 8 + f.1, f.2)).orElse fun _ =>
    (s.readFail (y.fld 56 8) (16 * y.fld 52 4)).map fun f => (y.fld 56 8 + f.1, f.2)

/-- Checks 4 to 8 of R425, and the retired bank of R387: a version that cannot be read is not judged by check 6. -/
def State.descStatus (s : State) (c : Nat) (d : List Byte) : Nat :=
  let y : Ctx := { ctxNone with desc := d }
  let n0 := y.fld 48 4
  let n1 := y.fld 52 4
  if y.resvBad then St.CMD_RESERVED_NONZERO
  else if y.limitBad then St.CMD_BAD_FIELD
  else if 2 ^ 39 < y.fld 40 8 + 16 * n0 ∨ 2 ^ 39 < y.fld 56 8 + 16 * n1 then St.PLAN_BAD_ENTRY
  else
    let x := s.ctxOf d
    let t := s.setCtx c x
    let f0 := s.readFail (y.fld 40 8) (16 * n0)
    let f1 := s.readFail (y.fld 56 8) (16 * n1)
    let bad := fun (f : Option (Nat × Nat)) (p : List PlanEntry) =>
      f.isNone && !p.isEmpty && (planInvalid x.diameter p || t.planRefs c p)
    if bad f0 x.plan0 || bad f1 x.plan1 then St.PLAN_BAD_ENTRY
    else match s.planUnread y with
      | some f => f.2
      | none =>
        if (Sparse.keys s.ctxs).any fun k => x.overlaps (s.ctx k) then St.CTX_OVERLAP
        else if s.sync.retired.any fun b => decide (x.syncBase < 256 * b + 256 ∧ 256 * b < x.syncBase + x.syncCount) then St.CTX_BUSY
        else 0

/-- Take a context (R215): its queues count from 0, and lanes that its plans light start to wake (Table 11-11). -/
def State.takeCtx (s : State) (c : Nat) (d : List Byte) : State :=
  let mine := fun (k : Nat) => decide (k / 4 % 64 = c)
  let s := s.setCtx c (s.ctxOf d)
  let t : State := { s with dmaq := Sparse.dropKeys mine s.dmaq, attnq := Sparse.dropKeys (fun k => decide (k % 64 = c)) s.attnq }
  t.parkLanes

/-- Load a context from its descriptor's bytes (R425): a plan version that cannot be read is a storage event outside any context. -/
def State.loadDesc (s : State) (c : Nat) (d : List Byte) : State × Nat :=
  let y : Ctx := { ctxNone with desc := d }
  let st := s.descStatus c d
  let s := (s.fetched (y.fld 40 8) (16 * y.fld 48 4)).fetched (y.fld 56 8) (16 * y.fld 52 4)
  if st = 0 then (s.takeCtx c d, St.HOST_DONE)
  else match s.planUnread y with
    | some f => if st = f.2 then ((s.metPoison f.2 f.1).storageEvent none f.2 f.1, st) else (s, st)
    | none => (s, st)

/-- Free a context (R312): nothing of it remains; a churn's work that was its own is gone. -/
def State.freeCtx (s : State) (c : Nat) : State :=
  let mine := fun (k : Nat) => decide (k / 4 % 64 = c)
  let same := fun (k : Nat) => decide (k % 64 = c)
  let s := s.dropTasks c
  let s : State := { s with
    ctxs := Sparse.del s.ctxs c, dmaq := Sparse.dropKeys mine s.dmaq, attnq := Sparse.dropKeys same s.attnq
    saved := Sparse.dropKeys same s.saved }
  let s := if s.current = some c then
      (let t := (List.range 64).foldl (fun (s : State) ch => s.setChurn ch { s.churn ch with work := workNone }) s
       { t with current := none })
    else s
  s.parkLanes

end Sys2Proof.Machine
end

