-- ==== Sys2Proof/Machine/HostCmds.lean ====
section
/-! DEFINITION. The host-attachment commands (chapter 14): the job ring, the CXL.mem window, the link, the resets of the host
interface. -/

namespace Sys2Proof.Machine

/-! ### The job ring -/

/-- The head line is read into the cache (R311, R312): RSP_DONE counts as the largest read since activation. -/
def State.readHead (s : State) (head rspDone : Nat) : State :=
  ({ s with host := { s.host with headHeld := true, head := head, rspDone := Nat.max s.host.rspDone rspDone } } : State).drainAll

/-- HEAD_LINE_SNOOP (R311, R312): the line is invalidated and read again. Where it has not been read since activation (log entry 40), this is
its first read. -/
def execHeadLineSnoop (head rspDone : BitVec 64) (s : State) : Host.Outcome State Fault Refusal :=
  .next (if s.ringOn && s.host.linkUp then
      (if s.host.headHeld then s.bump 0x2806 0x07 0 else s).readHead head.toNat rspDone.toNat
    else s)

/-- JOB_NOP (R312): an entry that only responds; an entry with an operation that Table 14-3 does not list is rejected. -/
def execJobNop (e : JobEntry) (s : State) : Host.Outcome State Fault Refusal :=
  .next (if jOp e ≤ 4 then s.jobRun e 0 (false, false, false) fun s _ => (s, St.HOST_DONE)
    else if s.takesEntry then s.answerEntry e St.HOST_RING_BAD_ENTRY else s)

/-- LOAD_CONTEXT (R312, R425). -/
def execLoadContext (e : JobEntry) (hostDesc : Option (List Byte)) (env : MemEnv) (s : State) : Host.Outcome State Fault Refusal :=
  .next (s.coherently fun s => s.jobRun e 1 (true, true, false) fun s c =>
    let a := jAddr e
    let host := decide (jSpace e = 3)
    if ¬ (s.ctl.mstate = .ready ∨ s.ctl.mstate = .run) ∨ s.ctl.change = some ModState.standby ∨ s.ctl.change = some ModState.service
        ∨ s.resident c = true then (s, St.CTX_BUSY)
    else if ¬ (jSpace e = 0 ∨ jSpace e = 3) ∨ a % 64 ≠ 0 ∨ (host = false ∧ 2 ^ 39 < a + 2688)
        ∨ (host = true ∧ s.hostOk a 2688 false = false) then (s, St.HOST_RING_BAD_ENTRY)
    else s.insideR env fun s =>
      if host then (match hostDesc with
        | some d => s.loadDesc c (sliceBytes d 0 2688)
        | none => (s.storageEvent none St.DMA_HOST_ERROR 0, St.DMA_HOST_ERROR))
      else match s.readFail a 2688 with
        | some f => ((s.metPoison f.2 (a + f.1)).storageEvent none f.2 (a + f.1), f.2)
        | none => (s.fetched a 2688).loadDesc c (s.memBytes a 2688))

/-- UNLOAD_CONTEXT (R312). -/
def execUnloadContext (e : JobEntry) (s : State) : Host.Outcome State Fault Refusal :=
  .next (s.jobRun e 2 (false, false, false) fun s c =>
    match (s.ctx c).st with
    | .empty => (s, St.CTX_NOT_RESIDENT)
    | .started | .running => (s, St.CTX_BUSY)
    | .loaded | .paused | .stopped => (s.freeCtx c, St.HOST_DONE))

/-- START_CONTEXT (R312): a loaded context, or one that has stopped, runs from a slot at least two ahead. -/
def execStartContext (e : JobEntry) (s : State) : Host.Outcome State Fault Refusal :=
  .next (s.jobRun e 3 (false, false, true) fun s c =>
    let x := s.ctx c
    let busy := (Sparse.keys s.ctxs).any fun k => decide ((s.ctx k).st = .running ∨ (s.ctx k).st = .started)
    if jSlot e < s.slot + 2 then (s, St.HOST_RING_BAD_ENTRY)
    else if s.ctl.mstate ≠ .run ∨ s.ctl.change.isSome = true ∨ s.time.everLock = false ∨ busy = true then (s, St.CTX_BUSY)
    else match x.st with
      | .empty => (s, St.CTX_NOT_RESIDENT)
      | .loaded | .stopped => (s.setCtx c { x with st := .started, startSlot := jSlot e }, St.HOST_DONE)
      | .started | .running | .paused => (s, St.CTX_BUSY))

/-- STOP_CONTEXT (R312): the stop is scheduled for the next STEP_END after a commit; an earlier schedule stands. -/
def execStopContext (e : JobEntry) (s : State) : Host.Outcome State Fault Refusal :=
  .next (s.jobRun e 4 (false, false, false) fun s c =>
    let x := s.ctx c
    match x.st with
    | .empty => (s, St.CTX_NOT_RESIDENT)
    | .loaded | .stopped => (s, St.CTX_BUSY)
    | .started | .running | .paused =>
      (s.setCtx c { x with stopTag := some (x.stopTag.getD (jTag e)) }, St.HOST_DONE))

/-- The ring is active from now on, everything counted from 0 and the head line not yet read (R311, R313). -/
def State.ringStart (s : State) : State :=
  { s.odp 0x2805 0x09 0 1 with host := { s.host with headHeld := false, head := 0, rspDone := 0, taken := 0, rspNext := 0, held := [] } }

/-- The ring is not active: records not yet written are discarded (R313). -/
def State.ringStop (s : State) : State :=
  { s.odp 0x2805 0x09 0 0 with host := { s.host with headHeld := false, held := [] } }

/-- Take a write of OD 0x2805:09 (R311, R313). -/
def State.takeRing (s : State) (v : Nat) : State :=
  if v = 1 then (if s.ringOn then s else s.ringStart) else if s.ringOn then s.ringStop else s

/-- RING_ACTIVATE (R311, R313): a ring that becomes active reads the head line, whose contents the command carries; a value other than 0
and 1 is refused. -/
def execRingActivate (v : BitVec 8) (head rspDone : BitVec 64) (s : State) : Host.Outcome State Fault Refusal :=
  .next (if s.ctl.mstate = .off then s
    else if 1 < v.toNat then s.answered St.OD_VALUE_RANGE
    else
      let t := s.takeRing v.toNat
      let t := if t.ringOn && t.host.linkUp && !t.host.headHeld then t.readHead head.toNat rspDone.toNat else t
      t.answered St.OD_OK)

/-! ### The CXL.mem window (R314-R316) -/

/-- Whether the host reaches bytes of the window now. -/
def State.windowOk (s : State) (o n : Nat) : Bool :=
  s.powered && s.host.committed && s.host.linkUp && decide (0 < n ∧ o + n ≤ s.odg 0x2405 0x02 * 2 ^ 28)

/-- The window lines of a byte range. -/
def linesOf (o n : Nat) : List Nat := (List.range ((o + n - 1) / 64 - o / 64 + 1)).map fun i => o / 64 + i

/-- The base die of a window line. -/
def State.lineDie (s : State) (l : Nat) : Nat := s.lineMa l / 2 ^ 36 % 8

/-- The line that a full filter gives up before it admits another (R315): the oldest entry of the same base die. -/
def State.evictFor (s : State) (l : Nat) : Option Nat :=
  let mine := s.host.filter.filter fun k => decide (s.lineDie k = s.lineDie l)
  if s.host.filter.contains l ∨ mine.length < 262144 then none else mine.head?

/-- HOST_MEM_READ (R314, R315): the lines enter the filter; poison and retired memory are marked; an access to a line with a snoop
outstanding, or that finds the filter full, waits. -/
def execHostMemRead (offset : BitVec 37) (len : BitVec 7) (env : MemEnv) (s : State) : Host.Outcome State Fault Refusal :=
  let o := offset.toNat
  let n := len.toNat
  if s.windowOk o n = false then .next s else
  let ls := linesOf o n
  if ls.any fun l => s.host.snooping.contains l then .next s else
  match ls.filterMap s.evictFor with
  | k :: t => .next (s.snoopLines (k :: t))
  | [] =>
    let a := s.odg 0x2405 0x01 + o
    .next (s.inside env fun s =>
      let s := s.fetched a n
      let sts := (List.range n).map fun i => s.readStatus (a + i)
      let byte := fun i => if s.memRetired (a + i) then 0 else s.memByte (a + i)
      let s := if (s.readFail a n).any fun f => decide (f.2 = St.MEM_REPLAY_FAILED) then s.storageEvent none St.MEM_REPLAY_FAILED a else s
      { s with
        host := { s.host with filter := s.host.filter ++ ls.filter fun l => !s.host.filter.contains l }
        out := .hdm ((List.range n).map byte) (sts.any fun st => decide (st ≠ 0)) :: s.out })

/-- HOST_MEM_WRITE (R314): retired memory and partial writes of poisoned sectors are discarded, whole ones clear the poison; data whose
replays fail is discarded, a storage event (R130, log entry 48). -/
def execHostMemWrite (offset : BitVec 37) (bytes : List Byte) (env : MemEnv) (s : State) : Host.Outcome State Fault Refusal :=
  let o := offset.toNat
  if s.windowOk o bytes.length = false ∨ (linesOf o bytes.length).any (fun l => s.host.snooping.contains l) = true then .next s
  else .next (s.inside env fun s =>
    let w := s.writeRun (s.odg 0x2405 0x01 + o) bytes
    if w.2 = St.MEM_REPLAY_FAILED then w.1.storageEvent none w.2 (s.odg 0x2405 0x01 + o) else w.1)

/-- Forget a line: it leaves the filter and its snoop is over. -/
def State.dropLine (s : State) (l : Nat) : State :=
  { s with host := { s.host with
    filter := s.host.filter.filter (· ≠ l), snooping := s.host.snooping.filter (· ≠ l), asked := Sparse.del s.host.asked l } }

/-- BI_SNOOP_RESPONSE (R315): dirty data goes into the slice, and what waited on the line proceeds. -/
def execBiSnoopResponse (line : BitVec 33) (dirty : Option (List Byte)) (s : State) : Host.Outcome State Fault Refusal :=
  let l := line.toNat
  if s.host.snooping.contains l then
    let s := match dirty with
      | some d => (s.writeRun (s.lineMa l) (sliceBytes d 0 64)).1
      | none => s
    .next (s.dropLine l).retryHeld
  else .next s

/-! ### The link (R318) -/

/-- Put a range of dictionary registers back to their defaults. -/
def State.odDefaults (s : State) (idx lo hi : Nat) : State :=
  { s with od := Sparse.dropKeys (fun k => decide (odKey idx lo 0 ≤ k ∧ k < odKey idx (hi + 1) 0)) s.od }

/-- A host-space descriptor stops with DMA_HOST_ERROR at its first unit (R148, R318). -/
def State.hostStop (s : State) (key i : Nat) (d : Desc) : State :=
  let env : XferEnv := { replays := [], failAt := some (0, .hostError), listFail := none, hostData := [], ecc := [] }
  let ms := if dOp d.bytes = 1 then s.copyMoves d.bytes else if dOp d.bytes = 2 then s.fillMoves d.bytes else []
  (((s.bump 0x2806 0x04 0).doMoves false true ms (s.srcByte []) (some 0)).xferDone key i d env (some (0, St.DMA_HOST_ERROR))
    St.DMA_HOST_ERROR 0 0 0 none).dmaSettle key 17

/-- Every host-space descriptor in flight stops with DMA_HOST_ERROR (R318, R319). -/
def State.hostStops (s : State) : State :=
  (Sparse.keys s.dmaq).foldl (fun s key => match (s.dq key).nextItem with
    | some (i, d) => if d.started && dHost d.bytes then s.hostStop key i d else s
    | none => s) s

/-- The link is down (R318): the head line and every filter entry are dropped, and what waited on a snoop proceeds. -/
def State.linkLost (s : State) : State :=
  let t : State := { s with host := { s.host with linkUp := false, headHeld := false, filter := [], snooping := [], asked := [] } }
  ((t.odp 0x2806 0x01 0 0).odp 0x2806 0x02 0 0).hostStops.retryHeld

/-- The link goes into recovery, and its crossings are reset (R318, Table 17-3). -/
def State.linkRecovers (s : State) : State := (s.bump 0x2806 0x06 0).resetHostSide.linkLost

/-- COHERENCE_TIMEOUT (R316): a snoop unanswered for the completion timeout; its entry is dropped, recorded, and the link treated as
failed. -/
def execCoherenceTimeout (line : BitVec 33) (s : State) : Host.Outcome State Fault Refusal :=
  let l := line.toNat
  if s.host.snooping.contains l = true ∧ Sparse.get (fun _ => 0) s.host.asked l + s.odg 0x2806 0x08 * 10 ^ 6 ≤ s.ctl.clock then
    .next (((s.bump 0x2405 0x05 0).herdEvent 0x2406 (s.lineDie l) 0 (s.lineMa l)).dropLine l).linkRecovers
  else .next s

/-- CXL_LINK_DOWN (R318): link-down or viral. -/
def execCxlLinkDown (s : State) : Host.Outcome State Fault Refusal :=
  .next (if s.host.linkUp then s.linkRecovers else s)

/-- CXL_LINK_UP (R311, R318): width and speed are reported; the head line is read again and the ring resumes. -/
def execCxlLinkUp (width speed : BitVec 8) (head rspDone : BitVec 64) (s : State) : Host.Outcome State Fault Refusal :=
  let w := width.toNat
  let g := speed.toNat
  if (s.powered = false ∧ s.ctl.change ≠ some ModState.ready) ∨ s.ctl.hostReset = true ∨ s.host.linkUp = true ∨ ¬ (w = 1 ∨ w = 2 ∨ w = 4 ∨ w = 8)
      ∨ ¬ (g = 16 ∨ g = 32 ∨ g = 64) then .next s
  else
    let s := (s.odp 0x2806 0x01 0 w).odp 0x2806 0x02 0 g
    let s : State := { s with host := { s.host with linkUp := true } }
    .next (if s.ringOn then s.readHead head.toNat rspDone.toNat else s)

/-- HOST_COMPLETION_TIMEOUT (R318): the next host-space descriptor of a queue, if it may start, stops with DMA_HOST_ERROR at its
first unit. -/
def execHostCompletionTimeout (q : QRef) (s : State) : Host.Outcome State Fault Refusal :=
  let key := qKey q
  match (s.dq key).nextItem with
  | some (i, d) =>
    if s.mayStart key (s.dq key) d = true ∧ s.heldStatus key d = 0 ∧ dHost d.bytes = true ∧ dEmpty d.bytes = false then
      .next ((if (srcSide d.bytes).sp = 3 then s.bump 0x2806 0x05 0 else s).hostStop key i d)
    else .next s
  | none => .next s

/-! ### Resets of the host interface (R319, R369) -/

/-- The host interface at its defaults (R319). -/
def State.hostDefaults (s : State) : State :=
  let s := ((s.hostStops.ringStop.odDefaults 0x2805 0x01 0x09).odDefaults 0x2406 0x01 0x10).resetHostSide
  let t : State := { s with host := { s.host with
    head := 0, rspDone := 0, taken := 0, rspNext := 0, filter := [], snooping := [], asked := [], committed := false } }
  t.retryHeld

/-- FUNCTION_RESET (R319). -/
def execFunctionReset (s : State) : Host.Outcome State Fault Refusal :=
  .next (if s.ctl.hostReset then s else s.hostDefaults)

/-- HOST_RST_N_ASSERT (R369): the reset group is held, with the effects of R319, and the link does not train. -/
def execHostRstNAssert (s : State) : Host.Outcome State Fault Refusal :=
  if s.ctl.hostReset = true ∨ s.tap.frozen.isSome = true then .next s else
  let s := s.hostDefaults.linkLost
  .next { s with ctl := { s.ctl with hostReset := true } }

/-- HOST_RST_N_RELEASE (R369): training may begin. -/
def execHostRstNRelease (s : State) : Host.Outcome State Fault Refusal :=
  .next (if s.tap.frozen.isSome then s else { s with ctl := { s.ctl with hostReset := false } })

/-- HDM_DECODER_COMMIT (R314): the window opens and locks its entries, or closes. -/
def execHdmDecoderCommit (commit : Bool) (s : State) : Host.Outcome State Fault Refusal :=
  if s.host.linkUp = false then .next s
  else if commit then .next { s with host := { s.host with committed := true } }
  else
    let t : State := { s with host := { s.host with committed := false, filter := [], snooping := [], asked := [] } }
    .next t.retryHeld

end Sys2Proof.Machine
end

