-- ==== Sys2Proof/Machine/Power.lean ====
section
/-! DEFINITION. The power and heat commands (chapter 16): current limits, the ramp limiter, droop, the cap controller, disagreement,
the thermal throttle. Each acts on dies that are powered. -/

namespace Sys2Proof.Machine

/-- CURRENT_LIMIT (R341, Table 16-2): the rail's action is in effect, counted and recorded; how far it lowers what it lowers is a free
value (log entry 20). Only VIO.A and VINT are up while the dies are not powered. -/
def execCurrentLimit (rail : BitVec 5) (peak : BitVec 16) (s : State) : Host.Outcome State Fault Refusal :=
  let r := rail.toNat
  if 27 ≤ r then .fault .noSuchUnit
  else if (s.powered = false ∧ r < 25) ∨ s.ctl.mstate = .off ∨ s.pow.limited.any (fun e => decide (e.1 = r)) = true then .next s
  else
    let v := (Config.freeWord s.free).toNat
    let t : State := { s.drawn with pow := { s.pow with limited := s.pow.limited ++ [(r, v, s.ctl.clock)] } }
    let t := (t.bump 0x2006 0x01 r).herdEvent 0x2001 r (peak.toNat : Int) 0
    .next t.settleRamps.settleBallast

/-- CURRENT_LIMIT_RELEASE (R341): the mean has stayed below 90 % of the limit for 1 ms, so the action has lasted that long. -/
def execCurrentLimitRelease (rail : BitVec 5) (s : State) : Host.Outcome State Fault Refusal :=
  if 27 ≤ rail.toNat then .fault .noSuchUnit
  else .next { s with pow := { s.pow with
    limited := s.pow.limited.filter fun e => decide (e.1 ≠ rail.toNat ∨ s.ctl.clock < e.2.2 + 1000000) } }

/-- RAMP_STEP (R343): f_ramp rises by 25 MHz while it lies below the other terms; ballast is drawn where no thermal step and no
current limit stands on the die, and is given up again. -/
def execRampStep (die : BitVec 2) (up ballast : Bool) (s : State) : Host.Outcome State Fault Refusal :=
  let n := die.toNat
  if s.powered = false then .next s
  else if ballast then
    let rest := s.pow.ballast.filter (· ≠ n)
    let t : State := { s with pow := { s.pow with ballast := if up then n :: rest else rest } }
    .next t.settleBallast
  else if up = true ∧ s.fRamp n < s.fOther n then .next (s.setRamp n (Nat.min (s.fRamp n + 25) (s.fOther n)))
  else .next s

/-- DROOP_DETECT (R344): the region is stretched, counted once per entry. R14 has it reported in the herd book, for which Table 19-7 has no
kind: no record is written (log entry 20). -/
def execDroopDetect (region : BitVec 6) (s : State) : Host.Outcome State Fault Refusal :=
  let r := region.toNat
  let m := s.odg 0x2003 0x04
  if s.powered = false ∨ bit m r = true then .next s
  else
    let t : State := { s with pow := { s.pow with droopAt := Sparse.ins r (s.ctl.clock + 1) s.pow.droopAt } }
    .next ((t.odp 0x2003 0x04 0 (m + 2 ^ r)).bump 0x2006 0x02 r)

/-- When the stretch of a region in progress began. -/
def State.droopStart (s : State) (r : Nat) : Nat := Sparse.get (fun _ => 0) s.pow.droopAt r - 1

/-- DROOP_RELEASE (R344): after 64 stretched periods, each two of f_eff. -/
def execDroopRelease (region : BitVec 6) (s : State) : Host.Outcome State Fault Refusal :=
  let r := region.toNat
  let m := s.odg 0x2003 0x04
  if bit m r = false ∨ s.fEff (r / 16) * (s.ctl.clock - s.droopStart r) < 128000 then .next s
  else
    let recent := s.pow.droops.filter fun e => decide (s.ctl.clock < e.2.2 + 1000000)
    let t : State := { s with pow := { s.pow with
      droopAt := Sparse.del s.pow.droopAt r, droops := (r, s.droopStart r, s.ctl.clock) :: recent } }
    .next (t.odp 0x2003 0x04 0 (m - 2 ^ r))

/-- The stretches of a region of the last millisecond, one in progress included, as start and end. -/
def State.stretches (s : State) (r : Nat) : List (Nat × Nat) :=
  ((s.pow.droops.filter fun e => decide (e.1 = r ∧ s.ctl.clock < e.2.2 + 1000000)).map Prod.snd)
    ++ (if bit (s.odg 0x2003 0x04) r then [(s.droopStart r, s.ctl.clock)] else [])

/-- Whether a region was stretched for more than 1 % of the last millisecond, or entered stretch 64 times in it (R345). -/
def State.overStretched (s : State) (r : Nat) : Bool :=
  let from_ := s.ctl.clock - 1000000
  let ss := s.stretches r
  decide (10000 < (ss.map fun e => e.2 - Nat.max e.1 from_).foldl (· + ·) 0)
    || decide (64 ≤ (ss.filter fun e => decide (s.ctl.clock < e.1 + 1000000)).length)

/-- f_ilim of a die as droop leaves it, from now on (R345). -/
def State.setIlim (s : State) (n f : Nat) : State :=
  { s with pow := { s.pow with fIlim := Sparse.set (fun _ => 1200) s.pow.fIlim n f, ilimAt := Sparse.set (fun _ => 0) s.pow.ilimAt n s.ctl.clock } }

/-- SUSTAINED_STRETCH_CHECK (R345): f_ilim falls by 100 MHz at once, and again for each further millisecond that meets the condition; ten
milliseconds without one give 100 MHz back. -/
def execSustainedStretchCheck (die : BitVec 2) (s : State) : Host.Outcome State Fault Refusal :=
  let n := die.toNat
  if s.powered = false then .next s else
  let hit := (List.range 16).any fun k => s.overStretched (16 * n + k)
  let f := Sparse.get (fun _ => 1200) s.pow.fIlim n
  let ago := s.ctl.clock - Sparse.get (fun _ => 0) s.pow.ilimAt n
  if hit = true ∧ f = 1200 then .next ((s.bump 0x2006 0x03 n).setIlim n 1100).settleRamps
  else if hit = true ∧ 1000000 ≤ ago then .next (s.setIlim n (Nat.max 100 (f - 100))).settleRamps
  else if hit = false ∧ f < 1200 ∧ 10000000 ≤ ago then .next (s.setIlim n (Nat.min 1200 (f + 100)))
  else .next s

/-! ### The cap controller (R346-R348) -/

/-- The cap that governs now, in watts (R346): a new one from 1 ms after its write. -/
def State.capNow (s : State) : Nat :=
  if s.ctl.clock < s.pow.capWas.2 then s.pow.capWas.1 else s.odg 0x2000 0x04

/-- Take a new cap (R346). -/
def State.takeCap (s : State) (v : Nat) : State :=
  let was := s.capNow
  let t := s.odp 0x2000 0x04 0 v
  { t with pow := { t.pow with capWas := (was, t.ctl.clock + 1000000) } }

/-- One reduction in the order of Table 16-3; none where every stage is at its limit. -/
def Power.lower (p : Power) : Option Power :=
  if 300 < p.fCap then some { p with fCap := p.fCap - 25 }
  else if 2 < p.pace then some { p with pace := p.pace - 1 }
  else if 4 < p.rate then some { p with rate := p.rate - 1 }
  else if 100 < p.fCap then some { p with fCap := p.fCap - 25 }
  else none

/-- One reduction undone, in the reverse order of Table 16-3 (R347). -/
def Power.higher (p : Power) : Power :=
  if p.fCap < 300 then { p with fCap := p.fCap + 25 }
  else if p.rate < 8 then { p with rate := p.rate + 1 }
  else if p.pace < 8 then { p with pace := p.pace + 1 }
  else if p.fCap < 1200 then { p with fCap := p.fCap + 25 }
  else p

/-- The upper bound of a reading of the input power, in tenths of a watt (R340): ±1.5 % of it ±5 W. -/
def powerBound (m : Nat) : Nat := (1015 * m + 999) / 1000 + 50

/-- What the cap controller compares (R340, R349): the upper bound of a reading, or the estimate where the input is in disagreement and that
is larger. -/
def State.judged (s : State) (m estimate : Nat) : Nat :=
  if bit (s.odg 0x2002 0x05) 27 then Nat.max (powerBound m) estimate else powerBound m

/-- Since when a condition has held, as the clock plus 1: kept, begun now, or 0 where it does not hold. -/
def State.sinceWhen (s : State) (was : Nat) (holds : Bool) : Nat :=
  if holds then (if was = 0 then s.ctl.clock + 1 else was) else 0

/-- Reduce by one step, or hold the stages at their limit (R347). -/
def State.reducePower (s : State) : State :=
  match s.pow.lower with
  | some p => ({ s with pow := { p with reducing := true } } : State).settleRamps
  | none => { s with pow := { s.pow with reducing := true } }

/-- CAP_EVALUATION (R347, R348): the reading moves the times since the input lies above the cap and below 90 % of it; a reduction begins, goes
on, ends, or one step of it is undone. A reading above the cap with every stage at its limit is counted once while it lasts. -/
def execCapEvaluation (r : PowerReading) (s : State) : Host.Outcome State Fault Refusal :=
  if s.powered = false then .next s else
  let cap := 10 * s.capNow
  let m := s.judged r.mean100us r.estimate
  let stuck := decide (cap < m) && s.pow.lower.isNone
  let s := if stuck = true ∧ s.pow.stuck = false then s.bump 0x2006 0x06 0 else s
  let s : State := { s with pow := { s.pow with
    stuck := stuck, overAt := s.sinceWhen s.pow.overAt (decide (cap < m)), underAt := s.sinceWhen s.pow.underAt (decide (100 * m < 90 * cap)) } }
  let starts := (decide (s.pow.overAt ≠ 0) && decide (s.pow.overAt + 8000000 ≤ s.ctl.clock + 1))
    || decide (99 * cap ≤ 100 * s.judged r.mean1s r.estimate)
  if s.pow.reducing then
    if 95 * cap < 100 * m then .next s.reducePower
    else .next { s with pow := { s.pow with reducing := false } }
  else if starts then .next (s.bump 0x2006 0x05 0).reducePower
  else if s.pow.underAt ≠ 0 ∧ s.pow.underAt + 1000000 ≤ s.ctl.clock + 1 ∧ s.capStages ≠ 0 ∧ s.pow.undoAt + 100000 ≤ s.ctl.clock then
    .next { s with pow := { s.pow.higher with undoAt := s.ctl.clock } }
  else .next s

/-- For how many milliseconds a rail has been in disagreement. -/
def State.oddMs (s : State) (r : Nat) : Nat := (s.ctl.clock + 1 - Sparse.get (fun _ => 0) s.pow.oddAt r) / 1000000

/-- ESTIMATE_DISAGREEMENT (R349, Table 19-8): it begins, lasts, or ends; one of 10 s requests service. -/
def execEstimateDisagreement (rail : BitVec 5) (ended : Bool) (s : State) : Host.Outcome State Fault Refusal :=
  let r := rail.toNat
  if 28 ≤ r then .fault .noSuchUnit else
  let m := s.odg 0x2002 0x05
  if s.ctl.mstate = .off then .next s
  else if bit m r = false then
    .next (if ended then s
      else
        let t : State := { s with pow := { s.pow with oddAt := Sparse.set (fun _ => 0) s.pow.oddAt r (s.ctl.clock + 1) } }
        (t.odp 0x2002 0x05 0 (m + 2 ^ r)).bump 0x2006 0x07 0)
  else
    let s := if 10000 ≤ s.oddMs r then s.request 2 else s
    .next (if ended then (s.odp 0x2002 0x05 0 (m - 2 ^ r)).herdEvent 0x2003 r (s.oddMs r : Int) 0 else s)

/-! ### The thermal throttle (R351-R353) -/

/-- Entry temperatures of a photonic die and a junction, in 1/16 °C (Table 16-4). -/
def pdEntry (k : Nat) : Int := [0, 1136, 1168, 1200].getD k 0
/-- See `pdEntry`. -/
def jnEntry (k : Nat) : Int := [0, 1600, 1648, 1680].getD k 0
/-- The slope above which a step is called, in 1/16 °C/ms (Table 16-4). -/
def slEntry (k : Nat) : Int := [0, 64, 96, 128].getD k 0

/-- The highest step that a row of Table 16-4 calls for. -/
def stepCalled (temp slope junction : Int) : Nat :=
  let hit := fun k => decide (pdEntry k ≤ temp) || decide (slEntry k < slope) || decide (jnEntry k ≤ junction)
  if hit 3 then 3 else if hit 2 then 2 else if hit 1 then 1 else 0

/-- Since when a die's readings have met the exit from its step (R352), as the clock plus 1; 0 where they do not. -/
def State.setCool (s : State) (n v : Nat) : State :=
  { s with pow := { s.pow with coolOk := Sparse.set (fun _ => 0) s.pow.coolOk n v } }

/-- The readings of a photonic die that are 250 µs old or older. -/
def State.olderTemps (s : State) (n : Nat) : List (Nat × Int) :=
  (Sparse.get (fun _ => []) s.pow.temps n).dropWhile fun e => decide (s.ctl.clock < e.1 + 250000)

/-- The slope of a photonic die at a reading, in 1/16 °C/ms (R350): four times what it rose since the reading of 250 µs ago; 0 where there is
none yet (its default). -/
def State.slopeAt (s : State) (n : Nat) (temp : Int) : Int :=
  match s.olderTemps n with
  | e :: _ => 4 * (temp - e.2)
  | [] => 0

/-- Note a reading of a photonic die. -/
def State.noteTemp (s : State) (n : Nat) (temp : Int) : State :=
  let recent := (Sparse.get (fun _ => []) s.pow.temps n).takeWhile fun e => decide (s.ctl.clock < e.1 + 250000)
  { s with pow := { s.pow with temps := Sparse.set (fun _ => []) s.pow.temps n ((s.ctl.clock, temp) :: recent ++ (s.olderTemps n).take 1) } }

/-- THERMAL_EVALUATION (R350-R353): readings in 1/16 °C. Every entry into a higher step is counted and recorded. The slope counts with its sign,
as R350 defines it (log entry 20). -/
def execThermalEvaluation (die : BitVec 2) (temp junction : Int) (s : State) : Host.Outcome State Fault Refusal :=
  let n := die.toNat
  if s.powered = false then .next s else
  let slope := s.slopeAt n temp
  let s := s.noteTemp n temp
  let s := ((s.odp 0x2004 0x01 n (uNat 16 junction)).odp 0x2004 0x02 n (uNat 16 temp)).odp 0x2004 0x03 n (uNat 16 slope)
  let s : State := if 64 < slope then { s with ctl := { s.ctl with
    slopeBad := Sparse.set (fun _ => 0) s.ctl.slopeBad n (s.ctl.clock + 1) } } else s
  let now := s.odg 0x2004 0x05 n
  let up := stepCalled temp slope junction
  let since := Sparse.get (fun _ => 0) s.pow.coolOk n
  if now < up then
    let s := s.bump 0x2006 0x04 n
    let s := ((s.odp 0x2004 0x05 n up).herdEvent 0x2002 n (up : Int) (uNat 64 slope)).setCool n 0
    .next s.settleRamps.settleBallast
  else if now = 0 then .next s
  else if temp ≤ pdEntry now - 32 ∧ slope ≤ 32 ∧ junction ≤ jnEntry now - 32 then
    let t := if since = 0 then s.ctl.clock + 1 else since
    if t + 1000000 ≤ s.ctl.clock + 1 then .next ((s.odp 0x2004 0x05 n (now - 1)).setCool n 0)
    else .next (s.setCool n t)
  else .next (s.setCool n 0)

end Sys2Proof.Machine
end

