-- ==== Sys2Proof/Machine/Clocks.lean ====
section
/-! DEFINITION. The trigger lines, clock stops and wakes, and crossing resets (chapter 17). -/

namespace Sys2Proof.Machine

/-- The clock at something noted of a trigger line as the clock plus 1, and how long ago that was; none where nothing is noted. -/
def State.agoOf (s : State) (m : Sparse Nat) (k : Nat) : Option Nat :=
  let at_ := Sparse.get (fun _ => 0) m k
  if at_ = 0 then none else some (s.ctl.clock + 1 - at_)

/-- An event of a trigger line (R361, R362): one that follows the last within 8 ns is counted and may be merged, which is a free value (log
entry 21); the stamp lies within 1 ns of the transition. -/
def State.triggered (s : State) (k : Nat) : State :=
  let draw := (Config.freeWord s.free).toNat
  let soon := match s.agoOf s.clk.trigAt k with
    | some n => decide (n < 8)
    | none => false
  let s : State := { s.drawn with clk := { s.clk with trigAt := Sparse.set (fun _ => 0) s.clk.trigAt k (s.ctl.clock + 1) } }
  let s := if soon then s.bump 0x2101 0x05 k else s
  if soon = true ∧ bit draw 0 = true then s else
  let stamp := s.time.fabric + draw / 2 % 3 - 1
  let s := ((s.bump 0x2101 0x03 k).odp 0x2101 0x04 k stamp).traced 6 0 k 0 0 0
  let o := s.odg 0x2101 0x02 k
  if o = 0xFFFF ∨ s.powered = false then s else s.signal o 1

/-- TRIGGER_EVENT (R362): a transition of a line. In pulse-to-toggle mode each is an event; in native mode a rising edge after the line
has been low for 3 ns. During EXTEST the logic sees no transition (R405). -/
def execTriggerEvent (line : BitVec 2) (rising : Bool) (s : State) : Host.Outcome State Fault Refusal :=
  let k := line.toNat
  if s.ctl.mstate = .off ∨ s.tap.frozen.isSome = true then .next s
  else if bit s.clk.mode k then .next (s.triggered k)
  else if rising = false then .next { s with clk := { s.clk with fellAt := Sparse.set (fun _ => 0) s.clk.fellAt k (s.ctl.clock + 1) } }
  else if (s.agoOf s.clk.fellAt k).all (fun n => decide (3 ≤ n)) = true then .next (s.triggered k)
  else .next s

/-- How many instances a clock domain has (Table 17-1). -/
def domainInstances (d : Nat) : Nat :=
  [64, 4, 64, 4, 4, 4, 48, 4, 8, 8, 4, 1, 1, 1, 1, 2, 1, 1].getD (d - 1) 0

/-- Whether an instance of a domain may stop now (Table 17-1); the die-to-die link's idle microsecond is the command's own. -/
def State.mayStop (s : State) (d i : Nat) : Bool :=
  match d with
  | 1 => decide ((s.churn i).work.queue = [] ∧ (s.churn i).work.fifo = []) &&
      match s.runningCtx with
      | some c => s.regionIdle c i
      | none => true
  | 3 => decide ((s.churn i).st = .dark ∨ (s.churn i).st = .retired)
  | 7 => (s.litLanes false i).isEmpty
  | 11 => s.powered
  | 12 => !s.host.linkUp
  | 17 => true
  | _ => false

/-- CLOCK_STOP (R363): a domain that may not stop keeps running. -/
def execClockStop (domain : BitVec 5) (inst : BitVec 6) (s : State) : Host.Outcome State Fault Refusal :=
  let d := domain.toNat
  let i := inst.toNat
  if ¬ i < domainInstances d then .fault .noSuchUnit
  else if s.mayStop d i = true ∧ s.clk.stopped.contains (clockKey d i) = false then
    .next { s with clk := { s.clk with stopped := clockKey d i :: s.clk.stopped } }
  else .next s

/-- CLOCK_WAKE (R364). -/
def execClockWake (domain : BitVec 5) (inst : BitVec 6) (s : State) : Host.Outcome State Fault Refusal :=
  let d := domain.toNat
  let i := inst.toNat
  if ¬ i < domainInstances d then .fault .noSuchUnit
  else .next (s.wakeClocks fun k => decide (k = clockKey d i))

/-- How many instances a reset group has (Table 17-3). -/
def groupInstances (g : Nat) : Nat := [1, 1, 4, 1, 4, 48, 2, 1, 4].getD g 0

/-- CROSSING_RESET (R365, R366): a reset of an instance of a group, numbered as the rows of Table 17-3, that no other command causes. -/
def execCrossingReset (group : BitVec 4) (inst : BitVec 6) (s : State) : Host.Outcome State Fault Refusal :=
  let g := group.toNat
  let i := inst.toNat
  if ¬ i < groupInstances g then .fault .noSuchUnit
  else .next (if s.ctl.mstate = .off then s else s.resetGroup g (if g = 0 then 0 else 1) (groupHits g i))

end Sys2Proof.Machine
end

