-- ==== Sys2Proof/Machine/CoreMove.lean ====
section
/-! DEFINITION. The move, churn and synchronisation instructions of a core (Table 04-4, opcodes 0xA0 to 0xC5) and the
breakpoint event (R409). -/

namespace Sys2Proof.Machine

/-- The byte address of a move, s[SB][17:0] (R83). -/
def CoreFile.moveBase (f : CoreFile) (sb : Nat) : Nat := (f.reg sb).toNat % 2 ^ 18

/-- The row stride of a move, s[SB + 1][17:0] (R83). -/
def CoreFile.moveStride (f : CoreFile) (sb : Nat) : Nat := (f.reg (sb + 1)).toNat % 2 ^ 18

/-- The address of element i of size e: 16 elements per row, stride 0 for contiguous rows (R83). -/
def CoreFile.moveAddr (f : CoreFile) (sb e i : Nat) : Nat :=
  let st := f.moveStride sb
  f.moveBase sb + i / 16 * (if st = 0 then 16 * e else st) + i % 16 * e

/-- The element size of a move format (R83): BF16 two bytes, FP8 and churn codes one. -/
def moveSize (fmt : Nat) : Nat := if fmt = 1 then 2 else 1

/-- Whether a move's address and stride are multiples of 16 and every unmasked element's bytes lie in the context's range
(R74, R83, log entry 29). -/
def State.moveOk (s : State) (core c : Nat) (v : VWord) (e : Nat) : Bool :=
  let f := s.file core c
  decide (f.moveBase v.sb % 16 = 0 ∧ f.moveStride v.sb % 16 = 0)
    && (f.live v.km).all fun i => (s.ctx c).inStore (f.moveAddr v.sb e i) e

/-- The word that a move names, for R386. -/
def moveWord (_c : Nat) (f : CoreFile) (w : Nat) : Nat := f.moveBase (vword w).sb

/-- A load of 256 elements (R83): misaligned or outside raises core fault 3. -/
def loadOp (size : VWord → Nat) (conv : VWord → Nat → Word × BitVec 4) (s : State) (core c w : Nat) : State :=
  let v := vword w
  let e := size v
  if s.moveOk core c v e then
    let f := s.file core c
    s.elementwise core c v fun i => conv v (leNat (s.storeBytes core (f.moveAddr v.sb e i) e))
  else s.coreFault core c 3

/-- A store of 256 elements (R83): masked elements' bytes are not written. Where rows overlap, elements are written in ascending index and the
last stands; the manual does not say (log entry 29). -/
def storeOp (size : VWord → Nat) (conv : State → Nat → Nat → VWord → Nat → Word → Nat × BitVec 4)
    (s : State) (core c w : Nat) : State :=
  let v := vword w
  let e := size v
  if s.moveOk core c v e then
    let f := s.file core c
    let pa := (s.ctx c).pailOf v.pa
    let res := (f.live v.km).map fun i => (f.moveAddr v.sb e i, conv s core c v i (s.pail core pa i))
    let fl := res.foldl (fun a r => a ||| r.2.2) f.flags
    (res.foldl (fun s r => s.putStoreRun core r.1 (leBytes e r.2.1)) s).nextPc core c { f with flags := fl }
  else s.coreFault core c 3

/-- PLD (R83): 16 rows of 64 bytes into a pail. -/
def execPld (i : Issue) (s : State) : Host.Outcome State Fault Refusal :=
  .next (s.issue i [0xA0] moveWord (loadOp (fun _ => 4) fun _ n => (BitVec.ofNat 32 n, 0)))

/-- PST (R83): 16 rows of 64 bytes from a pail. -/
def execPst (i : Issue) (s : State) : Host.Outcome State Fault Refusal :=
  .next (s.issue i [0xA1] moveWord (storeOp (fun _ => 4) fun _ _ _ _ _ a => (a.toNat, 0)))

/-- One element of PLDW (R83, R99), a NaN source being seen (R101). -/
def pldwOne (v : VWord) (n : Nat) : Word × BitVec 4 :=
  if v.fmt = 5 then (int32 (codeOf (BitVec.ofNat 8 n)), 0)
  else
    let t := if v.fmt = 1 then bf16 else if v.fmt = 2 then e4m3 else e5m2
    (t.widen n, if (t.decode n).isNan then flagSeen else 0)

/-- PLDW (R83, R99): 256 narrow elements, widened exactly. -/
def execPldw (i : Issue) (s : State) : Host.Outcome State Fault Refusal :=
  .next (s.issue i [0xA2] moveWord (loadOp (fun v => moveSize v.fmt) pldwOne))

/-- One element of PSTN (R83, R100, R101). -/
def pstnOne (s : State) (core c : Nat) (v : VWord) (i : Nat) (a : Word) : Nat × BitVec 4 :=
  let u := if v.rnd = 2 then s.coreDraw core c v.sb i else 0
  if v.fmt = 5 then
    let r := narrowInt (val32 a) v.rnd u (-127) 127
    (uNat 8 r.1, r.2)
  else
    let t := if v.fmt = 1 then bf16 else if v.fmt = 2 then e4m3 else e5m2
    t.narrow (val32 a) v.rnd u

/-- PSTN (R83): 256 elements narrowed from FP32. -/
def execPstn (i : Issue) (s : State) : Host.Outcome State Fault Refusal :=
  .next (s.issue i [0xA3] moveWord (storeOp (fun v => moveSize v.fmt) pstnOne))

/-- The queue of a region's churn is full (R36). -/
def queueFull (s : State) (ch : Nat) : Bool := decide (32 ≤ (s.churn ch).work.queue.length)

/-- CISSUE (R84): the 32 bytes of s[SA] to s[SA + 3] enter the queue of the region's churn; while its 32 entries are taken
the core stalls and the instruction issues again. -/
def execCissue (i : Issue) (s : State) : Host.Outcome State Fault Refusal :=
  .next (if s.stalls i 0xC0 queueFull then s else s.issue i [0xC0] noMove fun s core c w =>
    let f := s.file core c
    let ch := coreRegion core
    let x := s.churn ch
    let cmd := ((List.range 4).map fun k => leBytes 8 (f.reg ((sword w).sa + k)).toNat).flatten
    ((s.setChurn ch { x with work := { x.work with queue := x.work.queue ++ [cmd] } }).chSettle ch).nextPc core c f)
where
  /-- These instructions read no pail and no core store. -/
  noMove (_c : Nat) (_f : CoreFile) (_w : Nat) : Nat := 2 ^ 20

/-- The registers after a completion record was popped (R85). -/
def CoreFile.popped (f : CoreFile) (sd : Nat) (r : List Byte) : CoreFile :=
  (f.setReg sd (BitVec.ofNat 64 (fld r 0 8))).setReg (sd + 1) (BitVec.ofNat 64 (fld r 8 8))

/-- No completion record waits in a region's FIFO (R85). -/
def fifoEmpty (s : State) (ch : Nat) : Bool := (s.churn ch).work.fifo.isEmpty

/-- CPOP (R85): the oldest completion record into s[SD] and s[SD + 1]; on an empty FIFO the core waits and the instruction
issues again. -/
def execCpop (i : Issue) (s : State) : Host.Outcome State Fault Refusal :=
  .next (if s.stalls i 0xC1 fifoEmpty then s else s.issue i [0xC1] noPop fun s core c w =>
    let f := s.file core c
    let ch := coreRegion core
    let x := s.churn ch
    match x.work.fifo with
    | r :: t =>
      let s := s.nextPc core c (f.popped (sword w).sd r)
      ((s.setChurn ch { x with work := { x.work with fifo := t } }).chRefill ch).chSettle ch
    | [] => s)
where
  /-- A pop reads no pail and no core store. -/
  noPop (_c : Nat) (_f : CoreFile) (_w : Nat) : Nat := 2 ^ 20

/-- CPOPNB (R85): as CPOP with s[SB] = 1 when a record is present; s[SB] = 0 and no other register changed when none is. -/
def execCpopnb (i : Issue) (s : State) : Host.Outcome State Fault Refusal :=
  .next (s.issue i [0xC2] noPopNb fun s core c w =>
    let f := s.file core c
    let x := sword w
    let ch := coreRegion core
    let k := s.churn ch
    match k.work.fifo with
    | r :: t =>
      let s := s.nextPc core c ((f.popped x.sd r).setReg x.sb 1)
      ((s.setChurn ch { k with work := { k.work with fifo := t } }).chRefill ch).chSettle ch
    | [] => s.nextPc core c (f.setReg x.sb 0))
where
  /-- A pop reads no pail and no core store. -/
  noPopNb (_c : Nat) (_f : CoreFile) (_w : Nat) : Nat := 2 ^ 20

/-- A core's access reads an object of whose two copies those in `bad` fail parity (R387): one is rewritten and counts as a replay, both lose
the object. -/
def State.readObj (s : State) (core o : Nat) (bad : BitVec 2) : State :=
  if bad = 0 then s else if bad = 3 then s.loseObj o else s.replayed 1 (64 + core / 1024) false

/-- SSIG (R211, R387): signals object s[SA][15:0] with s[SB]. -/
def execSsig (i : Issue) (badCopies : BitVec 2) (s : State) : Host.Outcome State Fault Refusal :=
  .next (s.issue i [0xC3] noSig fun s core c w =>
    let f := s.file core c
    let o := (f.reg (sword w).sa).toNat % 2 ^ 16
    let s := s.readObj core o badCopies
    (s.signal o (f.reg (sword w).sb)).nextPc core c f)
where
  /-- A signal reads no pail and no core store. -/
  noSig (_c : Nat) (_f : CoreFile) (_w : Nat) : Nat := 2 ^ 20

/-- SWAIT (R211, R387): goes on when object s[SA][15:0] satisfies s[SB]; else the core waits until WAIT_RESUME. -/
def execSwait (i : Issue) (badCopies : BitVec 2) (s : State) : Host.Outcome State Fault Refusal :=
  .next (s.issue i [0xC4] noWait fun s core c w =>
    let f := s.file core c
    let o := (f.reg (sword w).sa).toNat % 2 ^ 16
    let v := f.reg (sword w).sb
    let s := (s.readObj core o badCopies).touchObj o
    if s.satisfied o v then s.nextPc core c f else s.setFile core c { f with waiting := some (o, v.toNat) })
where
  /-- A wait reads no pail and no core store. -/
  noWait (_c : Nat) (_f : CoreFile) (_w : Nat) : Nat := 2 ^ 20

/-- FENCE (R76): every earlier instruction of the core has completed, since the model completes each at its issue (R73). -/
def execFence (i : Issue) (s : State) : Host.Outcome State Fault Refusal :=
  .next (s.issue i [0xC5] noFence fun s core c _ => s.nextPc core c (s.file core c))
where
  /-- A fence reads no pail and no core store. -/
  noFence (_c : Nat) (_f : CoreFile) (_w : Nat) : Nat := 2 ^ 20

/-- BREAKPOINT_HIT (R409): the core halts before it issues the instruction at its PC, where an enabled breakpoint stands.
Traced (R412). -/
def execBreakpointHit (core : BitVec 12) (s : State) : Host.Outcome State Fault Refusal :=
  let k := core.toNat
  match s.runningCtx with
  | none => .next s
  | some c =>
    let f := s.file k c
    if s.coreEnabled k && f.running && !f.faulted && !f.halted && f.waiting.isNone && f.atBp && !f.bpPass then
      .next ((s.setFile k c { f with halted := true, bpHit := true }).traced 5 0 (coreUnit k) 0 0 f.pc)
    else .next s

end Sys2Proof.Machine
end

