-- ==== Sys2Proof/Machine/CoreScalar.lean ====
section
/-! DEFINITION. The scalar instructions of a core (Table 04-4, opcodes 0x00 to 0x11). -/

namespace Sys2Proof.Machine

/-- No word of the pails or core store: the data of a scalar instruction. -/
def noWord (_c : Nat) (_f : CoreFile) (_w : Nat) : Nat := 2 ^ 20

/-- A 64-bit integer operation on s[SA] and the second operand into s[SD]. -/
def scalarOp (op : Dword → Dword → Dword) (s : State) (core c w : Nat) : State :=
  let f := s.file core c
  let x := sword w
  s.nextPc core c (f.setReg x.sd (op (f.reg x.sa) (f.second x)))

/-- The core-store address of SLD and SST: s[SA] + IMM32, 64 bits. -/
def CoreFile.slsAddr (f : CoreFile) (w : Nat) : Nat := (f.reg (sword w).sa + BitVec.ofInt 64 (sword w).imm).toNat

/-- The word of the core store that SLD and SST name. -/
def slsWord (_c : Nat) (f : CoreFile) (w : Nat) : Nat := f.slsAddr w

/-- NOP does nothing (R76). -/
def execNop (i : Issue) (s : State) : Host.Outcome State Fault Refusal :=
  .next (s.issue i [0x00] noWord fun s core c _ => s.nextPc core c (s.file core c))

/-- SADD (R76): 64-bit sum. -/
def execSadd (i : Issue) (s : State) : Host.Outcome State Fault Refusal :=
  .next (s.issue i [0x01] noWord (scalarOp fun a b => a + b))

/-- SSUB (R76): 64-bit difference. -/
def execSsub (i : Issue) (s : State) : Host.Outcome State Fault Refusal :=
  .next (s.issue i [0x02] noWord (scalarOp fun a b => a - b))

/-- SMUL (R76): the low 64 bits of the product. -/
def execSmul (i : Issue) (s : State) : Host.Outcome State Fault Refusal :=
  .next (s.issue i [0x03] noWord (scalarOp fun a b => a * b))

/-- SAND (R76). -/
def execSand (i : Issue) (s : State) : Host.Outcome State Fault Refusal :=
  .next (s.issue i [0x04] noWord (scalarOp fun a b => a &&& b))

/-- SOR (R76). -/
def execSor (i : Issue) (s : State) : Host.Outcome State Fault Refusal :=
  .next (s.issue i [0x05] noWord (scalarOp fun a b => a ||| b))

/-- SXOR (R76). -/
def execSxor (i : Issue) (s : State) : Host.Outcome State Fault Refusal :=
  .next (s.issue i [0x06] noWord (scalarOp fun a b => a ^^^ b))

/-- SSHL (R76): shift left by bits [5:0] of the second operand. -/
def execSshl (i : Issue) (s : State) : Host.Outcome State Fault Refusal :=
  .next (s.issue i [0x07] noWord (scalarOp fun a b => a <<< (b.toNat % 64)))

/-- SSHR (R76): logical shift right by bits [5:0] of the second operand. -/
def execSshr (i : Issue) (s : State) : Host.Outcome State Fault Refusal :=
  .next (s.issue i [0x08] noWord (scalarOp fun a b => a >>> (b.toNat % 64)))

/-- SSRA (R76): arithmetic shift right by bits [5:0] of the second operand. -/
def execSsra (i : Issue) (s : State) : Host.Outcome State Fault Refusal :=
  .next (s.issue i [0x09] noWord (scalarOp fun a b => a.sshiftRight (b.toNat % 64)))

/-- SLI (R76): s[SD] = IMM32 sign-extended. -/
def execSli (i : Issue) (s : State) : Host.Outcome State Fault Refusal :=
  .next (s.issue i [0x0A] noWord fun s core c w =>
    let f := s.file core c
    s.nextPc core c (f.setReg (sword w).sd (BitVec.ofInt 64 (sword w).imm)))

/-- SLIH (R76): s[SD][63:32] = IMM32, bits [31:0] unchanged. -/
def execSlih (i : Issue) (s : State) : Host.Outcome State Fault Refusal :=
  .next (s.issue i [0x0B] noWord fun s core c w =>
    let f := s.file core c
    let old := (f.reg (sword w).sd).toNat % 2 ^ 32
    s.nextPc core c (f.setReg (sword w).sd (BitVec.ofNat 64 (old + bits w 63 32 * 2 ^ 32))))

/-- Whether a branch condition holds (Table 04-3). -/
def branchTaken (cond : Nat) (a b : Dword) : Bool :=
  match cond with
  | 0 => decide (a = b)
  | 1 => decide (a ≠ b)
  | 2 => decide (a.toInt < b.toInt)
  | 3 => decide (b.toInt ≤ a.toInt)
  | 4 => decide (a.toNat < b.toNat)
  | 5 => decide (b.toNat ≤ a.toNat)
  | _ => true

/-- The PC after a branch (R76): PC + 8 × IMM32 where taken. A target below 0 lies outside every core-store range, which the
next fetch reports. -/
def branchPc (pc : Nat) (imm : Int) : Nat := ((pc : Int) + 8 * imm).toNat + (if (pc : Int) + 8 * imm < 0 then 2 ^ 64 else 0)

/-- BR (R76). -/
def execBr (i : Issue) (s : State) : Host.Outcome State Fault Refusal :=
  .next (s.issue i [0x0C] noWord fun s core c w =>
    let f := s.file core c
    let x := sword w
    if branchTaken x.cond (f.reg x.sa) (f.reg x.sb) then s.setFile core c { f with pc := branchPc f.pc x.imm }
    else s.nextPc core c f)

/-- SLD (R76, R92): 64-bit load from a multiple of 8 in the context's range, else core fault 3. -/
def execSld (i : Issue) (s : State) : Host.Outcome State Fault Refusal :=
  .next (s.issue i [0x0E] slsWord fun s core c w =>
    let f := s.file core c
    let a := f.slsAddr w
    if a % 8 = 0 ∧ (s.ctx c).inStore a 8 = true then
      s.nextPc core c (f.setReg (sword w).sd (BitVec.ofNat 64 (leNat (s.storeBytes core a 8))))
    else s.coreFault core c 3)

/-- SST (R76, R92): 64-bit store of s[SB] to a multiple of 8 in the context's range, else core fault 3. -/
def execSst (i : Issue) (s : State) : Host.Outcome State Fault Refusal :=
  .next (s.issue i [0x0F] slsWord fun s core c w =>
    let f := s.file core c
    let a := f.slsAddr w
    if a % 8 = 0 ∧ (s.ctx c).inStore a 8 = true then
      (s.putStoreRun core a (leBytes 8 (f.reg (sword w).sb).toNat)).nextPc core c f
    else s.coreFault core c 3)

/-- The system value of a selector (R95). -/
def State.sysValue (s : State) (core c sel : Nat) : Nat :=
  match sel with
  | 0 => s.logicalIndex core
  | 1 => core % 1024
  | 2 => s.enabled (coreRegion core)
  | 3 => s.stampOf core
  | 4 => (s.file core c).flags.toNat
  | _ => c

/-- SRDSYS (R95): reads a system value; selector 4 then clears the numeric flags, selector 3 takes a time stamp (R361). -/
def execSrdsys (i : Issue) (s : State) : Host.Outcome State Fault Refusal :=
  .next (s.issue i [0x10] noWord fun s core c w =>
    let sel := (sword w).imm.toNat
    let v := s.sysValue core c sel
    let s := if sel = 3 then s.stamped core else s
    let f := s.file core c
    let f := if sel = 4 then { f with flags := 0 } else f
    s.nextPc core c (f.setReg (sword w).sd (BitVec.ofNat 64 v)))

/-- END (R93, Table 10-3): the program is finished; the core fetches nothing until a plan starts it anew. A START entry all
of whose cores have ended completes. -/
def execEndp (i : Issue) (s : State) : Host.Outcome State Fault Refusal :=
  .next (s.issue i [0x11] noWord fun s core c _ =>
    let f := s.file core c
    (s.setFile core c { f with running := false, pc := f.pc + 8 }).settleStarts c)

end Sys2Proof.Machine
end

