-- ==== Sys2Proof/Machine/Secure.lean ====
section
/-! DEFINITION. Firmware image, fuses, security operations, presence and attestation (chapter 18). -/

namespace Sys2Proof.Machine

/-! ### Fuses (R377) -/

/-- A fuse byte. -/
def State.fuse (s : State) (i : Nat) : Byte := Sparse.get fuseDefault s.sec.fuses i

/-- Fuse bytes from an offset. -/
def State.fuseBytes (s : State) (o n : Nat) : List Byte := (List.range n).map fun i => s.fuse (o + i)

/-- Where owner slot k begins (Table 18-6). -/
def slotAt (k : Nat) : Nat := 260 + 64 * k

/-- A slot is free when all its bytes are 0. -/
def State.slotFree (s : State) (k : Nat) : Bool := (s.fuseBytes (slotAt k) 64).all fun b => decide (b = 0)

/-- CHECK of an owner key: the first two bytes of its SHAKE256. -/
def keyCheck (key : List Byte) : List Byte := takeFn 2 (Config.shake256 key)

/-- A slot is valid when PROGRAMMED is 1, REVOKED is 0 and CHECK is the key's. -/
def State.slotValid (s : State) (k : Nat) : Bool :=
  (s.fuse (slotAt k + 59)).getLsbD 0 && !(s.fuse (slotAt k + 59)).getLsbD 1
    && decide (s.fuseBytes (slotAt k + 57) 2 = keyCheck (s.fuseBytes (slotAt k) 57))

/-- The valid owner slots, ascending. -/
def State.validSlots (s : State) : List Nat := listBelow s.slotValid 8

/-- The fused SVN counter: the number of its programmed bits. -/
def State.svnCount (s : State) : Nat := countBelow (fun b => (s.fuse (252 + b / 8)).getLsbD (b % 8)) 64

/-- Whether a vendor key is revoked. -/
def State.vendorRevoked (s : State) (k : Nat) : Bool := (s.fuse 251).getLsbD k

/-- Program fuse bits, each numbered 8 × byte + bit. -/
def State.burn (s : State) (bs : List Nat) : State :=
  { s with sec := { s.sec with fuses := bs.foldl (fun f b =>
      Sparse.set fuseDefault f (b / 8) (Sparse.get fuseDefault f (b / 8) ||| BitVec.ofNat 8 (2 ^ (b % 8)))) s.sec.fuses } }

/-- The bits that bytes from an offset set. -/
def bitsOf (o : Nat) (bs : List Byte) : List Nat :=
  ((List.range (8 * bs.length)).filter fun i => (bs.getD (i / 8) 0).getLsbD (i % 8)).map fun i => 8 * o + i

/-- What remains of a word that ends early (R379, R380): which of its bits are programmed is a free value (log entry 22); bits
programmed in ascending order are so up to one of them. -/
def partWord (draw : Nat) (asc : Bool) (w : List Nat) : List Nat :=
  let v := (Config.freeWord draw).toNat
  if asc then w.take (v % (w.length + 1))
  else (w.zipIdx.filter fun e => bit v (e.2 % 64)).map Prod.fst

/-- Program words in order (R379): whether every one was. -/
def State.fuseRun (s : State) (ws : List (List Nat)) (asc : Bool) (env : FuseEnv) : State × Bool :=
  match env.failAfter with
  | none => (s.burn ws.flatten, true)
  | some n =>
    match ws[n]? with
    | none => (s.burn ws.flatten, true)
    | some w => ((s.burn ((ws.take n).flatten ++ partWord s.free asc w)).drawn, false)

/-! ### Measurements (R381) -/

/-- Extend measurement register k. -/
def State.extend (s : State) (k : Nat) (r : List Byte) : State :=
  { s with sec := { s.sec with meas := s.sec.meas.set k (extendMeas (s.sec.meas.getD k []) r) } }

/-- Extend M3 with an entry and the bytes written. -/
def State.extendOp (s : State) (idx sub : Nat) (bs : List Byte) : State :=
  s.extend 3 (leBytes 2 idx ++ leBytes 1 sub ++ bs)

/-! ### The image (R370, R371) -/

/-- The n bytes of the image buffer from an offset; a byte that no chunk wrote reads 0 (log entry 13). -/
def State.imageBytes (s : State) (o n : Nat) : List Byte :=
  (List.range n).map fun i => Sparse.get (fun _ => (0 : Byte)) s.sec.buf (o + i)

/-- The status of a chunk write, 0 where it is taken (R370). -/
def State.chunkStatus (s : State) (bs : List Byte) : Nat :=
  if bs.length ≠ 65536 then St.OD_SIZE_MISMATCH
  else if 2 ^ 24 < s.odg 0x1110 0x01 + 65536 then St.OD_VALUE_RANGE
  else if s.ctl.mstate ≠ .standby ∨ s.ctl.change.isSome = true then St.STATE_REFUSED
  else 0

/-- Forget the verified image. -/
def State.unverified (s : State) (st : Nat) : State :=
  let t := (s.odp 0x1110 0x06 0 st).odp 0x1000 0x06 0 0
  { t with sec := { t.sec with verified := none } }

/-- Take a chunk: at the offset, which then advances; the state is LOADING. -/
def State.takeChunk (s : State) (bs : List Byte) : State :=
  let o := s.odg 0x1110 0x01
  let t : State := { s with sec := { s.sec with buf := bs.zipIdx.foldl (fun m b => Sparse.set (fun _ => (0 : Byte)) m (o + b.2) b.1) s.sec.buf } }
  ((t.odp 0x1110 0x01 0 (o + 65536)).odp 0x1110 0x03 0 (Nat.max (t.odg 0x1110 0x03) (o + 65536))).unverified 1

/-- A write of the dictionary answered with its status, and applied where that is 0 (R322); none is answered in OFF. -/
def State.writtenIf (s : State) (st : Nat) (act : State → State) : State :=
  if s.ctl.mstate = .off then s else (if st = 0 then act s else s).answered st

/-- IMAGE_CHUNK_WRITE (R370). -/
def execImageChunkWrite (bytes : List Byte) (s : State) : Host.Outcome State Fault Refusal :=
  .next (s.writtenIf (s.chunkStatus bytes) fun s => s.takeChunk bytes)

/-- What a verification of a header and its body finds (R371), in the order listed: a status, 0 where the image verifies, and the
owner slot that verified it. -/
def State.imageCheck (s : State) : Nat × Nat :=
  let h := s.imageBytes 0 512
  let signed := h.take 96
  let vk := fld h 13 1 % 4
  if fld h 0 4 ≠ 0x4D574650 ∨ fld h 4 2 ≠ 1 ∨ fld h 13 1 / 4 ≠ 0 ∨ fld h 14 2 ≠ 0 ∨ fld h 20 12 ≠ 0 ∨ fld h 324 188 ≠ 0
      ∨ fld h 16 4 = 0 ∨ 16776704 < fld h 16 4 ∨ fld h 12 1 < s.svnCount then (St.FW_BAD_IMAGE, 0)
  else if s.vendorRevoked vk then (St.SEC_KEY_REVOKED, 0)
  else if takeFn 64 (Config.shake256 (s.imageBytes 512 (fld h 16 4))) ≠ sliceBytes h 32 64
      ∨ Config.ed448Verify (takeFn 57 (Config.vendorKey vk)) signed (sliceBytes h 96 114) = false then (St.FW_BAD_SIGNATURE, 0)
  else match s.validSlots.find? fun k => Config.ed448Verify (s.fuseBytes (slotAt k) 57) signed (sliceBytes h 210 114) with
    | some k => (0, k)
    | none => (St.FW_BAD_SIGNATURE, 0)

/-- The status of a verify write, 0 where it is taken. -/
def State.verifyStatus (s : State) (v : Nat) : Nat :=
  if v ≠ 1 then St.OD_VALUE_RANGE
  else if s.ctl.mstate ≠ .standby ∨ s.ctl.change.isSome = true then St.STATE_REFUSED
  else 0

/-- Verify the image (R370, R371): a VERIFIED image extends M1 with header bytes 0-95 (R381). -/
def State.takeVerify (s : State) : State :=
  let r := s.imageCheck
  let h := s.imageBytes 0 96
  let s := s.odp 0x1110 0x05 0 r.1
  if r.1 = 0 then
    let t := ((s.odp 0x1110 0x06 0 2).odp 0x1000 0x06 0 (fld h 8 4)).extend 1 h
    { t with sec := { t.sec with verified := some (fld h 8 4, fld h 12 1, r.2, fld h 13 1 % 4) } }
  else s.unverified 3

/-- IMAGE_VERIFY (R370, R371). -/
def execImageVerify (v : BitVec 8) (s : State) : Host.Outcome State Fault Refusal :=
  .next (s.writtenIf (s.verifyStatus v.toNat) State.takeVerify)

/-! ### Security operations (R378-R380, Table 18-7) -/

/-- Whether presence is held (R378). -/
def State.presenceHeld (s : State) : Bool := bit (s.odg 0x1111 0x01) 2

/-- Run an accepted operation: M3 is extended, the words are programmed, the outcome goes to OD 0x1112:05; an operation cut off by SAFE
or the loss of the input leaves a note for the herd book (R380). -/
def State.secRun (s : State) (idx sub : Nat) (bs : List Byte) (ws : List (List Nat)) (asc : Bool) (env : FuseEnv) : State :=
  let r := (s.extendOp idx sub bs).fuseRun ws asc env
  if r.2 then r.1.odp 0x1112 0x05 0 St.OD_OK
  else if env.cut then { r.1 with sec := { r.1.sec with broken := some (idx, sub, env.failAfter.getD 0) } }
  else r.1.odp 0x1112 0x05 0 St.FUSE_WRITE_FAILED

/-- An accepted operation whose conditions fail (Table 18-7): M3 is extended, nothing is programmed, and the outcome says why (log entry 22). -/
def State.secRefuse (s : State) (idx sub : Nat) (bs : List Byte) (st : Nat) : State × Nat :=
  ((s.extendOp idx sub bs).odp 0x1112 0x05 0 st, St.OD_OK)

/-- The message that the current owner signs to replace the key (Table 18-7). -/
def State.replaceMsg (s : State) (key : List Byte) : List Byte := s.fuseBytes 0 16 ++ key

/-- The first free owner slot. -/
def State.freeSlot (s : State) : Option Nat := (List.range 8).find? s.slotFree

/-- The words of a key replacement (Table 18-7): key and CHECK, PROGRAMMED, then REVOKED of every older valid slot, ascending. -/
def State.replaceWords (s : State) (k : Nat) (key : List Byte) : List (List Nat) :=
  let body := sliceBytes (key ++ keyCheck key) 0 64
  (List.range 8).map (fun j => bitsOf (slotAt k + 8 * j) (sliceBytes body (8 * j) 8))
    ++ [[8 * (slotAt k + 59)]] ++ s.validSlots.map fun o => [8 * (slotAt o + 59) + 1]

/-- Take a write of OD 0x1112:01, and its status. -/
def State.takeOwnerKey (s : State) (bs : List Byte) (env : FuseEnv) : State × Nat :=
  let key := sliceBytes bs 0 57
  if bs.length ≠ 176 then (s, St.OD_SIZE_MISMATCH)
  else if fld bs 171 5 ≠ 0 then (s, St.OD_RESERVED_NONZERO)
  else if s.validSlots ≠ [] ∧ (s.validSlots.any fun k =>
      Config.ed448Verify (s.fuseBytes (slotAt k) 57) (s.replaceMsg key) (sliceBytes bs 57 114)) = false then
    s.secRefuse 0x1112 0x01 bs St.FW_BAD_SIGNATURE
  else match s.freeSlot with
    | some k => (s.secRun 0x1112 0x01 bs (s.replaceWords k key) false env, St.OD_OK)
    | none => s.secRefuse 0x1112 0x01 bs St.FUSE_WRITE_FAILED

/-- Take a write of OD 0x1112:02, and its status. -/
def State.takeOwnerRevoke (s : State) (k : Nat) (env : FuseEnv) : State × Nat :=
  if k < 8 ∧ s.slotValid k = true then (s.secRun 0x1112 0x02 (leBytes 1 k) [[8 * (slotAt k + 59) + 1]] false env, St.OD_OK)
  else s.secRefuse 0x1112 0x02 (leBytes 1 k) St.OD_VALUE_RANGE

/-- Take a write of OD 0x1112:03, and its status. -/
def State.takeVendorRevoke (s : State) (k : Nat) (env : FuseEnv) : State × Nat :=
  if k < 4 ∧ s.vendorRevoked k = false ∧ (List.range 4).any (fun j => decide (j ≠ k) && !s.vendorRevoked j) = true then
    (s.secRun 0x1112 0x03 (leBytes 1 k) [[8 * 251 + k]] false env, St.OD_OK)
  else s.secRefuse 0x1112 0x03 (leBytes 1 k) St.OD_VALUE_RANGE

/-- Take a write of OD 0x1112:04, and its status: the lowest unprogrammed bits raise the counter to n. -/
def State.takeSvn (s : State) (n : Nat) (env : FuseEnv) : State × Nat :=
  let top := match s.sec.verified with
    | some v => v.2.1
    | none => 0
  let c := s.svnCount
  if c < n ∧ n ≤ top ∧ n ≤ 64 then
    let free := (List.range 64).filter fun b => !(s.fuse (252 + b / 8)).getLsbD (b % 8)
    (s.secRun 0x1112 0x04 (leBytes 1 n) [(free.take (n - c)).map (8 * 252 + ·)] true env, St.OD_OK)
  else s.secRefuse 0x1112 0x04 (leBytes 1 n) St.OD_VALUE_RANGE

/-- Take a write of OD 0x1113:01, and its status: the enable lasts until it is ended (R406). -/
def State.takeDebugEnable (s : State) (v : Nat) : State × Nat :=
  if 1 < v then (s, St.OD_VALUE_RANGE) else
  let s := (s.extendOp 0x1113 0x01 (leBytes 1 v)).odp 0x1112 0x05 0 St.OD_OK
  if v = 1 then (({ s.odp 0x1113 0x01 0 1 with sec := { s.sec with everDebug := true } } : State), St.OD_OK)
  else (s, St.OD_OK)

/-- Run an RWP write where presence is held (R13, R378). -/
def State.underPresence (s : State) (act : State → State × Nat) : State × Nat :=
  if s.ctl.mstate = .off ∨ s.presenceHeld = false then (s, St.OD_ACCESS_REFUSED) else act s

/-- A security write from outside, answered with its status. -/
def State.secWrite (s : State) (act : State → State × Nat) : State :=
  let r := s.underPresence act
  if s.ctl.mstate = .off then s else r.1.answered r.2

/-- OWNER_KEY_REPLACE (Table 18-7). -/
def execOwnerKeyReplace (bytes : List Byte) (env : FuseEnv) (s : State) : Host.Outcome State Fault Refusal :=
  .next (s.secWrite fun s => s.takeOwnerKey bytes env)

/-- OWNER_SLOT_REVOKE (Table 18-7). -/
def execOwnerSlotRevoke (slot : BitVec 8) (env : FuseEnv) (s : State) : Host.Outcome State Fault Refusal :=
  .next (s.secWrite fun s => s.takeOwnerRevoke slot.toNat env)

/-- VENDOR_KEY_REVOKE (Table 18-7). -/
def execVendorKeyRevoke (key : BitVec 8) (env : FuseEnv) (s : State) : Host.Outcome State Fault Refusal :=
  .next (s.secWrite fun s => s.takeVendorRevoke key.toNat env)

/-- SVN_RAISE (Table 18-7). -/
def execSvnRaise (n : BitVec 8) (env : FuseEnv) (s : State) : Host.Outcome State Fault Refusal :=
  .next (s.secWrite fun s => s.takeSvn n.toNat env)

/-- DEBUG_ENABLE (Table 18-7). -/
def execDebugEnable (v : BitVec 8) (s : State) : Host.Outcome State Fault Refusal :=
  .next (s.secWrite fun s => s.takeDebugEnable v.toNat)

/-- Debug access ends (R406): halted cores resume, breakpoints are cleared, EXTEST changes to BYPASS. -/
def State.endDebug (s : State) : State :=
  { s with
    files := s.files.mapAll (fun _ => fileNone) fun _ (f : CoreFile) =>
      { f with halted := false, bpHit := false, stepOne := false, bpPass := false, bps := [] }
    tap := { s.tap with ir := if s.tap.ir = 0 then 0xFF else s.tap.ir, frozen := none } }

/-- Take a write of OD 0x1113:02 (R379, R381, R406): 1 ends the enable; M3 is extended. -/
def State.takeDebugDisable (s : State) (v : Nat) : State :=
  if v = 1 then ((s.extendOp 0x1113 0x02 (leBytes 1 v)).odp 0x1113 0x01 0 0).endDebug else s

/-- DEBUG_DISABLE (R379, R406). -/
def execDebugDisable (v : BitVec 8) (s : State) : Host.Outcome State Fault Refusal :=
  .next (s.writtenIf (if 1 < v.toNat then St.OD_VALUE_RANGE else 0) fun s => s.takeDebugDisable v.toNat)

/-- PRESENCE_SAMPLE (R378): a millisecond or more after the last; held from the tenth sample in succession. A fitted seal found broken is recorded.
During EXTEST the logic sees the jumper as it was (R405). -/
def execPresenceSample (jumper sealIntact : Bool) (s : State) : Host.Outcome State Fault Refusal :=
  if s.ctl.mstate = .off ∨ s.ctl.clock < s.sec.sampleDue then .next s else
  let j := match s.tap.frozen with
    | some c => !bit c 2
    | none => jumper
  let ms := if j || sealIntact then Nat.min 10 (s.sec.heldMs + 1) else 0
  let now := b2n j + 2 * b2n sealIntact + 4 * b2n (decide (10 ≤ ms))
  let was := s.odg 0x1111 0x01
  let broke := s.sec.sealSeen && !sealIntact
  let s := s.odp 0x1111 0x01 0 now
  let s := if was / 4 = now / 4 then s else s.bump 0x1111 0x02 0
  let s := if broke then s.herdEvent 0x1101 0 0 0 else s
  .next { s with sec := { s.sec with heldMs := ms, sampleDue := s.ctl.clock + 1000000, sealSeen := sealIntact, sealBroken := s.sec.sealBroken || broke } }

/-! ### Attestation (R382) -/

/-- Bytes 0-359 of a report (Table 18-8). -/
def State.reportBody (s : State) (nonce : List Byte) : List Byte :=
  let v := s.sec.verified.getD (0, 0, 0, 0)
  leBytes 4 0x54414C50 ++ leBytes 2 1 ++ leBytes 2 (s.odg 0x1000 0x05) ++ s.fuseBytes 0 16 ++ leBytes 4 v.1 ++ leBytes 1 v.2.1
    ++ leBytes 1 s.svnCount ++ leBytes 1 (v.2.2.1 + 8 * v.2.2.2)
    ++ leBytes 1 (b2n s.sec.everDebug + 2 * b2n s.presenceHeld + 4 * b2n s.sec.sealBroken)
    ++ ((List.range 16).map fun k => leBytes 2 (s.odg 0x1000 0x04 k)).flatten ++ nonce
    ++ leBytes 8 (if s.time.everLock then s.time.fabric else 0) ++ s.sec.meas.flatten

/-- A report (Table 18-8): its signature is zero after a key mismatch. -/
def State.attestReport (s : State) (nonce : List Byte) : List Byte :=
  let b := s.reportBody nonce
  b ++ (if s.sec.keyBad then List.replicate 114 0 else takeFn 114 (Config.ed448Sign attestKey b)) ++ List.replicate 38 0

/-- Take a nonce (R382): the report has 512 bytes. -/
def State.takeNonce (s : State) (nonce : List Byte) : State :=
  (s.odBytes 0x1120 0x02 0 ((s.attestReport nonce).take 512)).bump 0x1120 0x04 0

/-- ATTESTATION_REQUEST (R382). -/
def execAttestationRequest (nonce : List Byte) (s : State) : Host.Outcome State Fault Refusal :=
  .next (s.writtenIf (if nonce.length = 32 then 0 else St.OD_SIZE_MISMATCH) fun s => s.takeNonce nonce)

end Sys2Proof.Machine
end

