-- ==== Sys2Proof/Machine/Safety.lean ====
section
/-! DEFINITION. Powering down, SAFE, cold starts and the herd book's own commands (chapters 18, 19). -/

namespace Sys2Proof.Machine

/-- A churn without power: DARK, or RETIRED for good; nothing queued, nothing in its banks. -/
def Churn.unpowered (x : Churn) : Churn :=
  { churnNone with st := if x.st = .retired then .retired else .dark, badRows := x.badRows, badCols := x.badCols, rate := x.rate
                   rowMap := x.rowMap, colMap := x.colMap, rowsOut := x.rowsOut, colsOut := x.colsOut }

/-- Every churn without power. -/
def State.churnsOff (s : State) : State :=
  { s with churns := s.churns.mapAll (fun _ => churnNone) fun _ x => x.unpowered }

/-- Every context is gone (R394). -/
def State.dropContexts (s : State) : State :=
  { s with ctxs := [], saved := [], dmaq := [], attnq := [], current := none, switchTo := none, switchBusy := 0, shares := []
           tasks := { milks := [], gathers := [], colls := [] } }

/-- The dies, the optics and the host link lose power, and fabric time ends (Table 15-7, R205, R365), and with
the base dies and stacks what these held (R126). -/
def State.powerDown (s : State) : State :=
  let was := s.powered || decide (s.ctl.change = some ModState.ready)
  let s : State := { s.opticsDark with rt := rtReset }
  let s := s.churnsOff.linkLost
  let s := (List.range 4).foldl (fun s n => s.odp 0x2004 0x05 n 0) (s.odp 0x2003 0x04 0 0)
  let s := (List.range 8).foldl (fun s k => s.odp 0x2400 0x02 k 0) s
  let s := if was then s.resetDies else s
  let s : State := { s with files := [], pails := [], store := [], time := timeReset }
  let s : State := { s with sync := { s.sync with value := [], typ := [], lost := [] }
                            host := { s.host with committed := false, linkUp := false }, clk := { s.clk with stopped := [] }, tap := { s.tap with busy := none } }
  { s with pow := { powReset with capWas := s.pow.capWas, limited := s.pow.limited.filter fun e => decide (e.1 = 25) }
           hbm := { s.hbm with coolSince := [], mem := [], poison := [], slice := [] } }

/-- Every Llynmi session closes (R327). -/
def State.closeSessions (s : State) : State := { s with svc := { s.svc with sessions := [] } }

/-- What a fuse operation cut short leaves for the herd book is recorded at the next STANDBY (R380). -/
def State.noteBroken (s : State) : State :=
  match s.sec.broken with
  | some b => ({ s with sec := { s.sec with broken := none } } : State).herdNow 0x1102 b.1 (b.2.2 : Int) b.2.1
  | none => s

/-- Enter STANDBY from READY, SERVICE or SAFE (Table 15-7). -/
def State.enterStandby (s : State) : State :=
  let s := if s.powered then s.powerDown else s
  let s := s.closeSessions.noteBroken.odp 0x2001 0x06 0 0
  { s with ctl := { s.ctl with mstate := .standby, change := none } }

/-- Entries with a cause in the last 24 hours, one now included, saturating (Table 19-4). -/
def State.recentSafe (s : State) (cause : Nat) : Nat :=
  Nat.min 255 ((s.ctl.safeTimes.filter fun e => decide (e.1 = cause ∧ s.ctl.clock < e.2 + dayNs)).length + 1)

/-- Enter SAFE (R393-R395): the change in progress is abandoned, the herd book closed and the entry recorded, contexts and sessions are
gone, everything but the always-on island is dark. While in SAFE a new condition records and reports itself. -/
def State.enterSafe (s : State) (cause inst : Nat) : State :=
  if s.ctl.mstate = .off then s else
  let recent := s.recentSafe cause
  let word := cause + inst * 2 ^ 8 + recent * 2 ^ 16
  let s := (s.herdClose true).herdNow 0x3001 word 0 0
  let s := ((s.odp 0x2001 0x06 0 word).odp 0x3000 0x03 0 word).bump 0x3000 0x02 cause
  let s := if recent = 3 then s.request 3 else s
  let s := s.dropContexts.closeSessions.powerDown.odp 0x1101 0x01 0 0
  { s with ctl := { s.ctl with mstate := .safe, change := none, commanded := false, safeTimes := (cause, s.ctl.clock) :: s.ctl.safeTimes } }

/-- INPUT_OVERCURRENT (Table 19-3). -/
def execInputOvercurrent (s : State) : Host.Outcome State Fault Refusal := .next (s.enterSafe 1 0)

/-- INPUT_VOLTAGE (Table 19-3). -/
def execInputVoltage (s : State) : Host.Outcome State Fault Refusal := .next (s.enterSafe 2 0)

/-- RAIL_OUT_OF_RANGE (Table 19-3). -/
def execRailOutOfRange (rail : BitVec 5) (s : State) : Host.Outcome State Fault Refusal :=
  if 27 ≤ rail.toNat then .fault .noSuchUnit else .next (s.enterSafe 3 rail.toNat)

/-- COOLANT_LOSS (Table 19-3). -/
def execCoolantLoss (s : State) : Host.Outcome State Fault Refusal := .next (s.enterSafe 4 0)

/-- RUNAWAY_TEMPERATURE (R354, Table 19-3): 0-3 a compute die, 4-7 a photonic die, 8-15 a stack, which stands at throttle
step 3. -/
def execRunawayTemperature (inst : BitVec 4) (s : State) : Host.Outcome State Fault Refusal :=
  let k := inst.toNat
  .next (if 8 ≤ k ∧ s.odg 0x2400 0x02 (k - 8) ≠ 3 then s else s.enterSafe 5 k)

/-- LASER_SUPPLY_CUT (R247, Table 19-3): the fabric laser supply of every photonic die is removed. -/
def execLaserSupplyCut (port : BitVec 6) (s : State) : Host.Outcome State Fault Refusal :=
  if 48 ≤ port.toNat then .fault .noSuchUnit
  else if s.ctl.mstate = .off then .next s
  else
    let t := s.enterSafe 6 port.toNat
    .next { t with opt := { t.opt with supplyCut := true } }

/-- HEARTBEAT_LOSS (Table 19-3). -/
def execHeartbeatLoss (s : State) : Host.Outcome State Fault Refusal := .next (s.enterSafe 7 0)

/-- MONITOR_SELF_CHECK (Table 19-3, Table 19-5, Table 19-8): every 10 ms; a failed one enters SAFE and requests service; a third pass in succession
arms the monitor again. -/
def execMonitorSelfCheck (ok : Bool) (s : State) : Host.Outcome State Fault Refusal :=
  if s.ctl.mstate = .off ∨ s.ctl.clock < s.ctl.selfDue then .next s
  else if ok then
    let n := s.ctl.selfOk + 1
    let s := if 3 ≤ n then s.odp 0x3000 0x01 0 1 else s
    .next { s with ctl := { s.ctl with selfOk := n, selfDue := s.ctl.clock + 10000000 } }
  else
    let t : State := { s with ctl := { s.ctl with selfOk := 0, selfDue := s.ctl.clock + 10000000 } }
    .next (((t.odp 0x3000 0x01 0 2).request 6).enterSafe 8 0)

/-- HERD_INTERVAL_END (R397): interval i ends (i + 1) × L ms after the cold start; a new length takes effect with the new interval, whose
index follows from it. -/
def execHerdIntervalEnd (s : State) : Host.Outcome State Fault Refusal :=
  if s.ctl.mstate = .off ∨ s.ctl.clock < (s.herd.interval + 1) * s.herd.ms * 1000000 then .next s else
  let s := s.herdClose false
  let ms := s.odg 0x3100 0x01
  .next { s with herd := { s.herd with interval := s.ctl.clock / (ms * 1000000), ms := ms } }

/-- The status of a write of OD 0x3100:08, 0 where it is taken (R402). -/
def State.clearStatus (s : State) (v : Nat) : Nat :=
  if s.ctl.mstate ≠ .service ∨ s.ctl.change.isSome = true then St.OD_ACCESS_REFUSED else if v ≠ 1 then St.OD_VALUE_RANGE else 0

/-- Clear the herd book (R402): SEQ and BOOT continue. -/
def State.takeClear (s : State) : State := { s with herd := { s.herd with recs := [], next := 0 } }

/-- HERD_BOOK_CLEAR (R402). -/
def execHerdBookClear (v : BitVec 8) (s : State) : Host.Outcome State Fault Refusal :=
  .next (s.writtenIf (s.clearStatus v.toNat) State.takeClear)

/-! ### Cold starts (R368, R369, R396, R417) -/

/-- Whether a register keeps its value across a cold start: what the parts record of their own repairs and retirements, and scrub
passes (Table 06-7, R88, R134, R388; log entry 23). -/
def coldKeeps (e : Nat × Nat) : Bool :=
  let k := e.1 / 65536
  decide (0x230001 ≤ k ∧ k ≤ 0x230005) || [0x240003, 0x240105, 0x240201, 0x240202, 0x220103, 0x250103, 0x310003].contains k
    || ((decide (k = 0x250101) || decide (k = 0x250102)) && decide (e.2 = 5))
    || (decide (0x400000 ≤ k ∧ k < 0x460000) && (decide (k % 0x2000 = 0x09) || decide (k % 0x2000 = 0x0A)))

/-- The cold start of Table 18-1 up to STANDBY: everything at its reset value but fuses, repairs, retirements, the herd book, and what
lies outside the module. The boot count goes up (R396). -/
def State.coldBoot (s : State) : State :=
  let r := State.reset
  let sec := { secReset s.sec.fuses s.fuse with broken := s.sec.broken }
  let hbm := { r.hbm with rowsUsed := s.hbm.rowsUsed, repaired := s.hbm.repaired, recorded := s.hbm.recorded, frames := s.hbm.frames
                          retireDue := s.hbm.retireDue, dqUsed := s.hbm.dqUsed }
  let t : State := { r with
    pending := s.pending, od := s.od.filter coldKeeps, hbm := hbm, sec := sec
    sync := { r.sync with spared := s.sync.spared, retired := s.sync.retired } }
  let t : State := { t with
    ctl := { r.ctl with hostReset := s.ctl.hostReset, deadCores := s.ctl.deadCores, coreRetire := s.ctl.coreRetire }
    host := { r.host with mem := s.host.mem }, out := s.out, free := s.free, churns := s.churnsOff.churns }
  let t : State := { t with
    herd := { s.herd with accs := [], spill := none, boot := (s.herd.boot + 1) % 65536, interval := 0, ms := 1000 } }
  (if t.sec.keyBad then t.herdEvent 0x1103 0 0 0 else t).noteBroken

/-- The module is held or without input: nothing runs. -/
def State.goOff (s : State) : State :=
  let s := s.dropContexts.closeSessions.powerDown
  { s with tap := tapReset, ctl := { s.ctl with mstate := .off, change := none } }

/-- COLD_START (R368): the input reaches 38.0 V; with MOD_RST_N low the sequence waits for its release (R417). -/
def execColdStart (s : State) : Host.Outcome State Fault Refusal :=
  if s.ctl.mstate = .off ∧ s.ctl.inputUp = false then
    let t : State := { s with ctl := { s.ctl with inputUp := true } }
    .next (if s.ctl.resetHeld then t else t.coldBoot)
  else .next s

/-- POWER_LOSS (R396): the herd book is emptied. -/
def execPowerLoss (s : State) : Host.Outcome State Fault Refusal :=
  let t := if s.ctl.mstate = .off then s else s.goOff
  let t := t.odp 0x3100 0x03 0 0
  .next { t with herd := { herdReset with accs := [], boot := 0 }, ctl := { t.ctl with inputUp := false } }

/-- MOD_RST_N_ASSERT (R369, R397, R417): low for 1 ms holds the module until the release; below 0.90 ms it does nothing; between, either
(log entry 10). Accumulators are closed early. During EXTEST the logic does not see it (R405). -/
def execModRstNAssert (ns : Nat) (s : State) : Host.Outcome State Fault Refusal :=
  let acts := decide (1000000 ≤ ns) || (decide (900000 ≤ ns) && Config.shortResetActs ns s.free)
  let s := if 900000 ≤ ns ∧ ns < 1000000 then s.drawn else s
  if acts = false ∨ s.tap.frozen.isSome = true then .next s
  else
    let t := if s.ctl.mstate = .off then s else (s.herdClose true).goOff
    .next { t with ctl := { t.ctl with resetHeld := true } }

/-- MOD_RST_N_RELEASE (R417): the sequence of Table 18-1 runs from the release. -/
def execModRstNRelease (s : State) : Host.Outcome State Fault Refusal :=
  if s.ctl.resetHeld then
    let t : State := { s with ctl := { s.ctl with resetHeld := false } }
    .next (if s.ctl.mstate = .off ∧ s.ctl.inputUp = true then t.coldBoot else t)
  else .next s

end Sys2Proof.Machine
end

