-- ==== Sys2Proof/Machine/Tick.lean ====
section
/-! DEFINITION. What passes with time alone: the nanoseconds since the cold start and fabric time (R205, R207). -/

namespace Sys2Proof.Machine

/-- n nanoseconds pass: the clock counts, and fabric time counts once the period has had its first lock. -/
def State.advance (s : State) (n : Nat) : State :=
  { s with ctl := { s.ctl with clock := s.ctl.clock + n }
           time := { s.time with fabric := if s.time.everLock then s.time.fabric + n else s.time.fabric } }

/-- One nanosecond passes (log entry 19). -/
def State.tick (s : State) : State := s.advance 1

end Sys2Proof.Machine
end

