-- ==== Sys2Proof/Machine/Steps.lean ====
section
/-! DEFINITION. The step-plan, synchronisation, context-switch and fabric-time commands (chapter 10). A plan row acts when the
running context's next entry of its kind is of that operation and is due; elsewhere it leaves the state unchanged (log entry 17). -/

namespace Sys2Proof.Machine

/-! ### Timed entries -/

/-- EPOCH (Table 10-3, R275, R278): packets injected from this boundary on carry the epoch; the job's links are audited. Not
while fabric time is LOST (R207). -/
def execEpoch (s : State) : Host.Outcome State Fault Refusal :=
  .next (s.timedRun 2 fun s c pos e =>
    if s.time.state = .lost then s
    else (s.setEpoch (e.arg % 2) s.time.slotDone (listBelow (s.memberPort c) 48)).entryDone c pos)

/-- Whether every flow entry before DEADLINE in plan order has completed (R220). -/
def State.flowDone (s : State) (c : Nat) : Bool :=
  let x := (s.ctx c).settleFlow
  match x.only 3 with
  | none => false
  | some (i, pos, _) =>
    ((x.entries.zipIdx.drop x.flowPos).take (i - x.flowPos)).all (fun e =>
        timedOp e.1.2.op || (x.early.contains e.1.1 && !s.tasks.gathers.any fun t => decide (t.ctx = c ∧ t.pos = e.1.1)))
      && x.runs.all fun r => decide (pos < r.pos)

/-- The vote at a deadline (R207, R216, R220). -/
def State.voteNow (s : State) (c : Nat) : Vote :=
  let x := s.ctx c
  ⟨s.flowDone c && !x.repeatEv && !x.noStart && !x.refused && !x.exhausted && decide (s.time.state ≠ .lost),
    x.sawThrot || x.sawBehind || s.throttled || x.behind, x.exhausted || x.refused⟩

/-- The contributions of a context that have not arrived: milk rounds with a parcel not complete (R189) and gathers (R192). -/
def State.missing (s : State) (c : Nat) : Nat :=
  (s.tasks.milks.filter fun t => decide (t.ctx = c ∧ t.have_ < mLast t.desc)).length
    + (s.tasks.gathers.filter fun t => decide (t.ctx = c)).length

/-- DEADLINE (R220): a parcel or a gather not complete is a lost contribution (R189, R192); the vote is latched and goes out with the
beacon. -/
def execDeadline (s : State) : Host.Outcome State Fault Refusal :=
  .next (s.timedRun 3 fun s c pos _ =>
    let s := (List.range (s.missing c)).foldl (fun s _ => s.lostEvent c St.COLL_LOST) s
    let v := s.voteNow c
    let x := s.ctx c
    let heard := (s.jobPorts c).foldl (s.heardVote x) v
    let why := if x.exhausted then St.CELLAR_EXHAUSTED else if x.refused then St.STEP_PLAN_CAPACITY else St.JOB_STOPPED_PEER
    ((s.setCtx c { x with vote := some v, combined := some heard, stopWhy := why, deadlineT := 512 * s.time.slotDone }).sendBeacons c).entryDone c pos)

/-- STEP_END (R208, R221, R222, R312): the step ends by its verdict; a context told to stop stops after a commit; before a SWITCH
entry the next step waits for the context's resumption, and otherwise it begins at this boundary. -/
def execStepEnd (env : MemEnv) (s : State) : Host.Outcome State Fault Refusal :=
  match s.runningCtx with
  | none => .next s
  | some c =>
    if (s.ctx c).verdict.isNone ∨ (s.ctx c).verdict = some .stop then .next s else
    .next (s.timedRunIn env 4 fun s c pos e =>
      let s := s.entryDone c pos
      let x := s.ctx c
      let base := x.base + e.slot
      let inc := match x.only 5 with
        | some w => if s.time.state ≠ .lost ∧ s.resident (w.2.2.arg % 64) = true then some (w.2.2.arg % 64) else none
        | none => none
      match x.stopTag with
      | some tag =>
        if x.verdict = some .commit then
          let s := (s.setCtx c x.rolled).stopCtx c St.HOST_DONE tag
          match inc with
          | some w => { s with switchTo := some (w, s.time.slotDone) }
          | none => s
        else if inc.isSome then s.setCtx c { x with stepOn := false }
        else ((s.setCtx c x.rolled).beginStep c base).sendBeacons c
      | none =>
        if inc.isSome then s.setCtx c { x with stepOn := false }
        else ((s.setCtx c x.rolled).beginStep c base).sendBeacons c)

/-- SWITCH (R217): directly after STEP_END, at its boundary. -/
def execSwitch (s : State) : Host.Outcome State Fault Refusal :=
  match s.runningCtx with
  | none => .next s
  | some c =>
    let x := s.ctx c
    match x.timedNext with
    | some (_, pos, e) =>
      if e.op = 5 ∧ x.stepOn = false then
        let s := (s.entryStarts c pos).entryDone c pos
        let y := { s.ctx c with base := x.base + e.slot }.rolled
        .next { s.setCtx c y with switchTo := some (e.arg % 64, s.time.slotDone) }
      else .next s
    | none => .next s

/-! ### Flow entries -/

/-- WAIT (Table 10-3): completes at once when its object satisfies the value, and otherwise with WAIT_RESUME. -/
def execWait (s : State) : Host.Outcome State Fault Refusal :=
  .next (s.flowRun 8 fun s c pos e =>
    let s := s.touchObj e.sync
    if s.satisfied e.sync (BitVec.ofNat 64 e.arg) then s.entryDone c pos else s)

/-- SIGNAL_OBJ (Table 10-3). -/
def execSignalObj (s : State) : Host.Outcome State Fault Refusal :=
  .next (s.flowRun 9 fun s c pos e => (s.signal e.sync (BitVec.ofNat 64 e.arg)).entryDone c pos)

/-- SYNC_SET (Table 10-3, R211). -/
def execSyncSet (s : State) : Host.Outcome State Fault Refusal :=
  .next (s.flowRun 0x0A fun s c pos e =>
    (s.setObj e.sync (BitVec.ofNat 2 e.target) (BitVec.ofNat 64 e.arg)).entryDone c pos)

/-- Start the context's program on every enabled core of a region at a core-store offset (Table 10-3, R93). -/
def State.startRegion (s : State) (c pc region : Nat) : State :=
  (s.regionCores region).foldl (fun s k => s.setFile k c { s.file k c with
    pc := pc, running := true, waiting := none, faulted := false }) s

/-- START (Table 10-3, R217, R286): waits while a region it names still runs the program of an earlier START, is occupied by a
routine, or while its cores have not ended their share of a context switch. -/
def execStart (s : State) : Host.Outcome State Fault Refusal :=
  match s.runningCtx with
  | none => .next s
  | some c =>
    match s.flowNext c with
    | some (_, e) =>
      if e.op = 0x0B ∧ e.regions.all (fun r => s.regionIdle c r && !s.occupied c r && s.shareOver (r / 16)) = false then .next s
      else .next (s.flowRun 0x0B fun s c _ e =>
        ((e.regions.foldl (fun s r => s.startRegion c (e.arg % 2 ^ 18) r) s)).settleStarts c)
    | none => .next s

/-- PHASE (Table 10-3, R223): the fabric time at which it starts goes into the step report. -/
def execPhase (s : State) : Host.Outcome State Fault Refusal :=
  .next (s.flowRun 0x12 fun s c pos e =>
    let x := s.ctx c
    (s.setCtx c { x with phases := Sparse.set (fun _ => 0) x.phases (e.target % 16) s.time.fabric }).entryDone c pos)

/-- WAIT_RESUME (R211): a waiter whose condition holds goes on. -/
def execWaitResume (w : Waiter) (s : State) : Host.Outcome State Fault Refusal :=
  match s.runningCtx with
  | none => .next s
  | some c =>
    match w with
    | .core k =>
      let f := s.file k.toNat c
      match f.waiting with
      | some (o, v) =>
        if s.satisfied o (BitVec.ofNat 64 v) then
          .next ((s.nextPc k.toNat c { f with waiting := none }).afterIssue k.toNat c)
        else .next s
      | none => .next s
    | .plan =>
      let x := s.ctx c
      match x.runs.find? fun r => match x.plan[r.pos]? with
          | some e => decide (e.op = 8) && s.satisfied e.sync (BitVec.ofNat 64 e.arg)
          | none => false with
      | some r => .next (s.entryDone c r.pos)
      | none => .next s
    | .queue n ctx q =>
      let key := qKey ⟨n, ctx, q⟩
      if ctx.toNat ≠ c then .next s else
      match (s.dq key).nextItem with
      | some (i, d) =>
        if d.started = false ∧ dWaitEn d.bytes = true ∧ s.mayStart key (s.dq key) d = true ∧ s.heldStatus key d = 0 then
          .next (s.dmaStart key i d)
        else .next (s.dmaSettle key 17)
      | none => .next s

/-- SYNC_OBJECT_WRITE (R211): refused for type 3 and for a barrier of target 0. -/
def execSyncObjectWrite (obj : BitVec 16) (typ : BitVec 2) (v : BitVec 64) (s : State) : Host.Outcome State Fault Refusal :=
  .next (if typ = 3 ∨ (typ = 1 ∧ v.toNat / 2 ^ 48 = 0) then s.answered St.OD_VALUE_RANGE
    else (s.setObj obj.toNat typ v).answered St.OD_OK)

/-! ### Slots -/

/-- Whether a DEADLINE (3) or STEP_END (4) entry of a running context is due now and has not taken effect. -/
def Ctx.stands (x : Ctx) (op : Nat) : Bool :=
  match x.only op with
  | some e => x.stepOn && decide (x.timedPos ≤ e.1) && x.isDue e.2.2
  | none => false

/-- What a boundary does for the running context (R208, R218, R219); the boundary at which it pauses sends no beacon of it. -/
def State.contextBoundary (s : State) (c : Nat) : State :=
  let x := s.ctx c
  let s := s.setCtx c { x with slots := x.slots + 1 }
  let s := if (s.ctx c).stands 4 then s else s.markBoundary c
  if (s.ctx c).stands 4 || (s.ctx c).stands 3 then s else s.sendBeacons c

/-- The trigger mode in effect (R362). -/
def State.setTrigMode (s : State) (m : Nat) : State := { s with clk := { s.clk with mode := m } }

/-- The epoch and plan selections whose slot has come take effect (R236, R276). -/
def State.takeRequests (s : State) (n : Nat) : State :=
  let s := match s.rt.epochReq with
    | some r => if r.2 ≤ n then
        (let t : State := { s with rt := { s.rt with epochReq := none } }
         t.setEpoch r.1 n (List.range 48)) else s
    | none => s
  match s.opt.planReq with
  | some r => if r.2 ≤ n then
      (let t : State := { s with opt := { s.opt with planReq := none } }
       t.changePlan r.1 (fun _ => true) none) else s
  | none => s

/-- A trigger mode and a performance level that were written take effect (R334, R362). -/
def State.takeModes (s : State) (idle : Bool) : State :=
  let mode := s.odg 0x2101 0x01
  let s := if s.clk.mode = mode then s
    else (s.bump 0x2102 0x02 0 (countBelow (fun k => bit s.clk.mode k != bit mode k) 4)).setTrigMode mode
  if idle then s.takeLevel else s

/-- The incoming context of a switch runs from its boundary (R217). -/
def State.resumeAt (s : State) (n : Nat) : State :=
  match s.current with
  | some c =>
    if s.switchBusy ≠ 0 ∧ s.switchBusy ≤ n then
      (let t : State := { s with switchBusy := 0 }
       let t := t.resumeCtx c
       if t.runningCtx = some c then t.sendBeacons c else t)
    else s
  | none => s

/-- SLOT_BOUNDARY (R208, R218, R220, R236, R276, R278, R280, R334, R362, R387): the next boundary of fabric time, once it has
locked. -/
def execSlotBoundary (env : MemEnv) (s : State) : Host.Outcome State Fault Refusal :=
  if s.time.everLock = false then .next s else
  let n := s.time.slotDone + 1
  let was := s.runningCtx
  let s := s.advance (512 * n - s.time.fabric)
  let s : State := { s with time := { s.time with slotDone := n } }
  let s := match was with
    | some c => s.missBeacons c
    | none => s
  let s : State := { s with time := { s.time with heard := [], words := s.time.words.filter fun e => s.time.heard.contains e.1 } }
  let s := if s.throttled then s.bump 0x2803 0x06 0 else s
  let s := ((s.remapSync.congSample.takeRequests n).linkSlot n).takeModes was.isNone
  .next (match was with
    | some c => s.contextBoundary c
    | none => if s.current.isSome && decide (s.switchBusy ≠ 0 ∧ s.switchBusy ≤ n) then s.within env fun s => s.resumeAt n else s)

/-- BEACON_RECEIVE (R220): a neighbour's word, combined with the vote once it is latched. -/
def execBeaconReceive (port : BitVec 6) (word : BitVec 64) (s : State) : Host.Outcome State Fault Refusal :=
  let p := port.toNat
  if 48 ≤ p then .fault .noSuchUnit else
  let w := word.toNat
  let s := { s with time := { s.time with heard := p :: s.time.heard.filter (· ≠ p)
                                          words := Sparse.ins p (w + 1) s.time.words } }
  match s.runningCtx with
  | none => .next s
  | some c =>
    let x := s.ctx c
    match x.combined with
    | none => .next s
    | some v =>
      if s.memberPort c p = false ∨ x.verdict.isSome then .next s else
      let good := decide (bits w 15 0 = x.job ∧ bits w 31 16 = x.step % 65536) && bit w 34
      .next (s.setCtx c { x with combined := some (v.meet good (good && bit w 35) (good && bit w 36) (good && bit w 37)) })

/-- What context c, which read x as the verdict was combined, does with verdict r (R223, R302, R304). -/
def State.verdictTaken (s : State) (c : Nat) (x : Ctx) (r : Verdict) (why : Nat) : State :=
  match r with
  | .commit =>
    let s := (((s.bump 0x2803 0x01 0).odp 0x2901 0x01 0 x.cellar.peak).odp 0x2901 0x02 0 (x.cellar.reduced.getD 0xFFFF)).odp
      0x2901 0x03 0 x.cellar.peakSpill
    s.setCtx c { s.ctx c with undo := [] }
  | .repeated =>
    let s := (s.bump 0x2803 0x02 0).abandon c
    let s := if x.exhausted then s else s.bump 0x2702 0x0A 0
    s.setCtx c { s.ctx c with restoring := !x.undo.isEmpty }
  | .stop =>
    let s := (s.bump 0x2803 0x03 0).abandon c
    let s := if x.exhausted then s else s.bump 0x2702 0x0A 0
    if x.undo.isEmpty then (s.setCtx c (s.ctx c).rolled).stopCtx c why 0
    else s.setCtx c { s.ctx c with restoring := true }

/-- VERDICT (R221-R223, R302-R304): at DEADLINE's SLOT + JOB_DIAMETER + 1. -/
def execVerdict (env : MemEnv) (s : State) : Host.Outcome State Fault Refusal :=
  match s.runningCtx with
  | none => .next s
  | some c =>
    let x := s.ctx c
    match x.combined, x.only 3 with
    | some v, some d =>
      if x.verdict.isSome ∨ ¬ x.base + d.2.2.slot + x.diameter + 1 ≤ x.slots then .next s else
      let limit := !v.stop && !v.done && decide (x.maxRepeat ≤ x.repeats)
      let r : Verdict := if v.stop || limit then .stop else if v.done then .commit else .repeated
      let why := if limit then St.STEP_REPEAT_LIMIT else x.stopWhy
      .next (s.within env fun s =>
        let s := s.routineWrite c (x.reportAt x.verdicts) (stepReport x r (512 * s.time.slotDone))
        let x := s.ctx c
        let s := s.setCtx c { x with verdict := some r, verdicts := x.verdicts + 1, calm := if v.stretch then 0 else x.calm + 1
                                     stopWhy := why }
        let s := s.traced 7 0 0 0 c x.step
        let s := if x.version = 1 then s.bump 0x2803 0x04 0 else s
        let s := if x.cellar.reached then s.cellarMark c x.cellar else if x.cellar.mismatch = 0 then s else s.cellarWrong c x.cellar
        s.verdictTaken c x r why)
    | _, _ => .next s

/-- UNDO_RESTORE (R200, R304): the undo blocks of the running context go back; a context whose verdict is stop then stops. -/
def execUndoRestore (env : MemEnv) (s : State) : Host.Outcome State Fault Refusal :=
  match s.runningCtx with
  | none => .next s
  | some c =>
    if (s.ctx c).restoring then
      .next (s.within env fun s =>
        let s := s.undoAll c
        let s := s.setCtx c { s.ctx c with restoring := false }
        let x := s.ctx c
        if x.verdict = some .stop then (s.setCtx c x.rolled).stopCtx c x.stopWhy 0 else s)
    else .next s

/-! ### Switches and first runs -/

/-- How long the cores of a compute die may take for their share of a switch, in ns (R93): 272 periods, each twice as long under droop
stretch. -/
def State.shareBound (s : State) (die : Nat) : Nat :=
  272000 / s.fEff die * (if s.odg 0x2003 0x04 / 2 ^ (16 * die) % 65536 = 0 then 1 else 2)

/-- The cores begin their share of a switch (R93, R217): below 0.3 GHz it ends at a moment within its bound that is a free value (log
entry 39). -/
def State.startShares (s : State) : State :=
  (List.range 4).foldl (fun (s : State) n =>
    let v := if 300 ≤ s.fEff n then 0 else s.ctl.clock + (Config.freeWord s.free).toNat % (s.shareBound n + 1)
    { s with shares := Sparse.set (fun _ => 0) s.shares n v, free := s.free + 1 }) s

/-- Whether a timed entry of the running context is due at the boundary that stands and has not taken effect. -/
def State.timedWaits (s : State) : Bool := (List.range 5).any fun k => s.timedDue (k + 1)

/-- CONTEXT_SWITCH (R55, R93, R152, R217): at its boundary, after the timed entries due there, the outgoing context pauses, and the
incoming one runs from four slots later. -/
def execContextSwitch (env : MemEnv) (s : State) : Host.Outcome State Fault Refusal :=
  match s.switchTo with
  | none => .next s
  | some (inc, at_) =>
    if s.time.everLock = false ∨ s.time.slotDone < at_ ∨ s.timedWaits = true then .next s
    else if s.resident inc = false then .next { s with switchTo := none }
    else
      let out := s.current
      .next (s.within env fun s =>
        let s := match out with
          | some c => if (s.ctx c).st = CtxState.running then s.setCtx c { s.ctx c with st := CtxState.paused } else s
          | none => s
        let t : State := { s with switchTo := none, switchBusy := at_ + 4 }
        (t.startShares.swapCtx out inc).bump 0x2803 0x05 0)

/-- The status of a switch request (R10, R217), 0 where it is taken. -/
def State.switchStatus (s : State) (v : Nat) : Nat :=
  if bits v 7 6 ≠ 0 then St.OD_RESERVED_NONZERO
  else if v / 256 < s.slot + 2 ∨ s.resident (v % 64) = false then St.SWITCH_REFUSED
  else 0

/-- Take a switch request (R217). -/
def State.takeSwitch (s : State) (v : Nat) : State := { s with switchTo := some (v % 64, v / 256) }

/-- SWITCH_REQUEST (R217): a refused write is answered with its status and changes nothing else. -/
def execSwitchRequest (v : BitVec 64) (s : State) : Host.Outcome State Fault Refusal :=
  let st := s.switchStatus v.toNat
  .next ((if st = 0 then s.takeSwitch v.toNat else s).answered st)

/-- CONTEXT_FIRST_RUN (R208, R312): a started context runs from its slot, and its step begins at the context slot that the
counter holds. -/
def execContextFirstRun (env : MemEnv) (s : State) : Host.Outcome State Fault Refusal :=
  match (Sparse.keys s.ctxs).find? fun c => decide ((s.ctx c).st = .started) with
  | none => .next s
  | some c =>
    let x := s.ctx c
    if s.time.everLock = false ∨ s.time.slotDone < x.startSlot ∨ s.ctl.mstate ≠ .run ∨ s.switchBusy ≠ 0 then .next s
    else
      .next (s.within env fun s =>
        let s := s.swapCtx s.current c
        ((s.setCtx c { s.ctx c with st := CtxState.running }).beginStep c x.slots).sendBeacons c)

/-! ### Fabric time (R205-R207) -/

/-- The port that fabric time is taken from, and the other one; 0xFF names none. -/
def State.timePorts (s : State) : Nat × Nat :=
  let p := s.odg 0x2110 0x04
  let a := s.odg 0x2110 0x05
  if s.time.usesAlt then (a, p) else (p, a)

/-- Enter HOLDOVER (R207). -/
def State.enterHoldover (s : State) : State :=
  { s.bump 0x2110 0x07 0 with time := { s.time with state := .holdover, heldSince := s.ctl.clock } }

/-- The first lock of a period to a parent's time (R205); the count of slots begins there. -/
def State.lockTo (s : State) (t : Nat) : State :=
  { s with time := { s.time with fabric := t, state := .locked, everLock := true, offsetPs := 0, slotDone := t / 512 } }

/-- The time exchange on a port (R205-R207): the link delay, and on a parent port the first lock or the remaining difference. -/
def State.takeTime (s : State) (p : Nat) (b : CtlBlock) : State :=
  if b.timeValid = false then s else
  let s := s.odp (portIdx p 0) 0x06 0 b.delayPs.toNat
  let ports := s.timePorts
  let used := decide (p = ports.1)
  let other := decide (p = ports.2)
  if s.odg 0x2110 0x03 = 1 ∨ (used = false ∧ other = false) then s
  else if s.time.everLock = false then
    let s := s.lockTo b.parentTime.toNat
    { s with time := { s.time with usesAlt := if other then !s.time.usesAlt else s.time.usesAlt } }
  else
    let near := decide (b.offsetPs.natAbs ≤ 2000)
    let s0 := s
    let s := { s with time := { s.time with offsetPs := b.offsetPs } }
    match s.time.state with
    | .locked => if used then (if near then s else s.enterHoldover) else s0
    | .holdover | .lost =>
      if near then { s with time := { s.time with
        state := .locked, usesAlt := if other then !s.time.usesAlt else s.time.usesAlt } } else s
    | .unlocked => s

/-- The plan-agreement messages on a port (R234, R235): losing agreement on the plan in effect that a resident context of the
neighbour's job names makes the port dark. -/
def State.takeAgree (s : State) (p : Nat) (ms : List AgreeMsg) : State :=
  let k := s.planNow
  let had := s.agreed k p
  let s := ms.foldl (fun s m =>
    let x := s.peers p
    let n := m.plan.toNat
    let light := Sparse.dropKeys (fun i => decide (i / 32 = n)) x.light
    s.setPeers p { masks := Sparse.set (fun _ => (2 ^ 32, 0)) x.masks n (m.tx.toNat, m.rx.toNat)
                   light := m.light.foldl (fun (l : Sparse (Nat × Nat)) c =>
                     Sparse.set (fun _ => (0, 2 ^ 32)) l (32 * n + c.1.toNat) (c.2.1, c.2.2)) light }) s
  let users := (Sparse.keys s.ctxs).any (fun c => s.memberPort c p) && s.planNames 1 (fun a => a % 64) k
  if had && !s.agreed k p && users && decide (s.portState p = 1) then
    (let t := (s.bump 0x2502 0x06 0).odp (portIdx p 0) 0x01 0 3
     ({ t with opt := { t.opt with blocked := (t.darkOutputs ++ t.opt.blocked).eraseDups } } : State).linkDown p)
  else s

/-- The transmit lanes of a port that its peer refuses (R239): they carry no payload until the peer takes it again. -/
def State.takeTold (s : State) (p : Nat) (refused : BitVec 32) : State :=
  let mine := (s.litLanes true p).filter fun n => bit refused.toNat (n % 32)
  let others := s.opt.told.filter fun n => decide (s.txPort s.planNow n ≠ some p)
  { s with opt := { s.opt with told := mine ++ others } }

/-- The frames that a slot's check corrected, or found uncorrectable, on all receive lanes of a port (R230, Table 11-12). -/
def State.countFrames (s : State) (b : CtlBlock) : State :=
  (s.bump 0x2502 0x07 0 (b.errors.filter frameCorrected).length).bump 0x2502 0x08 0 (b.errors.filter frameBad).length

/-- CONTROL_BLOCK_RECEIVE (R205, R230, R231, R234, R239, R260-R264, R278): on a lit port with working lanes; a block with a bad frame is
ignored whole. -/
def execControlBlockReceive (port : BitVec 6) (b : CtlBlock) (s : State) : Host.Outcome State Fault Refusal :=
  let p := port.toNat
  if 48 ≤ p then .fault .noSuchUnit
  else if s.portTerm p = false then .next s
  else
    let s := s.countFrames b
    if b.bad then .next (if (s.link p).up then s.badBlock p b.slot.toNat else s)
    else
      let s := ((s.takeTime p b).takeAgree p b.agree).takeTold p b.refused
      .next (if s.portState p = 1 then s.linkBlock p b.slot.toNat (readFields b.fields.toNat) else s)

/-- PARENT_LOSS (R207): the other port is used when it is configured and lit; otherwise HOLDOVER. -/
def execParentLoss (s : State) : Host.Outcome State Fault Refusal :=
  if s.time.state ≠ .locked ∨ s.odg 0x2110 0x03 = 1 then .next s
  else
    let other := s.timePorts.2
    if other < 48 ∧ s.portState other = 1 ∧ s.portTerm other = true then
      .next { s with time := { s.time with usesAlt := !s.time.usesAlt } }
    else .next s.enterHoldover

/-- HOLDOVER_TIMEOUT (R207): after 10 ms in HOLDOVER. -/
def execHoldoverTimeout (s : State) : Host.Outcome State Fault Refusal :=
  .next (if s.time.state = .holdover ∧ s.time.heldSince + 10 ^ 7 ≤ s.ctl.clock then { s with time := { s.time with state := .lost } } else s)

end Sys2Proof.Machine
end

