-- ==== Sys2Proof/Machine/ModStates.lean ====
section
/-! DEFINITION. Module states, start-up and performance levels (R332-R334, R368, R372-R376). -/

namespace Sys2Proof.Machine

/-- The code of a state (Table 15-6); OFF has none. -/
def ModState.code : ModState → Nat
  | .off => 0
  | .standby => 1
  | .ready => 2
  | .run => 3
  | .service => 4
  | .safe => 5

/-- What OD 0x2001:01 reads: 0x80 above the target during a change. -/
def State.stateCode (s : State) : Nat :=
  match s.ctl.change with
  | some t => 0x80 + t.code
  | none => s.ctl.mstate.code

/-- Whether a context is resident. -/
def State.anyResident (s : State) : Bool := (Sparse.keys s.ctxs).any s.resident

/-- Whether a context runs. -/
def State.anyRunning (s : State) : Bool := (Sparse.keys s.ctxs).any fun c => decide ((s.ctx c).st = .running)

/-- Whether the SAFE cause has cleared (R395, Table 19-5): the measurements say so, its third entry in 24 hours has not come, and cause
8 has passed three self-checks. -/
def State.causeCleared (s : State) (measured : Bool) : Bool :=
  let w := s.odg 0x2001 0x06
  measured && decide (bits w 23 16 < 3) && (decide (w % 256 ≠ 8) || decide (3 ≤ s.ctl.selfOk))

/-- The status of a state command (R332, Table 15-7, R372, R395), OD_OK where it is accepted or changes nothing. -/
def State.stateStatus (s : State) (t : ModState) (cleared : Bool) : Nat :=
  if s.ctl.change.isSome then St.STATE_BUSY
  else if t = s.ctl.mstate then St.OD_OK
  else
    let ok := match s.ctl.mstate, t with
      | .standby, .ready => decide (s.odg 0x1110 0x06 = 2)
      | .ready, .run => true
      | .run, .ready => !s.anyRunning
      | .ready, .service => !s.anyResident
      | .service, .ready => true
      | .ready, .standby => !s.anyResident
      | .service, .standby => !s.anyResident
      | .safe, .standby => s.causeCleared cleared
      | _, _ => false
    if ok then St.OD_OK else St.STATE_REFUSED

/-! ### Start-up (R372-R376) -/

/-- Whether a strap has odd parity (R374). -/
def strapOdd (v : Nat) : Bool := decide (countBelow (fun i => bit v i) 6 % 2 = 1)

/-- Kind of a strap or of an identity word (R374). -/
def strapKind (v : Nat) : Nat := bits v 1 0
/-- Position of a strap. -/
def strapPos (v : Nat) : Nat := bits v 4 2
/-- Kind of an identity word. -/
def wordKind (w : Nat) : Nat := bits w 15 14

/-- The feature level of an identity word, none where its revision is not listed (Table 18-5). -/
def wordLevel (w : Nat) : Option Nat :=
  match w with
  | 0x4040 => some 1
  | 0x4400 => some 2
  | 0x8040 => some 1
  | 0x8080 => some 2
  | 0x8400 => some 2
  | 0xC000 => some 1
  | 0xC040 => some 2
  | _ => none

/-- Whether a compute die and the photonic die beneath it may pair (Table 18-5). -/
def mayPair (c p : Nat) : Bool :=
  (decide (c = 0x4040) && (decide (p = 0x8040) || decide (p = 0x8080)))
    || (decide (c = 0x4400) && (decide (p = 0x8080) || decide (p = 0x8400)))

/-- Kind and position that the k-th die of OD 0x1000:04 must have. -/
def dieSeat (k : Nat) : Nat × Nat := if k < 4 then (1, k) else if k < 8 then (2, k - 4) else (3, k - 8)

/-- The first check of R375 that a package fails, 0 where none does, from its straps and identity words in the order of OD 0x1000:04. -/
def pairingCause (strap word : Nat → Nat) : Nat :=
  let all := fun (p : Nat → Bool) => (List.range 16).all p
  if all (fun k => strapOdd (strap k)) = false then 1
  else if all (fun k => decide (strapKind (strap k) = wordKind (word k))) = false then 2
  else if all (fun k => (List.range 16).any fun j =>
      decide ((strapKind (strap j), strapPos (strap j)) = dieSeat k)) = false then 3
  else if all (fun k => (wordLevel (word k)).isSome) = false then 4
  else if (List.range 4).all (fun k => decide (word k = word 0)) = false then 5
  else if (List.range 4).all (fun k => decide (bits (word (4 + k)) 13 10 = bits (word 4) 13 10)) = false then 6
  else if (List.range 4).all (fun k => mayPair (word k) (word (4 + k))) = false then 7
  else 0

/-- The feature level of a package (R376): the lowest of its dies. -/
def packageLevel (word : Nat → Nat) : Nat :=
  (List.range 16).foldl (fun l k => Nat.min l ((wordLevel (word k)).getD 2)) 2

/-- The straps and identity words of this part (R374). -/
def partStrap (k : Nat) : Nat := (Config.strap k).toNat
/-- The identity words of this part. -/
def partIdent (k : Nat) : Nat := (Config.identity k).toNat

/-- Row 3 of Table 18-3: straps and words are reported, the pairing and MIN_LEVEL decided, M2 extended; the status, 0 where start-up
goes on. -/
def State.rowThree (s : State) : State × Nat :=
  let s := (List.range 16).foldl (fun s k => (s.odp 0x1000 0x04 k (partIdent k)).odp 0x1101 0x03 k (partStrap k)) s
  let cause := pairingCause partStrap partIdent
  let s := s.odp 0x1101 0x02 0 cause
  if cause ≠ 0 then (s, St.REV_PAIRING_REFUSED)
  else
    let l := packageLevel partIdent
    let r := ((List.range 16).map fun k => leBytes 1 (partStrap k)).flatten
      ++ ((List.range 16).map fun k => leBytes 2 (partIdent k)).flatten ++ leBytes 2 l
    let s := (s.odp 0x1000 0x05 0 l).extend 2 r
    if l < fld (s.imageBytes 0 512) 6 2 then (s, St.FW_BAD_IMAGE) else (s, 0)

/-- Begin the start-up (Table 18-3, Table 18-4): rows 1 and 3 may end it in STANDBY; then the dies are powered, the churns wake, and the
optics come up. -/
def State.beginStartUp (s : State) : State :=
  let v := s.imageCheck.1
  if v ≠ 0 then s.odp 0x2001 0x03 0 v
  else
    let r := s.rowThree
    if r.2 ≠ 0 then r.1.odp 0x2001 0x03 0 r.2
    else
      let s := (r.1.resetDies.odp 0x1101 0x01 0 5).odp 0x2001 0x03 0 St.OD_OK
      let s := (List.range 64).foldl (fun s k =>
        let x := s.churn k
        if x.st = .dark then s.setChurn k { x with st := .waking } else s) s
      let s := s.opticsBegin
      { s with ctl := { s.ctl with change := some .ready, startMark := s.ctl.clock, commanded := true } }

/-- Carry out a state command (R332): its status is kept in OD 0x2001:03. -/
def State.takeState (s : State) (t : ModState) (cleared : Bool) : State :=
  let st := s.stateStatus t cleared
  if st ≠ St.OD_OK ∨ t = s.ctl.mstate then s.odp 0x2001 0x03 0 st
  else if s.ctl.mstate = .standby then s.beginStartUp
  else
    let s := s.odp 0x2001 0x03 0 St.OD_OK
    { s with ctl := { s.ctl with change := some t, changeFrom := s.time.slotDone, commanded := true } }

/-- A state command is written and answered with its status (R323, R332). -/
def State.stateWrite (s : State) (t : ModState) (cleared : Bool) : State :=
  if s.ctl.mstate = .off then s else (s.takeState t cleared).answered (s.stateStatus t cleared)

/-- STATE_COMMAND_STANDBY (R332, R395): `cleared` says whether the measurements of Table 19-5 have cleared the SAFE cause. -/
def execStateCommandStandby (cleared : Bool) (s : State) : Host.Outcome State Fault Refusal :=
  .next (s.stateWrite .standby cleared)

/-- STATE_COMMAND_READY (R332, R372). -/
def execStateCommandReady (s : State) : Host.Outcome State Fault Refusal :=
  .next (s.stateWrite .ready false)

/-- STATE_COMMAND_RUN (R332). -/
def execStateCommandRun (s : State) : Host.Outcome State Fault Refusal :=
  .next (s.stateWrite .run false)

/-- STATE_COMMAND_SERVICE (R332). -/
def execStateCommandService (s : State) : Host.Outcome State Fault Refusal :=
  .next (s.stateWrite .service false)

/-- Whether a change between states that Table 15-7 places at the next slot boundary may take effect now (R332, R333): a boundary after its
acceptance stands, or fabric time has not locked. -/
def State.atBoundary (s : State) : Bool :=
  !s.time.everLock || decide (s.ctl.changeFrom < s.time.slotDone ∧ s.time.fabric = 512 * s.time.slotDone)

/-- STATE_CHANGE_COMPLETE (R332, R333): the accepted change takes effect at its boundary; a start-up ends by its own command. -/
def execStateChangeComplete (s : State) : Host.Outcome State Fault Refusal :=
  match s.ctl.change with
  | none => .next s
  | some t =>
    if s.ctl.mstate = .standby then .next s
    else if t = .standby then .next s.enterStandby
    else if s.atBoundary = false then .next s
    else .next { s with ctl := { s.ctl with mstate := t, change := none } }

/-- The module enters ready with module memory empty and nothing poisoned. -/
def State.emptiedReady (s : State) : State :=
  { s with hbm := { s.hbm with mem := [], poison := [], softRows := [], slice := [] }
           opt := { s.opt with supplyCut := false }
           ctl := { s.ctl with mstate := .ready, change := none } }

/-- What start-up found of churn k: the slots that locked and its calibration; of a churn that the finding does not list, all four slots
and nothing amiss. -/
def startChurn (f : StartFinding) (k : Nat) : BitVec 4 × CalFinding :=
  f.churns.getD k (15, { residual := [], noisy := 0, spareRows := 0, spareCols := 0, noise := 0, offset := 0, gain := 0, temp := 0 })

/-- START_UP_COMPLETE (R372, R373, R205): DQ lanes that failed training are steered, failed stacks and cores are retired, soft repairs become hard, memory reads as zeros, lanes
and churns are up, and a time root locks. -/
def execStartUpComplete (f : StartFinding) (s : State) : Host.Outcome State Fault Refusal :=
  if s.ctl.mstate = .standby ∧ s.ctl.change = some ModState.ready then
    let s := f.lanes.foldl (fun s l => s.steerLane l.1.toNat l.2.toNat) s
    let s := (f.failed.foldl (fun s k => s.stackFails k.toNat) s).retireStacks
    let s := f.cores.foldl (fun s c => s.retireCore c.toNat) s.retireCores
    let s := s.emptiedReady.opticsUp f
    let s := (List.range 64).foldl (fun s k => if (s.churn k).st = .waking then s.relit k (startChurn f k).1 (startChurn f k).2 else s) s
    let s := ((s.odp 0x1101 0x01 0 0).odp 0x1101 0x04 0 ((s.ctl.clock - s.ctl.startMark) / 1000)).odp 0x2001 0x03 0 St.OD_OK
    .next (if s.odg 0x2110 0x03 = 1 then s.lockTo 0 else s)
  else .next s

/-- Take a performance level (R333, R334): at the next step or slot boundary, and at once before fabric time locks. -/
def State.takeLevelWrite (s : State) (v : Nat) : State :=
  let t := s.odp 0x2001 0x04 0 v
  let t : State := { t with ctl := { t.ctl with levelDue := some v } }
  if t.time.everLock then t else t.takeLevel

/-- PERFORMANCE_LEVEL_COMMAND (R334): a value above 7 is refused. -/
def execPerformanceLevelCommand (v : BitVec 8) (s : State) : Host.Outcome State Fault Refusal :=
  .next (if s.ctl.mstate = .off then s
    else if 7 < v.toNat then s.answered St.OD_VALUE_RANGE
    else (s.takeLevelWrite v.toNat).answered St.OD_OK)

end Sys2Proof.Machine
end

