-- ==== Sys2Proof/Machine/OdTable.lean ====
section
/-! DEFINITION. The entries of the object dictionary: index, subindexes, type and access right (R12, R13, R321, R324), from
the tables of every chapter. A port's table is given once, at port 0 (R12). -/

namespace Sys2Proof.Machine

/-- Scalar types (Table 15-1). -/
inductive OdElem where
  | bool | u8 | u16 | u32 | u64 | i8 | i16 | i32 | i64 | f32 | f64 | time
  deriving DecidableEq, Repr

/-- Entry types (Table 15-1). -/
inductive OdType where
  | one (e : OdElem)
  | arr (e : OdElem) (n : Nat)
  | str (n : Nat)
  | blob (n : Nat)
  deriving DecidableEq, Repr

/-- Access rights (Table 00-3). -/
inductive OdAccess where
  | ro | rw | wo | w1c | rwp | rws
  deriving DecidableEq, Repr

/-- A row of the dictionary: index, first and last subindex, type, access right. -/
structure OdRow where
  idx : Nat
  lo  : Nat
  hi  : Nat
  typ : OdType
  acc : OdAccess
  deriving DecidableEq, Repr

/-- The size of a scalar in bytes (Table 15-1). -/
def OdElem.size : OdElem → Nat
  | .bool | .u8 | .i8 => 1
  | .u16 | .i16 => 2
  | .u32 | .i32 | .f32 => 4
  | .u64 | .i64 | .f64 | .time => 8

/-- The type code of a scalar (Table 15-1). -/
def OdElem.code : OdElem → Nat
  | .bool => 0x01 | .u8 => 0x02 | .u16 => 0x03 | .u32 => 0x04 | .u64 => 0x05 | .i8 => 0x06 | .i16 => 0x07 | .i32 => 0x08
  | .i64 => 0x09 | .f32 => 0x0A | .f64 => 0x0B | .time => 0x0C

/-- The type code of an entry (Table 15-1). -/
def OdType.code : OdType → Nat
  | .one e => e.code
  | .str _ => 0x0D
  | .blob _ => 0x0E
  | .arr _ _ => 0x0F

/-- The element type code, 0 for non-arrays (Table 15-4). -/
def OdType.elemCode : OdType → Nat
  | .arr e _ => e.code
  | _ => 0

/-- The number of elements and the size of one, in bytes (Table 15-1). -/
def OdType.shape : OdType → Nat × Nat
  | .one e => (1, e.size)
  | .arr e n => (n, e.size)
  | .str n => (n, 1)
  | .blob n => (n, 1)

/-- The size of an entry in bytes (Table 15-1). -/
def OdType.size (t : OdType) : Nat := t.shape.1 * t.shape.2

/-- The access code, in the order of Table 00-3 (Table 15-4). -/
def OdAccess.code : OdAccess → Nat
  | .ro => 0 | .rw => 1 | .wo => 2 | .w1c => 3 | .rwp => 4 | .rws => 5

/-- The entries of the range 0x10xx. -/
def odRows10 : List OdRow := [
  ⟨0x1000, 0x01, 0x01, .str 16, .ro⟩,
  ⟨0x1000, 0x02, 0x02, .str 16, .ro⟩,
  ⟨0x1000, 0x03, 0x03, .str 16, .ro⟩,
  ⟨0x1000, 0x04, 0x04, .arr .u16 16, .ro⟩,
  ⟨0x1000, 0x05, 0x05, .one .u16, .ro⟩,
  ⟨0x1000, 0x06, 0x06, .one .u32, .ro⟩,
  ⟨0x1000, 0x07, 0x07, .one .u16, .ro⟩,
  ⟨0x1000, 0x08, 0x08, .one .u8, .ro⟩,
  ⟨0x1020, 0x01, 0x10, .one .u32, .rw⟩,
  ⟨0x1020, 0x11, 0x11, .one .u64, .ro⟩,
  ⟨0x1021, 0x01, 0x10, .one .u32, .ro⟩,
  ⟨0x1030, 0x01, 0x01, .one .u64, .ro⟩,
  ⟨0x1030, 0x02, 0x02, .one .u64, .ro⟩,
  ⟨0x1030, 0x03, 0x03, .blob 16, .rw⟩,
  ⟨0x1030, 0x04, 0x04, .blob 16, .rw⟩,
  ⟨0x1030, 0x05, 0x05, .one .u8, .ro⟩,
  ⟨0x1030, 0x06, 0x06, .one .u8, .ro⟩,
  ⟨0x1030, 0x07, 0x07, .one .u64, .ro⟩,
  ⟨0x1030, 0x08, 0x08, .one .u64, .ro⟩,
  ⟨0x1030, 0x09, 0x09, .one .u64, .ro⟩]

/-- The entries of the range 0x11xx. -/
def odRows11 : List OdRow := [
  ⟨0x1101, 0x01, 0x01, .one .u8, .ro⟩,
  ⟨0x1101, 0x02, 0x02, .one .u8, .ro⟩,
  ⟨0x1101, 0x03, 0x03, .arr .u8 16, .ro⟩,
  ⟨0x1101, 0x04, 0x04, .one .u32, .ro⟩,
  ⟨0x1110, 0x01, 0x01, .one .u32, .rw⟩,
  ⟨0x1110, 0x02, 0x02, .blob 65536, .wo⟩,
  ⟨0x1110, 0x03, 0x03, .one .u32, .ro⟩,
  ⟨0x1110, 0x04, 0x04, .one .u8, .wo⟩,
  ⟨0x1110, 0x05, 0x05, .one .u16, .ro⟩,
  ⟨0x1110, 0x06, 0x06, .one .u8, .ro⟩,
  ⟨0x1111, 0x01, 0x01, .one .u8, .ro⟩,
  ⟨0x1111, 0x02, 0x02, .one .u32, .ro⟩,
  ⟨0x1112, 0x01, 0x01, .blob 176, .rwp⟩,
  ⟨0x1112, 0x02, 0x02, .one .u8, .rwp⟩,
  ⟨0x1112, 0x03, 0x03, .one .u8, .rwp⟩,
  ⟨0x1112, 0x04, 0x04, .one .u8, .rwp⟩,
  ⟨0x1112, 0x05, 0x05, .one .u16, .ro⟩,
  ⟨0x1112, 0x06, 0x06, .one .u8, .ro⟩,
  ⟨0x1112, 0x07, 0x07, .one .u8, .ro⟩,
  ⟨0x1113, 0x01, 0x01, .one .bool, .rwp⟩,
  ⟨0x1113, 0x02, 0x02, .one .bool, .wo⟩,
  ⟨0x1120, 0x01, 0x01, .blob 32, .wo⟩,
  ⟨0x1120, 0x02, 0x02, .blob 512, .ro⟩,
  ⟨0x1120, 0x03, 0x03, .blob 192, .ro⟩,
  ⟨0x1120, 0x04, 0x04, .one .u32, .ro⟩,
  ⟨0x1121, 0x01, 0x04, .blob 64, .ro⟩]

/-- The entries of the range 0x20xx. -/
def odRows20 : List OdRow := [
  ⟨0x2000, 0x01, 0x01, .one .u16, .ro⟩,
  ⟨0x2000, 0x02, 0x02, .one .u16, .ro⟩,
  ⟨0x2000, 0x03, 0x03, .one .u16, .ro⟩,
  ⟨0x2000, 0x04, 0x04, .one .u16, .rw⟩,
  ⟨0x2000, 0x05, 0x05, .one .u16, .ro⟩,
  ⟨0x2000, 0x06, 0x06, .one .u8, .ro⟩,
  ⟨0x2001, 0x01, 0x01, .one .u8, .ro⟩,
  ⟨0x2001, 0x02, 0x02, .one .u8, .wo⟩,
  ⟨0x2001, 0x03, 0x03, .one .u16, .ro⟩,
  ⟨0x2001, 0x04, 0x04, .one .u8, .rw⟩,
  ⟨0x2001, 0x05, 0x05, .one .u8, .ro⟩,
  ⟨0x2001, 0x06, 0x06, .one .u32, .ro⟩,
  ⟨0x2002, 0x01, 0x01, .arr .u16 27, .ro⟩,
  ⟨0x2002, 0x02, 0x02, .arr .u32 27, .ro⟩,
  ⟨0x2002, 0x03, 0x03, .arr .u16 27, .ro⟩,
  ⟨0x2002, 0x04, 0x04, .arr .u16 27, .ro⟩,
  ⟨0x2002, 0x05, 0x05, .one .u32, .ro⟩,
  ⟨0x2003, 0x01, 0x01, .arr .u16 4, .ro⟩,
  ⟨0x2003, 0x02, 0x02, .arr .u8 4, .ro⟩,
  ⟨0x2003, 0x03, 0x03, .one .u8, .ro⟩,
  ⟨0x2003, 0x04, 0x04, .one .u64, .ro⟩,
  ⟨0x2004, 0x01, 0x01, .arr .i16 4, .ro⟩,
  ⟨0x2004, 0x02, 0x02, .arr .i16 4, .ro⟩,
  ⟨0x2004, 0x03, 0x03, .arr .i16 4, .ro⟩,
  ⟨0x2004, 0x04, 0x04, .one .u8, .rw⟩,
  ⟨0x2004, 0x05, 0x05, .arr .u8 4, .ro⟩,
  ⟨0x2004, 0x06, 0x06, .arr .u16 4, .ro⟩,
  ⟨0x2005, 0x01, 0x01, .one .i16, .ro⟩,
  ⟨0x2005, 0x02, 0x02, .one .i16, .ro⟩,
  ⟨0x2005, 0x03, 0x03, .one .u16, .ro⟩,
  ⟨0x2005, 0x04, 0x04, .one .u8, .rw⟩,
  ⟨0x2006, 0x01, 0x01, .arr .u32 27, .ro⟩,
  ⟨0x2006, 0x02, 0x02, .arr .u64 64, .ro⟩,
  ⟨0x2006, 0x03, 0x03, .arr .u32 4, .ro⟩,
  ⟨0x2006, 0x04, 0x04, .arr .u32 4, .ro⟩,
  ⟨0x2006, 0x05, 0x05, .one .u64, .ro⟩,
  ⟨0x2006, 0x06, 0x06, .one .u64, .ro⟩,
  ⟨0x2006, 0x07, 0x07, .one .u64, .ro⟩,
  ⟨0x2006, 0x08, 0x08, .one .u64, .ro⟩]

/-- The entries of the range 0x21xx. -/
def odRows21 : List OdRow := [
  ⟨0x2100, 0x01, 0x01, .arr .u32 18, .ro⟩,
  ⟨0x2100, 0x02, 0x02, .one .u32, .ro⟩,
  ⟨0x2100, 0x03, 0x03, .one .bool, .ro⟩,
  ⟨0x2101, 0x01, 0x01, .one .u8, .rw⟩,
  ⟨0x2101, 0x02, 0x02, .arr .u16 4, .rw⟩,
  ⟨0x2101, 0x03, 0x03, .arr .u32 4, .ro⟩,
  ⟨0x2101, 0x04, 0x04, .arr .time 4, .ro⟩,
  ⟨0x2101, 0x05, 0x05, .arr .u32 4, .ro⟩,
  ⟨0x2102, 0x01, 0x01, .one .u64, .ro⟩,
  ⟨0x2102, 0x02, 0x02, .one .u64, .ro⟩,
  ⟨0x2110, 0x01, 0x01, .one .time, .ro⟩,
  ⟨0x2110, 0x02, 0x02, .one .u8, .ro⟩,
  ⟨0x2110, 0x03, 0x03, .one .bool, .rw⟩,
  ⟨0x2110, 0x04, 0x04, .one .u8, .rw⟩,
  ⟨0x2110, 0x05, 0x05, .one .u8, .rw⟩,
  ⟨0x2110, 0x06, 0x06, .one .i32, .ro⟩,
  ⟨0x2110, 0x07, 0x07, .one .u64, .ro⟩,
  ⟨0x2110, 0x08, 0x08, .one .u64, .ro⟩]

/-- The entries of the range 0x22xx. -/
def odRows22 : List OdRow := [
  ⟨0x2200, 0x01, 0x01, .arr .u8 64, .rw⟩,
  ⟨0x2200, 0x02, 0x02, .one .u8, .rw⟩,
  ⟨0x2200, 0x03, 0x03, .one .u32, .ro⟩,
  ⟨0x2200, 0x04, 0x04, .one .u64, .rw⟩,
  ⟨0x2200, 0x05, 0x05, .one .u32, .rw⟩,
  ⟨0x2201, 0x01, 0x01, .arr .u8 64, .ro⟩,
  ⟨0x2201, 0x02, 0x02, .arr .u8 64, .ro⟩,
  ⟨0x2201, 0x03, 0x03, .arr .u8 64, .ro⟩,
  ⟨0x2202, 0x01, 0x01, .one .u64, .ro⟩,
  ⟨0x2202, 0x02, 0x02, .one .u64, .ro⟩,
  ⟨0x2202, 0x03, 0x03, .one .u64, .ro⟩,
  ⟨0x2202, 0x04, 0x04, .one .u64, .ro⟩,
  ⟨0x2202, 0x05, 0x05, .one .u64, .ro⟩,
  ⟨0x2202, 0x06, 0x06, .one .u64, .ro⟩,
  ⟨0x2203, 0x01, 0x01, .arr .u16 64, .ro⟩,
  ⟨0x2203, 0x02, 0x02, .arr .u16 64, .ro⟩,
  ⟨0x2203, 0x03, 0x03, .arr .u16 64, .ro⟩,
  ⟨0x2203, 0x04, 0x04, .arr .i16 64, .ro⟩,
  ⟨0x2203, 0x05, 0x05, .one .u64, .ro⟩,
  ⟨0x2203, 0x06, 0x06, .one .u64, .ro⟩,
  ⟨0x2203, 0x07, 0x07, .one .u64, .ro⟩,
  ⟨0x2203, 0x08, 0x08, .one .u64, .ro⟩]

/-- The entries of the range 0x23xx. -/
def odRows23 : List OdRow := [
  ⟨0x2300, 0x01, 0x01, .arr .u8 64, .ro⟩,
  ⟨0x2300, 0x02, 0x02, .arr .u8 64, .ro⟩,
  ⟨0x2300, 0x03, 0x03, .arr .u64 64, .ro⟩,
  ⟨0x2300, 0x04, 0x04, .blob 4096, .ro⟩,
  ⟨0x2300, 0x05, 0x05, .arr .u8 64, .ro⟩,
  ⟨0x2301, 0x01, 0x01, .one .u64, .ro⟩,
  ⟨0x2301, 0x02, 0x02, .one .u64, .ro⟩,
  ⟨0x2302, 0x01, 0x01, .one .u32, .ro⟩]

/-- The entries of the range 0x24xx. -/
def odRows24 : List OdRow := [
  ⟨0x2400, 0x01, 0x01, .arr .i16 8, .ro⟩,
  ⟨0x2400, 0x02, 0x02, .arr .u8 8, .ro⟩,
  ⟨0x2400, 0x03, 0x03, .arr .u8 8, .ro⟩,
  ⟨0x2400, 0x04, 0x04, .arr .u32 8, .ro⟩,
  ⟨0x2401, 0x01, 0x01, .arr .u64 8, .ro⟩,
  ⟨0x2401, 0x02, 0x02, .arr .u64 8, .ro⟩,
  ⟨0x2401, 0x03, 0x03, .arr .u64 8, .ro⟩,
  ⟨0x2401, 0x04, 0x04, .arr .u64 8, .ro⟩,
  ⟨0x2401, 0x05, 0x05, .arr .u32 8, .ro⟩,
  ⟨0x2402, 0x01, 0x01, .arr .u32 8, .ro⟩,
  ⟨0x2402, 0x02, 0x02, .arr .u8 8, .ro⟩,
  ⟨0x2402, 0x03, 0x03, .blob 4096, .ro⟩,
  ⟨0x2402, 0x04, 0x04, .one .u64, .ro⟩,
  ⟨0x2403, 0x01, 0x01, .arr .u64 8, .ro⟩,
  ⟨0x2403, 0x02, 0x02, .arr .u64 8, .ro⟩,
  ⟨0x2403, 0x03, 0x03, .arr .u64 8, .ro⟩,
  ⟨0x2404, 0x01, 0x01, .arr .u64 4, .ro⟩,
  ⟨0x2404, 0x02, 0x02, .arr .u64 4, .ro⟩,
  ⟨0x2404, 0x03, 0x03, .arr .u64 4, .ro⟩,
  ⟨0x2404, 0x04, 0x04, .arr .u64 4, .ro⟩,
  ⟨0x2404, 0x05, 0x05, .arr .u64 4, .ro⟩,
  ⟨0x2404, 0x06, 0x06, .arr .u64 4, .ro⟩,
  ⟨0x2405, 0x01, 0x01, .one .u64, .rw⟩,
  ⟨0x2405, 0x02, 0x02, .one .u16, .rw⟩,
  ⟨0x2405, 0x03, 0x03, .arr .u32 8, .ro⟩,
  ⟨0x2405, 0x04, 0x04, .one .u64, .ro⟩,
  ⟨0x2405, 0x05, 0x05, .one .u64, .ro⟩,
  ⟨0x2406, 0x01, 0x10, .blob 16, .rw⟩]

/-- The entries of the range 0x25xx. -/
def odRows25 : List OdRow := [
  ⟨0x2500, 0x01, 0x01, .one .u8, .ro⟩,
  ⟨0x2500, 0x02, 0x02, .one .u16, .ro⟩,
  ⟨0x2500, 0x03, 0x03, .one .u16, .ro⟩,
  ⟨0x2500, 0x04, 0x04, .one .u16, .ro⟩,
  ⟨0x2500, 0x05, 0x05, .one .u64, .wo⟩,
  ⟨0x2501, 0x01, 0x01, .arr .u8 384, .ro⟩,
  ⟨0x2501, 0x02, 0x02, .arr .u8 384, .ro⟩,
  ⟨0x2501, 0x03, 0x03, .arr .u8 32, .ro⟩,
  ⟨0x2502, 0x01, 0x01, .one .u64, .ro⟩,
  ⟨0x2502, 0x02, 0x02, .one .u64, .ro⟩,
  ⟨0x2502, 0x03, 0x03, .one .u64, .ro⟩,
  ⟨0x2502, 0x04, 0x04, .one .u64, .ro⟩,
  ⟨0x2502, 0x05, 0x05, .one .u64, .ro⟩,
  ⟨0x2502, 0x06, 0x06, .one .u64, .ro⟩,
  ⟨0x2502, 0x07, 0x07, .one .u64, .ro⟩,
  ⟨0x2502, 0x08, 0x08, .one .u64, .ro⟩,
  ⟨0x2510, 0x01, 0x40, .blob 2368, .rw⟩,
  ⟨0x2511, 0x01, 0x01, .one .u64, .ro⟩]

/-- The entries of the range 0x26xx. -/
def odRows26 : List OdRow := [
  ⟨0x2600, 0x01, 0x01, .blob 256, .rw⟩,
  ⟨0x2600, 0x02, 0x02, .blob 256, .rw⟩,
  ⟨0x2600, 0x03, 0x03, .one .u8, .ro⟩,
  ⟨0x2600, 0x04, 0x04, .one .u8, .ro⟩,
  ⟨0x2600, 0x05, 0x05, .one .u64, .wo⟩,
  ⟨0x2600, 0x06, 0x06, .arr .u32 2, .ro⟩,
  ⟨0x2601, 0x01, 0x01, .arr .u8 4, .rw⟩,
  ⟨0x2601, 0x02, 0x02, .arr .u32 4, .rw⟩,
  ⟨0x2602, 0x01, 0x01, .one .u64, .rw⟩,
  ⟨0x2602, 0x02, 0x02, .one .u64, .rw⟩,
  ⟨0x2603, 0x01, 0x01, .one .u64, .ro⟩,
  ⟨0x2603, 0x02, 0x02, .one .u64, .ro⟩,
  ⟨0x2603, 0x03, 0x03, .one .u64, .ro⟩,
  ⟨0x2603, 0x04, 0x04, .one .u64, .ro⟩,
  ⟨0x2603, 0x05, 0x05, .one .u64, .ro⟩,
  ⟨0x2603, 0x06, 0x06, .one .u64, .ro⟩,
  ⟨0x2603, 0x07, 0x07, .one .u64, .ro⟩,
  ⟨0x2603, 0x08, 0x08, .one .u64, .ro⟩,
  ⟨0x2603, 0x09, 0x09, .one .u64, .ro⟩,
  ⟨0x2603, 0x0A, 0x0A, .one .u64, .ro⟩,
  ⟨0x2603, 0x0B, 0x0B, .one .u64, .ro⟩,
  ⟨0x2603, 0x0C, 0x0C, .one .u64, .ro⟩,
  ⟨0x2603, 0x0D, 0x0D, .one .u64, .ro⟩,
  ⟨0x2604, 0x01, 0x01, .one .u32, .wo⟩,
  ⟨0x2620, 0x01, 0x01, .blob 24640, .ro⟩,
  ⟨0x2620, 0x02, 0x02, .one .u32, .rw⟩]

/-- The entries of the range 0x27xx. -/
def odRows27 : List OdRow := [
  ⟨0x2700, 0x01, 0x01, .one .u64, .rw⟩,
  ⟨0x2700, 0x02, 0x02, .one .u16, .rw⟩,
  ⟨0x2701, 0x01, 0x01, .one .u8, .rw⟩,
  ⟨0x2702, 0x01, 0x01, .one .u64, .ro⟩,
  ⟨0x2702, 0x02, 0x02, .one .u64, .ro⟩,
  ⟨0x2702, 0x03, 0x03, .one .u64, .ro⟩,
  ⟨0x2702, 0x04, 0x04, .one .u64, .ro⟩,
  ⟨0x2702, 0x05, 0x05, .one .u64, .ro⟩,
  ⟨0x2702, 0x06, 0x06, .one .u64, .ro⟩,
  ⟨0x2702, 0x07, 0x07, .one .u64, .ro⟩,
  ⟨0x2702, 0x08, 0x08, .one .u64, .ro⟩,
  ⟨0x2702, 0x09, 0x09, .one .u64, .ro⟩,
  ⟨0x2702, 0x0A, 0x0A, .one .u64, .ro⟩,
  ⟨0x2702, 0x0B, 0x0B, .one .u64, .ro⟩]

/-- The entries of the range 0x28xx. -/
def odRows28 : List OdRow := [
  ⟨0x2800, 0x01, 0x01, .one .u64, .ro⟩,
  ⟨0x2800, 0x02, 0x02, .one .u8, .ro⟩,
  ⟨0x2801, 0x01, 0x01, .arr .u64 64, .ro⟩,
  ⟨0x2801, 0x02, 0x02, .arr .u8 64, .ro⟩,
  ⟨0x2801, 0x03, 0x03, .arr .u64 64, .ro⟩,
  ⟨0x2801, 0x04, 0x04, .arr .u8 64, .ro⟩,
  ⟨0x2802, 0x01, 0x01, .one .u64, .wo⟩,
  ⟨0x2803, 0x01, 0x01, .one .u64, .ro⟩,
  ⟨0x2803, 0x02, 0x02, .one .u64, .ro⟩,
  ⟨0x2803, 0x03, 0x03, .one .u64, .ro⟩,
  ⟨0x2803, 0x04, 0x04, .one .u64, .ro⟩,
  ⟨0x2803, 0x05, 0x05, .one .u64, .ro⟩,
  ⟨0x2803, 0x06, 0x06, .one .u64, .ro⟩,
  ⟨0x2803, 0x07, 0x07, .one .u64, .ro⟩,
  ⟨0x2804, 0x01, 0x01, .one .u64, .ro⟩,
  ⟨0x2804, 0x02, 0x02, .one .u64, .ro⟩,
  ⟨0x2805, 0x01, 0x01, .one .u64, .rw⟩,
  ⟨0x2805, 0x02, 0x02, .one .u8, .rw⟩,
  ⟨0x2805, 0x03, 0x03, .one .u64, .rw⟩,
  ⟨0x2805, 0x04, 0x04, .one .u64, .rw⟩,
  ⟨0x2805, 0x05, 0x05, .one .u8, .rw⟩,
  ⟨0x2805, 0x06, 0x06, .one .u16, .rw⟩,
  ⟨0x2805, 0x07, 0x07, .one .u64, .ro⟩,
  ⟨0x2805, 0x08, 0x08, .one .u64, .ro⟩,
  ⟨0x2805, 0x09, 0x09, .one .bool, .rw⟩,
  ⟨0x2806, 0x01, 0x01, .one .u8, .ro⟩,
  ⟨0x2806, 0x02, 0x02, .one .u8, .ro⟩,
  ⟨0x2806, 0x03, 0x03, .one .u64, .ro⟩,
  ⟨0x2806, 0x04, 0x04, .one .u64, .ro⟩,
  ⟨0x2806, 0x05, 0x05, .one .u64, .ro⟩,
  ⟨0x2806, 0x06, 0x06, .one .u64, .ro⟩,
  ⟨0x2806, 0x07, 0x07, .one .u64, .ro⟩,
  ⟨0x2806, 0x08, 0x08, .one .u8, .rw⟩]

/-- The entries of the range 0x29xx. -/
def odRows29 : List OdRow := [
  ⟨0x2900, 0x01, 0x01, .one .u64, .rw⟩,
  ⟨0x2900, 0x02, 0x02, .one .u32, .rw⟩,
  ⟨0x2900, 0x03, 0x03, .one .u32, .ro⟩,
  ⟨0x2900, 0x04, 0x04, .one .u32, .rw⟩,
  ⟨0x2900, 0x05, 0x05, .one .u8, .rw⟩,
  ⟨0x2900, 0x06, 0x06, .one .u64, .rw⟩,
  ⟨0x2900, 0x07, 0x07, .one .u32, .rw⟩,
  ⟨0x2900, 0x08, 0x08, .one .u64, .rw⟩,
  ⟨0x2901, 0x01, 0x01, .one .u32, .ro⟩,
  ⟨0x2901, 0x02, 0x02, .one .u16, .ro⟩,
  ⟨0x2901, 0x03, 0x03, .one .u32, .ro⟩,
  ⟨0x2901, 0x04, 0x04, .one .u64, .ro⟩,
  ⟨0x2901, 0x05, 0x05, .one .u64, .ro⟩,
  ⟨0x2901, 0x06, 0x06, .one .u64, .ro⟩,
  ⟨0x2902, 0x01, 0x01, .one .u8, .rw⟩,
  ⟨0x2902, 0x02, 0x02, .one .u8, .rw⟩,
  ⟨0x2910, 0x01, 0x01, .one .u64, .ro⟩,
  ⟨0x2910, 0x02, 0x02, .one .u64, .ro⟩,
  ⟨0x2910, 0x03, 0x03, .one .u64, .ro⟩,
  ⟨0x2910, 0x04, 0x04, .one .u64, .ro⟩,
  ⟨0x2910, 0x05, 0x05, .one .u64, .ro⟩,
  ⟨0x2910, 0x06, 0x06, .one .u64, .ro⟩,
  ⟨0x2910, 0x07, 0x07, .one .u64, .ro⟩,
  ⟨0x2910, 0x08, 0x08, .one .u32, .ro⟩,
  ⟨0x2920, 0x01, 0x01, .one .u64, .ro⟩,
  ⟨0x2920, 0x02, 0x02, .one .u64, .ro⟩,
  ⟨0x2920, 0x03, 0x03, .one .u64, .ro⟩,
  ⟨0x2920, 0x04, 0x04, .one .u64, .ro⟩,
  ⟨0x2920, 0x05, 0x05, .one .u64, .ro⟩]

/-- The entries of the range 0x30xx. -/
def odRows30 : List OdRow := [
  ⟨0x3000, 0x01, 0x01, .one .u8, .ro⟩,
  ⟨0x3000, 0x02, 0x02, .arr .u32 9, .ro⟩,
  ⟨0x3000, 0x03, 0x03, .one .u32, .ro⟩,
  ⟨0x3001, 0x01, 0x01, .one .u16, .ro⟩,
  ⟨0x3001, 0x02, 0x02, .one .u8, .ro⟩,
  ⟨0x3001, 0x03, 0x03, .one .u8, .ro⟩,
  ⟨0x3001, 0x04, 0x04, .one .u16, .ro⟩,
  ⟨0x3001, 0x05, 0x05, .one .u16, .ro⟩,
  ⟨0x3001, 0x06, 0x06, .one .u32, .ro⟩,
  ⟨0x3001, 0x07, 0x07, .one .u8, .ro⟩,
  ⟨0x3001, 0x08, 0x08, .one .u32, .ro⟩,
  ⟨0x3002, 0x01, 0x01, .arr .u16 64, .rw⟩,
  ⟨0x3002, 0x02, 0x02, .arr .u8 64, .rw⟩,
  ⟨0x3002, 0x03, 0x03, .arr .u16 64, .rw⟩,
  ⟨0x3002, 0x04, 0x04, .arr .u16 64, .rw⟩,
  ⟨0x3003, 0x01, 0x01, .one .u64, .ro⟩,
  ⟨0x3003, 0x02, 0x02, .one .u64, .ro⟩,
  ⟨0x3004, 0x01, 0x01, .one .u64, .ro⟩,
  ⟨0x3004, 0x02, 0x02, .one .u64, .ro⟩]

/-- The entries of the range 0x31xx. -/
def odRows31 : List OdRow := [
  ⟨0x3100, 0x01, 0x01, .one .u16, .rw⟩,
  ⟨0x3100, 0x02, 0x02, .one .u32, .ro⟩,
  ⟨0x3100, 0x03, 0x03, .one .u64, .ro⟩,
  ⟨0x3100, 0x04, 0x04, .one .u32, .ro⟩,
  ⟨0x3100, 0x05, 0x05, .one .u16, .ro⟩,
  ⟨0x3100, 0x06, 0x06, .one .u32, .rw⟩,
  ⟨0x3100, 0x07, 0x07, .blob 1024, .ro⟩,
  ⟨0x3100, 0x08, 0x08, .one .u8, .rws⟩,
  ⟨0x3100, 0x09, 0x09, .one .u64, .ro⟩]

/-- The entries of the range 0x32xx. -/
def odRows32 : List OdRow := [
  ⟨0x3200, 0x01, 0x01, .one .bool, .rw⟩,
  ⟨0x3200, 0x02, 0x02, .one .u8, .rw⟩,
  ⟨0x3200, 0x03, 0x03, .one .u64, .rw⟩,
  ⟨0x3200, 0x04, 0x04, .one .u32, .rw⟩,
  ⟨0x3200, 0x05, 0x05, .one .u8, .rw⟩,
  ⟨0x3200, 0x06, 0x06, .one .u32, .rw⟩,
  ⟨0x3200, 0x07, 0x07, .one .u32, .ro⟩,
  ⟨0x3200, 0x08, 0x08, .one .u64, .ro⟩,
  ⟨0x3201, 0x01, 0x01, .one .u64, .ro⟩,
  ⟨0x3201, 0x02, 0x02, .blob 1024, .ro⟩,
  ⟨0x3201, 0x03, 0x03, .one .u64, .rw⟩,
  ⟨0x3201, 0x04, 0x04, .one .u64, .ro⟩]

/-- The entries of the range 0x40xx. -/
def odRows40 : List OdRow := [
  ⟨0x4000, 0x01, 0x01, .one .u8, .ro⟩,
  ⟨0x4000, 0x02, 0x02, .one .u32, .ro⟩,
  ⟨0x4000, 0x03, 0x03, .one .u32, .ro⟩,
  ⟨0x4000, 0x04, 0x04, .one .u32, .ro⟩,
  ⟨0x4000, 0x05, 0x05, .one .i16, .ro⟩,
  ⟨0x4000, 0x06, 0x06, .one .u32, .ro⟩,
  ⟨0x4000, 0x07, 0x07, .one .u32, .ro⟩,
  ⟨0x4000, 0x08, 0x08, .one .u32, .ro⟩,
  ⟨0x4000, 0x09, 0x09, .blob 32, .ro⟩,
  ⟨0x4000, 0x0A, 0x0A, .blob 32, .ro⟩,
  ⟨0x4000, 0x0B, 0x0B, .one .u32, .ro⟩,
  ⟨0x4000, 0x0C, 0x0C, .one .u64, .ro⟩,
  ⟨0x4001, 0x01, 0x01, .one .u8, .ro⟩,
  ⟨0x4001, 0x02, 0x02, .arr .u16 8, .ro⟩,
  ⟨0x4001, 0x03, 0x03, .arr .u16 8, .ro⟩,
  ⟨0x4001, 0x04, 0x04, .one .u32, .ro⟩,
  ⟨0x4001, 0x05, 0x05, .one .u32, .ro⟩,
  ⟨0x4001, 0x06, 0x06, .one .u32, .ro⟩,
  ⟨0x4001, 0x07, 0x07, .one .u64, .ro⟩,
  ⟨0x4001, 0x08, 0x08, .one .u32, .ro⟩]

/-- Every row of the dictionary. -/
def odRows : List OdRow :=
  odRows10 ++ odRows11 ++ odRows20 ++ odRows21 ++ odRows22 ++ odRows23 ++ odRows24 ++ odRows25 ++ odRows26 ++ odRows27 ++ odRows28 ++ odRows29 ++ odRows30 ++ odRows31 ++ odRows32 ++ odRows40

/-- The index under which a port's table is given: port tables at 0x4000 + port × 0x20 (R12). -/
def odIndex (idx : Nat) : Nat := if 0x4000 ≤ idx ∧ idx ≤ 0x45FF then 0x4000 + idx % 0x20 else idx

/-- The port of a port-table index (R12). -/
def odPort (idx : Nat) : Nat := (idx - 0x4000) / 0x20

/-- The row of an entry (R322): none where no chapter defines one. -/
def odRow (idx sub : Nat) : Option OdRow :=
  (match odIndex idx / 256 with
  | 0x10 => odRows10
  | 0x11 => odRows11
  | 0x20 => odRows20
  | 0x21 => odRows21
  | 0x22 => odRows22
  | 0x23 => odRows23
  | 0x24 => odRows24
  | 0x25 => odRows25
  | 0x26 => odRows26
  | 0x27 => odRows27
  | 0x28 => odRows28
  | 0x29 => odRows29
  | 0x30 => odRows30
  | 0x31 => odRows31
  | 0x32 => odRows32
  | 0x40 => odRows40
  | _ => []).find? fun r => decide (r.idx = odIndex idx ∧ r.lo ≤ sub ∧ sub ≤ r.hi)

end Sys2Proof.Machine
end

