-- ==== Sys2Proof/Machine/Dict.lean ====
section
/-! DEFINITION. Reading and writing the object dictionary (R13, R321-R323): what entries show of the machine, and what a write of
each does. Every path to the dictionary uses these. -/

namespace Sys2Proof.Machine

/-! ### Reading -/

/-- The bytes of a herd-book record (Table 19-6), VALID set. -/
def herdBytes (r : HerdRec) : List Byte :=
  leBytes 4 r.seq ++ leBytes 2 r.boot ++ leBytes 2 r.kind ++ leBytes 4 r.inst ++ leBytes 4 r.count ++ leBytes 4 (uNat 32 r.qmin)
    ++ leBytes 4 (uNat 32 r.qmax) ++ leBytes 8 r.arg ++ ((List.range 8).map fun b => leBytes 2 (r.hist.getD b 0)).flatten
    ++ leBytes 4 r.interval ++ leBytes 2 r.ms ++ leBytes 2 r.flags ++ leBytes 4 r.last ++ leBytes 2 r.merged ++ leBytes 2 0x8000

/-- The bytes of the herd book at a position: zeros where none is written (R402). -/
def State.herdAt (s : State) (p : Nat) : List Byte :=
  match Sparse.find s.herd.recs p with
  | some r => herdBytes r
  | none => List.replicate 64 0

/-- The nominal frequency of a domain in kHz (Table 17-1), the lowest instance. -/
def State.domainKhz (s : State) (d : Nat) : Nat :=
  match d with
  | 1 => 1000 * ((List.range 64).foldl (fun f r =>
      Nat.min f (s.fEff (r / 16) / (if bit (s.odg 0x2003 0x04) r then 2 else 1))) 1200)
  | 2 => 1600000
  | 3 => 1000000 * ((List.range 64).foldl (fun f k => Nat.min f (s.churn k).rate) 4)
  | 4 => 2000000
  | 5 => 250000
  | 6 => 500000
  | 7 => 500000
  | 8 => 1500000
  | 9 => 3000000
  | 10 => 1500000
  | 11 => 2000000
  | 12 => if s.odg 0x2806 0x02 = 16 then 250000 else if s.odg 0x2806 0x02 = 32 then 500000 else 1000000
  | 13 => 1000000
  | 14 => 1000000
  | 15 => 800000
  | 16 => 390625
  | _ => 0

/-- Whether an instance of a domain runs (Table 17-1, R357); domain 17 runs while TCK does, which nothing here knows. -/
def State.domainRuns (s : State) (d : Nat) : Bool :=
  let some_ := (List.range (domainInstances d)).any fun i => !s.clk.stopped.contains (clockKey d i)
  match d with
  | 1 => s.powered && some_
  | 3 => s.powered && (List.range 64).any fun k => decide ((s.churn k).st ≠ .dark ∧ (s.churn k).st ≠ .retired)
  | 7 => s.powered && (List.range 48).any fun p => !s.mayStop 7 p
  | 9 | 10 => s.powered && (List.range 8).any fun k => decide (s.odg 0x2400 0x03 k = 0)
  | 11 => s.powered && some_
  | 12 => s.host.linkUp
  | 2 | 4 | 5 | 6 | 8 | 13 => s.powered
  | 14 | 15 | 16 | 18 => true
  | _ => false

/-- The code of a time state (OD 0x2110:02). -/
def TimeState.code : TimeState → Nat
  | .unlocked => 0
  | .locked => 1
  | .holdover => 2
  | .lost => 3

/-- The code of a context state (OD 0x2801:04): a started context counts as running (R312), a loaded one as paused (log entry 24). -/
def CtxState.code : CtxState → Nat
  | .empty => 0
  | .running | .started => 1
  | .loaded | .paused => 2
  | .stopped => 3

/-- The code of a churn state (Table 02-10). -/
def ChState.code : ChState → Nat
  | .dark => 0
  | .waking => 1
  | .ready => 2
  | .streaming => 3
  | .calibrating => 4
  | .relighting => 5
  | .retired => 6

/-- Byte k of the list of retired frames (OD 0x2402:03). -/
def State.frameByte (s : State) (k : Nat) : Nat :=
  match s.hbm.frames[k / 4]? with
  | some f => f / 256 ^ (k % 4) % 256
  | none => 0xFF

/-- The state of a link (OD base+1:01). -/
def Link.code (l : Link) : Nat :=
  if !l.up then 0 else if l.repairOwn.isSome || l.repairPeer.isSome then 3 else if l.nack.isSome || l.replay || !l.resend.isEmpty then 2 else 1

/-- What a view of the machine reads: element k of an entry of chapters 15 to 18. -/
def State.viewA (s : State) (e k : Nat) : Option Nat :=
  match e with
  | 0x100003 => some (s.fuse k).toNat
  | 0x100008 => some Config.trayPosition.toNat
  | 0x103001 => some (Config.macAddress 0).toNat
  | 0x103002 => some (Config.macAddress 1).toNat
  | 0x103006 => some s.svc.sessions.length
  | 0x111206 => some (((List.range 8).filter s.slotValid).foldl (fun m b => m + 2 ^ b) 0)
  | 0x111207 => some s.svnCount
  | 0x112003 => some (if k < 171 then (s.fuse (80 + k)).toNat else 0)
  | 0x112101 => some ((s.sec.meas.getD 0 []).getD k 0).toNat
  | 0x112102 => some ((s.sec.meas.getD 1 []).getD k 0).toNat
  | 0x112103 => some ((s.sec.meas.getD 2 []).getD k 0).toNat
  | 0x112104 => some ((s.sec.meas.getD 3 []).getD k 0).toNat
  | 0x200006 => some s.capStages
  | 0x200101 => some s.stateCode
  | 0x200301 => some (s.fEff k)
  | 0x200302 => some (s.fTerm k)
  | 0x200303 => some (s.pow.pace * 100 / 8)
  | 0x210001 => some (s.domainKhz (k + 1))
  | 0x210002 => some (((List.range 18).filter fun d => s.domainRuns (d + 1)).foldl (fun m b => m + 2 ^ b) 0)
  | _ => none

/-- What a view of the machine reads: element k of an entry of chapters 2 to 14. -/
def State.viewB (s : State) (e k : Nat) : Option Nat :=
  match e with
  | 0x211001 => some s.time.fabric
  | 0x211002 => some s.time.state.code
  | 0x211006 => some (uNat 32 (clampInt (-2147483648) 2147483647 s.time.offsetPs))
  | 0x211008 => some (s.time.fabric / 512)
  | 0x220101 => some (s.churn k).st.code
  | 0x230201 => some Config.tableVersion.toNat
  | 0x240203 => some (s.frameByte k)
  | 0x240204 => some s.usableBytes
  | 0x240503 => some (s.host.filter.filter fun l => decide (s.lineDie l = k)).length
  | 0x250101 => some (s.laneState (true, k))
  | 0x250102 => some (s.laneState (false, k))
  | 0x250002 => some (countBelow (fun n => decide (s.laneState (true, n) = 3)) 384)
  | 0x250003 => some (countBelow (fun n => decide (s.laneState (false, n) = 3)) 384)
  | 0x250004 => some (((List.range 48).map fun p => countBelow (fun c => (s.passPort s.planNow p c).isSome) 32).foldl (· + ·) 0)
  | 0x260006 => some (s.rt.held.filter fun h => decide (pktVer h.pkt = k)).length
  | 0x280001 => some (((List.range 64).filter s.resident).foldl (fun m b => m + 2 ^ b) 0)
  | 0x280002 => some (((s.runningCtx).orElse fun _ => (Sparse.keys s.ctxs).find? fun c => decide ((s.ctx c).st = .started)).getD 0xFF)
  | 0x280101 => some (s.ctx k).step
  | 0x280102 => some (s.ctx k).version
  | 0x280103 => some (s.ctx k).slots
  | 0x280104 => some (s.ctx k).st.code
  | 0x280507 => some s.host.taken
  | 0x280508 => some (s.host.rspNext - s.host.held.length)
  | _ => none

/-- What a view of the machine reads: element k of an entry of chapters 19 and 20. -/
def State.viewC (s : State) (e k : Nat) : Option Nat :=
  match e with
  | 0x300101 => some s.coresNow
  | 0x300102 => some s.churnsNow
  | 0x300103 => some s.fullChurns
  | 0x300104 => some (s.lanesNow true)
  | 0x300105 => some (s.lanesNow false)
  | 0x300106 => some s.objsNow
  | 0x300107 => some (4 - s.sync.spared.length)
  | 0x300108 => some (s.odg 0x3001 0x08 + 128 * b2n s.sec.keyBad)
  | 0x310002 => some s.herd.next
  | 0x310004 => some s.herd.seq
  | 0x310005 => some s.herd.boot
  | 0x310007 => some ((s.herdAt (s.odg 0x3100 0x06 + k / 64)).getD (k % 64) 0).toNat
  | 0x320007 => some (match s.runningCtx with
      | some c => (s.files.filter fun f => decide (f.1 % 64 = c) && f.2.halted && !f.2.stepOne).length
      | none => 0)
  | 0x320101 => some s.trace.written
  | 0x320102 =>
    let size := s.odg 0x3200 0x04
    let n := s.odg 0x3201 0x03 + k / 32
    some (if size = 0 then 0 else (s.memByte (s.odg 0x3200 0x03 + 32 * (n % (size / 32)) + k % 32)).toNat)
  | _ => none

/-- What a view of a port reads (Tables 11-13, 12-9). -/
def State.viewPort (s : State) (idx sub k : Nat) : Option Nat :=
  let p := odPort idx
  if odIndex idx = 0x4000 then
    (if sub = 0x0C then some (((List.range 64).filter fun n => s.agreed n p).foldl (fun m b => m + 2 ^ b) 0) else none)
  else match sub with
    | 0x01 => some (s.link p).code
    | 0x02 => some (if (s.link p).up then ((s.link p).vc k).free else 0)
    | 0x03 => some (if (s.link p).up then ((s.link p).vc k).held else 0)
    | _ => none

/-- The entries that read what nothing in the state determines: regulators, thermometers, flow, the tones (0 where the port is not lit) and powers at the ports,
the reference clock, and RWP entries that are written only (log entry 9). -/
def freeEntries : List Nat :=
  [0x200001, 0x200002, 0x200003, 0x200005, 0x200201, 0x200202, 0x200203, 0x200204, 0x200406, 0x200501, 0x200502, 0x200503, 0x210003
   , 0x400004, 0x400005, 0x111201, 0x111202, 0x111203, 0x111204]

/-- Whether an entry reads so. -/
def freeEntry (idx sub : Nat) : Bool := freeEntries.contains (odIndex idx * 256 + sub)

/-- Element k of an entry as a read sees it. -/
def State.odElem (s : State) (row : OdRow) (idx sub k : Nat) : Nat :=
  if row.acc = .wo then 0
  else if idx * 256 + sub = 0x111201 ∧ 171 ≤ k then 0
  else if odIndex idx * 256 + sub = 0x400004 ∧ s.portState (odPort idx) ≠ 1 then 0
  else if idx * 256 + sub = 0x200503 ∧ s.powered = false then 0xFFFF
  else if idx * 256 + sub = 0x200406 then (if s.powered then (Config.reading (odKey idx sub k) s.free) % 301 else 0)
  else if freeEntry idx sub then Config.reading (odKey idx sub k) s.free
  else if 0x4000 ≤ idx then (s.viewPort idx sub k).getD (s.odg idx sub k)
  else
    let e := idx * 256 + sub
    ((s.viewA e k).orElse fun _ => (s.viewB e k).orElse fun _ => s.viewC e k).getD (s.odg idx sub k)

/-- The bytes of an entry (Table 15-1); none where no entry is. -/
def State.odRead (s : State) (idx sub : Nat) : Option (List Byte) :=
  (odRow idx sub).map fun row =>
    let sh := row.typ.shape
    ((List.range sh.1).map fun k => leBytes sh.2 (s.odElem row idx sub k)).flatten

/-- Reading an entry whose value is free draws it anew the next time. -/
def State.afterRead (s : State) (idx sub : Nat) : State := if freeEntry idx sub then s.drawn else s

/-! ### Checks of a write -/

/-- Whether a write covers what its type wants (R322). -/
def sizeOk (t : OdType) (off n : Nat) : Bool :=
  match t with
  | .arr e k => decide (0 < n ∧ off % e.size = 0 ∧ n % e.size = 0 ∧ off + n ≤ k * e.size)
  | _ => decide (off = 0 ∧ n = t.size)

/-- The elements that a write carries. -/
def elemsOf (size : Nat) (bs : List Byte) : List Nat := (List.range (bs.length / size)).map fun i => fld bs (size * i) size

/-- Whether a reserved bit is nonzero (R10), where the entry's own rule does not look itself. -/
def odResv (e v : Nat) (bs : List Byte) : Bool :=
  match e with
  | 0x210101 => decide (16 ≤ v)
  | 0x260401 => decide (2 ^ 18 ≤ v)
  | 0x270101 => decide (128 ≤ v)
  | _ => (decide (0x102001 ≤ e ∧ e ≤ 0x102010) && decide (2 ^ 24 ≤ v))
    || (decide (0x240601 ≤ e ∧ e ≤ 0x240610) && (decide (2 ^ 52 ≤ fld bs 0 8) || decide (8 ≤ fld bs 15 1)))

/-- Whether a value is one that the entry's table permits (R322). -/
def State.odInRange (s : State) (e v : Nat) (es : List Nat) (bs : List Byte) : Bool :=
  match e with
  | 0x200004 => decide (1000 ≤ v ∧ v ≤ 2200 ∧ v % 50 = 0)
  | 0x200102 => decide (1 ≤ v ∧ v ≤ 4)
  | 0x200104 => decide (v ≤ 7)
  | 0x200404 => decide (60 ≤ v ∧ v ≤ 70)
  | 0x200504 | 0x220002 | 0x290005 | 0x320005 => decide (v ≤ 1)
  | 0x111001 => decide (v % 65536 = 0)
  | 0x211004 | 0x211005 => decide (v ≤ 47 ∨ v = 0xFF)
  | 0x220001 => es.all fun x => decide (1 ≤ x ∧ x ≤ 4)
  | 0x240501 => decide (v % 2 ^ 28 = 0 ∧ v + s.odg 0x2405 0x02 * 2 ^ 28 ≤ 2 ^ 39)
  | 0x240502 => decide (v ≤ 256 ∧ s.odg 0x2405 0x01 + v * 2 ^ 28 ≤ 2 ^ 39)
  | 0x260101 => es.all fun x => decide (1 ≤ x ∧ x ≤ 15)
  | 0x260102 => es.all fun x => decide (65536 ≤ x ∧ x ≤ 16777216 ∧ x % 4096 = 0)
  | 0x260201 => decide (v % 2 ^ 21 = 0 ∧ v + 2 ^ 24 ≤ 2 ^ 39)
  | 0x260202 => decide (v % 2 ^ 21 = 0 ∧ v + 2 ^ 21 ≤ 2 ^ 39)
  | 0x262002 => decide (64 ≤ v ∧ v ≤ 1048576)
  | 0x270001 | 0x290008 => decide (v % 8 = 0 ∧ v < 2 ^ 39)
  | 0x280501 | 0x280504 => decide (v % 4096 = 0)
  | 0x280502 | 0x280505 => decide (4 ≤ v ∧ v ≤ 12)
  | 0x280503 => decide (v % 64 = 0)
  | 0x280506 => decide (v ≤ 3 ∨ v = 0xFFFF)
  | 0x280608 => decide (1 ≤ v ∧ v ≤ 64)
  | 0x290001 => decide (v % 2 ^ 21 = 0 ∧ v < 2 ^ 39)
  | 0x290006 => decide (v % 65536 = 0)
  | 0x290201 => decide (v ≤ 2)
  | 0x290202 => decide (1 ≤ v ∧ v ≤ 2)
  | 0x310001 => decide (100 ≤ v ∧ v ≤ 60000)
  | 0x310006 => decide (v ≤ 65535)
  | 0x310008 | 0x111004 => decide (v = 1)
  | 0x320003 => decide (v % 4096 = 0 ∧ v < 2 ^ 39)
  | 0x320004 => decide (v % 4096 = 0 ∧ 65536 ≤ v)
  | _ => decide (¬ (0x240601 ≤ e ∧ e ≤ 0x240610)) || (decide (fld bs 0 8 % 65536 = 0) && decide (fld bs 8 7 % 65536 = 0))

/-- Whether a descriptor in flight uses a host range (R317). -/
def State.rangeInUse (s : State) (i : Nat) : Bool :=
  let r := s.hostRange i
  s.dmaq.any fun q => q.2.items.any fun d =>
    d.started && d.record.isNone && [srcSide d.bytes, dstSide d.bytes].any fun x =>
      decide (x.sp = 3 ∧ r.1 ≤ x.base ∧ x.base < r.1 + r.2.1)

/-- Whether an entry may be written only while tracing is off (R413). -/
def traceConfig (e : Nat) : Bool := decide (0x320002 ≤ e ∧ e ≤ 0x320006)

/-- The refusal that an entry's own rule gives, 0 where none. -/
def State.odOwn (s : State) (e v : Nat) (bs : List Byte) : Nat :=
  match e with
  | 0x111002 => s.chunkStatus bs
  | 0x111004 => s.verifyStatus v
  | 0x240501 | 0x240502 => if s.host.committed then St.HOST_WINDOW_IN_USE else 0
  | 0x250005 => s.planSelectStatus v
  | 0x260001 => s.routeTableStatus 0 bs
  | 0x260002 => s.routeTableStatus 1 bs
  | 0x260005 => s.epochSelectStatus v
  | 0x260201 | 0x260202 => if s.anyResident then St.FAB_AREA_IN_USE else 0
  | 0x280201 => s.switchStatus v
  | _ =>
    if 0x251001 ≤ e ∧ e ≤ 0x251040 then s.lanePlanStatus (e - 0x251001) bs
    else if 0x240601 ≤ e ∧ e ≤ 0x240610 then (if s.rangeInUse (e - 0x240601) then St.HOST_RANGE_IN_USE else 0)
    else if 0x280501 ≤ e ∧ e ≤ 0x280506 then (if s.ringOn then St.HOST_RING_IN_USE else 0)
    else if traceConfig e then (if s.odg 0x3200 0x01 = 1 then St.OD_ACCESS_REFUSED else 0)
    else 0

/-- Whether the access right of a row permits a write now (Table 00-3). -/
def State.mayWrite (s : State) (a : OdAccess) : Bool :=
  match a with
  | .ro => false
  | .rw | .wo | .w1c => true
  | .rwp => s.presenceHeld
  | .rws => decide (s.ctl.mstate = .service) && s.ctl.change.isNone

/-- The first refusal of R322's order that a write meets, 0 where it is taken. -/
def State.odStatus (s : State) (idx sub off : Nat) (bs : List Byte) : Nat :=
  match odRow idx sub with
  | none => St.OD_NO_ENTRY
  | some row =>
    let e := idx * 256 + sub
    let v := leNat bs
    let es := elemsOf row.typ.shape.2 bs
    if s.mayWrite row.acc = false then St.OD_ACCESS_REFUSED
    else if sizeOk row.typ off bs.length = false then St.OD_SIZE_MISMATCH
    else if odResv e v bs then St.OD_RESERVED_NONZERO
    else if (decide (row.typ = .one .bool) && decide (1 < v)) || !s.odInRange e v es bs then St.OD_VALUE_RANGE
    else s.odOwn e v bs

/-! ### What a write does -/

/-- Write elements of a register from an element on. -/
def State.odPut (s : State) (idx sub k : Nat) (es : List Nat) : State :=
  es.zipIdx.foldl (fun s x => s.odp idx sub (k + x.2) x.1) s

/-- The environment of a fuse operation that meets nothing. -/
def fuseGood : FuseEnv := ⟨none, false⟩

/-- Take a write of the dark timeout: clearing it wakes DARK churns (Table 02-11). -/
def State.takeDarkTimeout (s : State) (v : Nat) : State :=
  let t := s.odp 0x2200 0x05 0 v
  if v = 0 ∧ s.powered = true then
    (List.range 64).foldl (fun s k =>
      let x := s.churn k
      if x.st = .dark then s.setChurn k { x with st := .waking } else s) t
  else t

/-- Take a write of symbol rates (R32): each churn whose rate changes takes it at its next command boundary. -/
def State.takeRates (s : State) (k : Nat) (es : List Nat) : State :=
  es.zipIdx.foldl (fun s x =>
    let ch := k + x.2
    if s.odg 0x2200 0x01 ch = x.1 then s else (s.odp 0x2200 0x01 ch x.1).setChurn ch { s.churn ch with rateDue := true }) s

/-- Take a write of trace enable (R413, Table 20-5): from 0 to 1 everything is counted anew. -/
def State.takeTraceEnable (s : State) (v : Nat) : State :=
  let t := s.odp 0x3200 0x01 0 v
  if v = 1 ∧ s.odg 0x3200 0x01 = 0 then { t with trace := { queue := [], accepted := 0, written := 0, dropped := 0 } } else t

/-- The state that a state code names (Table 15-6). -/
def stateOf (v : Nat) : ModState := if v = 1 then .standby else if v = 2 then .ready else if v = 3 then .run else .service

/-- Take a state command written to OD 0x2001:02; whether a SAFE cause has cleared is a free value here (log entry 25). -/
def State.takeStateWrite (s : State) (v : Nat) : State × Nat :=
  let cleared := bit (Config.freeWord s.free).toNat 0
  let s := if s.ctl.mstate = .safe then s.drawn else s
  (s.takeState (stateOf v) cleared, s.stateStatus (stateOf v) cleared)

/-- An aperture with neither snapshot nor staging. -/
def apNone : Aperture := { snap := none, stage := none }

/-- Take a selector (R330, R331): the aperture's snapshot and staging are discarded. -/
def State.takeSelector (s : State) (k v : Nat) : State :=
  let t := s.odp 0x1020 (k + 1) 0 v
  { t with svc := { t.svc with aps := Sparse.del t.svc.aps k } }

/-- Apply a write that no check refuses, with its status. -/
def State.odApply (s : State) (idx sub k : Nat) (es : List Nat) (bs : List Byte) : State × Nat :=
  let v := leNat bs
  match idx * 256 + sub with
  | 0x111002 => (s.takeChunk bs, 0)
  | 0x111004 => (s.takeVerify, 0)
  | 0x111201 => s.takeOwnerKey bs fuseGood
  | 0x111202 => s.takeOwnerRevoke v fuseGood
  | 0x111203 => s.takeVendorRevoke v fuseGood
  | 0x111204 => s.takeSvn v fuseGood
  | 0x111301 => s.takeDebugEnable v
  | 0x111302 => (s.takeDebugDisable v, 0)
  | 0x112001 => (s.takeNonce bs, 0)
  | 0x200004 => (s.takeCap v, 0)
  | 0x200102 => s.takeStateWrite v
  | 0x200104 => (s.takeLevelWrite v, 0)
  | 0x220001 => (s.takeRates k es, 0)
  | 0x220005 => (s.takeDarkTimeout v, 0)
  | 0x250005 => (s.takePlanSelect v, 0)
  | 0x260001 => (s.takeRouteTable 0 bs, 0)
  | 0x260002 => (s.takeRouteTable 1 bs, 0)
  | 0x260005 => (s.takeEpochSelect v, 0)
  | 0x260401 => (s.takeWindowReset v, 0)
  | 0x280201 => (s.takeSwitch v, 0)
  | 0x280509 => (s.takeRing v, 0)
  | 0x310008 => (s.takeClear, 0)
  | 0x320001 => (s.takeTraceEnable v, 0)
  | e =>
    if 0x102001 ≤ e ∧ e ≤ 0x102010 then (s.takeSelector (e - 0x102001) v, 0)
    else if 0x251001 ≤ e ∧ e ≤ 0x251040 then (s.takeLanePlan (e - 0x251001) bs, 0)
    else (s.odPut idx sub k es, 0)

/-- Write an entry (R322): whole or not at all, with its status. -/
def State.odWrite (s : State) (idx sub off : Nat) (bs : List Byte) : State × Nat :=
  let st := s.odStatus idx sub off bs
  if st ≠ 0 then (s, st)
  else match odRow idx sub with
    | none => (s, St.OD_NO_ENTRY)
    | some row =>
      let n := row.typ.shape.2
      s.odApply idx sub (off / n) (elemsOf n bs) bs

/-- OD_WRITE (R322, R323): a write of an entry, whole or as a run of array elements. -/
def execOdWrite (index : BitVec 16) (sub : BitVec 8) (off : BitVec 16) (bytes : List Byte) (s : State) :
    Host.Outcome State Fault Refusal :=
  .next (if s.ctl.mstate = .off then s
    else
      let r := s.odWrite index.toNat sub.toNat off.toNat bytes
      r.1.answered r.2)

end Sys2Proof.Machine
end

