-- ==== Sys2Proof/Machine/Llynmi.lean ====
section
/-! DEFINITION. The service lanes, the Llynmi protocol and the dictionary window (R325-R331). -/

namespace Sys2Proof.Machine

/-- Whether a service lane is up (OD 0x1030:05). -/
def State.laneUp (s : State) (lane : Bool) : Bool := bit (s.odg 0x1030 0x05) (b2n lane)

/-- Something leaves the module. -/
def State.emit (s : State) (o : Out) : State := { s with out := o :: s.out }

/-! ### Addresses (R325) -/

/-- The link-local address of a MAC address (R325): the modified EUI-64 method. -/
def linkLocal (mac : Nat) : Nat :=
  0xFE80 * 2 ^ 112 + (mac / 2 ^ 24 ^^^ 0x020000) * 2 ^ 40 + 0xFFFE * 2 ^ 24 + mac % 2 ^ 24

/-- The static address of a lane, in network order (OD 0x1030:03, 04). -/
def State.staticAddr (s : State) (lane : Bool) : Nat :=
  (List.range 16).foldl (fun a k => a * 256 + s.odg 0x1030 (3 + b2n lane) k) 0

/-- Whether an address is the module's on a lane (R325). -/
def State.ownsAddr (s : State) (lane : Bool) (a : Nat) : Bool :=
  (decide (s.staticAddr lane ≠ 0) && decide (a = s.staticAddr lane)) || decide (a = linkLocal (Config.macAddress (b2n lane)).toNat)

/-- Whether a packet to an address reaches the module: from STANDBY on, on a lane that is up, to an address of it (R325, Table 18-1). -/
def State.laneHears (s : State) (lane : Bool) (target : BitVec 128) : Bool :=
  decide (s.ctl.mstate ≠ .off) && s.laneUp lane && s.ownsAddr lane target.toNat

/-- Whether a datagram reaches the protocol (R325, R326): on UDP port 47,042, its checksum good. -/
def State.llyHears (s : State) (m : Lly) : Bool := s.laneHears m.lane m.target && decide (m.toPort.toNat = 47042) && !m.badSum

/-! ### The header (Table 15-3) -/

/-- SESSION of a datagram. -/
def lSession (m : Lly) : Nat := fld m.bytes 4 4
/-- SEQ of a datagram. -/
def lSeq (m : Lly) : Nat := fld m.bytes 8 4
/-- OP of a datagram. -/
def lOp (m : Lly) : Nat := fld m.bytes 12 1
/-- COMMIT of a datagram. -/
def lCommit (m : Lly) : Bool := bit (fld m.bytes 13 1) 0
/-- INDEX of a datagram. -/
def lIndex (m : Lly) : Nat := fld m.bytes 16 2
/-- SUB of a datagram. -/
def lSub (m : Lly) : Nat := fld m.bytes 18 1
/-- OFFSET of a datagram. -/
def lOffset (m : Lly) : Nat := fld m.bytes 20 4
/-- LENGTH of a datagram. -/
def lLength (m : Lly) : Nat := fld m.bytes 24 2
/-- The data of a datagram. -/
def lData (m : Lly) : List Byte := (m.bytes.drop 32).take (lLength m)

/-- The bytes of a response (Table 15-3): MAGIC, VERSION 1, TYPE 2, the request's COMMIT (log entry 26), the data behind the header. -/
def llyBytes (session seq op : Nat) (commit : Bool) (status index sub offset size : Nat) (data : List Byte) : List Byte :=
  leBytes 2 0x4C59 ++ leBytes 1 1 ++ leBytes 1 2 ++ leBytes 4 session ++ leBytes 4 seq ++ leBytes 1 op ++ leBytes 1 (b2n commit)
    ++ leBytes 2 status ++ leBytes 2 index ++ leBytes 1 sub ++ leBytes 1 0 ++ leBytes 4 offset ++ leBytes 2 data.length ++ leBytes 2 0
    ++ leBytes 4 size ++ data

/-- Send bytes to where a request came from, from where it arrived (R325). -/
def State.sendLly (s : State) (m : Lly) (bytes : List Byte) : State :=
  s.emit (.lly m.lane m.target m.origin m.port.toNat bytes)

/-- The response to a request. -/
def respondLly (m : Lly) (session status size : Nat) (data : List Byte) : List Byte :=
  llyBytes session (lSeq m) (lOp m) (lCommit m) status (lIndex m) (lSub m) (lOffset m) size data

/-- Send a response. -/
def State.answerLly (s : State) (m : Lly) (session status size : Nat) (data : List Byte) : State :=
  s.sendLly m (respondLly m session status size data)

/-- The operations of Table 15-4. -/
def llyOps : List Nat := [0x01, 0x02, 0x03, 0x10, 0x11, 0x12]

/-- Whether a datagram is malformed (R326, Table 15-3): shorter than its header and data, another MAGIC or VERSION, no request, a
reserved field, more than 1,024 bytes, an operation that Table 15-4 does not list, or an OPEN that names a session (log entry 26). The data
of a READ are in its response. -/
def llyBad (m : Lly) : Bool :=
  decide (m.bytes.length < 32 + (if lOp m = 0x10 then 0 else lLength m))
    || decide (fld m.bytes 0 2 ≠ 0x4C59 ∨ fld m.bytes 2 1 ≠ 1 ∨ fld m.bytes 3 1 ≠ 1)
    || decide (2 ≤ fld m.bytes 13 1 ∨ fld m.bytes 14 2 ≠ 0 ∨ fld m.bytes 19 1 ≠ 0 ∨ fld m.bytes 26 2 ≠ 0 ∨ fld m.bytes 28 4 ≠ 0)
    || decide (1024 < lLength m) || !llyOps.contains (lOp m) || (decide (lOp m = 0x01) && decide (lSession m ≠ 0 ∨ lSeq m ≠ 0))

/-- What a malformed datagram gets (R326): an answer where its SESSION and SEQ can be read. -/
def State.refuseLly (s : State) (m : Lly) : State :=
  if m.bytes.length < 12 then s else s.answerLly m (lSession m) St.LLY_BAD_FRAME 0 []

/-! ### Sessions (R327, R328) -/

/-- The session of a number. -/
def State.session (s : State) (n : Nat) : Option Session := s.svc.sessions.find? fun x => decide (x.num = n)

/-- Write a session back. -/
def State.setSession (s : State) (x : Session) : State :=
  { s with svc := { s.svc with sessions := s.svc.sessions.map fun y => if y.num = x.num then x else y } }

/-- The session is gone. -/
def State.endSession (s : State) (n : Nat) : State :=
  { s with svc := { s.svc with sessions := s.svc.sessions.filter fun x => decide (x.num ≠ n) } }

/-- A session number drawn from the values not in use, nonzero (R327): the free draw, or the next number that will do. -/
def State.newNumber (s : State) : Nat :=
  let d := (Config.sessionDraw s.free).toNat
  (((List.range 18).map fun i => (d + i) % 2 ^ 32).find? fun n => decide (n ≠ 0) && (s.session n).isNone).getD 1

/-- Requests held by every session. -/
def State.heldCount (s : State) : Nat := (s.svc.sessions.map fun (x : Session) => x.held.length).foldl (· + ·) 0

/-! ### Operations (Table 15-4, R329) -/

/-- The bytes that a READ returns, and the session's snapshot after it (R329): of a snapshot where OFFSET lies above 0 and one of the
entry is held. -/
def llyRead (x : Session) (m : Lly) (whole : List Byte) : List Byte × Option (Nat × Nat × List Byte) :=
  let key := (lIndex m, lSub m)
  if lOffset m = 0 then (whole, some (key.1, key.2, whole))
  else match x.snap with
    | some p => if (p.1, p.2.1) = key then (p.2.2, x.snap) else (whole, none)
    | none => (whole, none)

/-- Execute READ: status, data, and the session after it. -/
def State.runRead (s : State) (x : Session) (m : Lly) (row : OdRow) : State × Session × Nat × List Byte :=
  let idx := lIndex m
  let sub := lSub m
  let r := llyRead x m ((s.odRead idx sub).getD [])
  let fresh := decide (r.2 ≠ x.snap) || decide (lOffset m = 0)
  let s := if fresh then s.afterRead idx sub else s
  let y := { x with snap := r.2 }
  if row.typ.size < lOffset m + lLength m then (s, y, St.OD_SIZE_MISMATCH, [])
  else (s, y, St.OD_OK, (r.1.drop (lOffset m)).take (lLength m))

/-- Where a first segment of an entry may begin (R329). -/
def firstAt (row : OdRow) (off : Nat) : Bool :=
  match row.typ with
  | .arr e _ => decide (off % e.size = 0)
  | _ => decide (off = 0)

/-- Whether a segment may carry these bytes (R322, R329): a scalar's whole; an array's whole elements; within the entry. -/
def segmentOk (row : OdRow) (off n : Nat) : Bool :=
  match row.typ with
  | .one e => decide (off = 0 ∧ n = e.size)
  | .arr e _ => decide (off % e.size = 0 ∧ n % e.size = 0 ∧ off + n ≤ row.typ.size)
  | _ => decide (off + n ≤ row.typ.size)

/-- The copy that a first segment takes of an entry. -/
def State.stageNew (s : State) (m : Lly) : Staging :=
  { idx := lIndex m, sub := lSub m, first := lOffset m, next := lOffset m
    bytes := (s.odRead (lIndex m) (lSub m)).getD [] }

/-- The staging that a segment continues or begins, none where it is out of order (R329). -/
def State.stageFor (s : State) (x : Session) (m : Lly) (row : OdRow) : Option Staging :=
  let off := lOffset m
  let same := x.stage.filter fun g => decide (g.idx = lIndex m ∧ g.sub = lSub m)
  match same with
  | some g => if off ≠ 0 ∧ off = g.next then some g else if off = 0 then some (s.stageNew m) else none
  | none => if firstAt row off then some (s.stageNew m) else none

/-- Execute WRITE: a segment is staged, and COMMIT applies what is staged (R322, R323, R329). A segment without COMMIT to an entry whose right forbids
writing is staged with OD_OK and refused at COMMIT: the model's choice (R13, log entry 26). -/
def State.runWrite (s : State) (x : Session) (m : Lly) (row : OdRow) : State × Session × Nat × List Byte :=
  let idx := lIndex m
  let sub := lSub m
  let off := lOffset m
  let n := lLength m
  let none_ : Session := { x with stage := none }
  if segmentOk row off n = false then
    (s, none_, if s.mayWrite row.acc then St.OD_SIZE_MISMATCH else St.OD_ACCESS_REFUSED, [])
  else match s.stageFor x m row with
    | none => (s, none_, St.LLY_SEGMENT_ORDER, [])
    | some g =>
      let g := { g with bytes := putBytes g.bytes off ((lData m).take n), next := off + n }
      if lCommit m then
        let arr := match row.typ with
          | .arr _ _ => true
          | _ => false
        let r := if arr then s.odWrite idx sub g.first ((g.bytes.drop g.first).take (g.next - g.first)) else s.odWrite idx sub 0 g.bytes
        (r.1, none_, r.2, [])
      else (s, { x with stage := some g }, St.OD_OK, [])

/-- The eight bytes of DESCRIBE (Table 15-4). -/
def describeBytes (row : OdRow) : List Byte :=
  leBytes 1 row.typ.code ++ leBytes 1 row.typ.elemCode ++ leBytes 1 row.acc.code ++ leBytes 1 0 ++ leBytes 4 row.typ.size

/-- Execute a request: the state, the session, status, SIZE and data. -/
def State.runLly (s : State) (x : Session) (m : Lly) : State × Session × Nat × Nat × List Byte :=
  let op := lOp m
  if op = 0x02 ∨ op = 0x03 then (s, x, St.OD_OK, 0, [])
  else match odRow (lIndex m) (lSub m) with
    | none => (s, x, St.OD_NO_ENTRY, 0, [])
    | some row =>
      if op = 0x10 then
        let r := s.runRead x m row
        (r.1, r.2.1, r.2.2.1, row.typ.size, r.2.2.2)
      else if op = 0x11 then
        let r := s.runWrite x m row
        (r.1, r.2.1, r.2.2.1, row.typ.size, r.2.2.2)
      else (s, x, St.OD_OK, row.typ.size, describeBytes row)

/-- Execute the request that a session expects next, and answer it: the answer is kept for the next sixteen requests (R328). A session
that the request itself has closed stays closed. -/
def State.executeLly (s : State) (x : Session) (m : Lly) : State :=
  let r := (s.bump 0x1030 0x07 0).runLly { x with next := (x.next + 1) % 2 ^ 32 } m
  let a : Answer := { seq := lSeq m, bytes := respondLly m x.num r.2.2.1 r.2.2.2.1 r.2.2.2.2 }
  let y : Session := { r.2.1 with answers := (a :: r.2.1.answers).take 16 }
  let s := (r.1.setSession y).sendLly m a.bytes
  if lOp m = 0x02 then s.endSession x.num else s

/-- Execute what a session holds and now expects (R328). `fuel` bounds it. -/
def State.drainLly (s : State) (n : Nat) : Nat → State
  | 0 => s
  | k + 1 =>
    match s.session n with
    | none => s
    | some x =>
      match x.held.find? fun h => decide (lSeq h.2 = x.next) with
      | some h => (s.executeLly { x with held := x.held.filter fun g => decide (lSeq g.2 ≠ x.next) } h.2).drainLly n k
      | none => s

/-- Take a well-formed request of a session (R327, R328). -/
def State.requestLly (s : State) (m : Lly) : State :=
  match s.session (lSession m) with
  | none => s.answerLly m (lSession m) St.LLY_NO_SESSION 0 []
  | some x =>
    let x : Session := { x with used := s.ctl.clock }
    let s := s.setSession x
    let d := (lSeq m + 2 ^ 32 - x.next) % 2 ^ 32
    if d = 0 then (s.executeLly { x with held := x.held.filter fun g => decide (lSeq g.2 ≠ x.next) } m).drainLly x.num 16
    else if d < 16 then
      if x.held.any (fun h => decide (lSeq h.2 = lSeq m)) = true ∨ 64 ≤ s.heldCount then s.bump 0x1030 0x08 0
      else s.setSession { x with held := x.held ++ [(s.ctl.clock, m)] }
    else match x.answers.find? fun a => decide (a.seq = lSeq m) with
      | some a =>
        if 2 ^ 32 ≤ d + 16 then (s.bump 0x1030 0x09 0).sendLly m a.bytes
        else s.bump 0x1030 0x08 0
      | none => s.bump 0x1030 0x08 0

/-- A datagram of an operation arrives: one of another operation is not this command's. -/
def State.hearLly (s : State) (m : Lly) (op : Nat) : State :=
  if s.llyHears m = false ∨ lOp m ≠ op then s
  else if llyBad m then s.refuseLly m
  else s.requestLly m

/-- OPEN (R327): a new session, unless sixteen exist. -/
def execOpenSession (m : Lly) (s : State) : Host.Outcome State Fault Refusal :=
  if s.llyHears m = false ∨ lOp m ≠ 0x01 then .next s
  else if llyBad m then .next (s.refuseLly m)
  else if 16 ≤ s.svc.sessions.length then .next (s.answerLly m 0 St.LLY_NO_SESSION 0 [])
  else
    let n := s.newNumber
    let x : Session := { num := n, next := 1, used := s.ctl.clock, held := [], answers := [], snap := none, stage := none }
    let t : State := { s.bump 0x1030 0x07 0 with svc := { s.svc with sessions := s.svc.sessions ++ [x] } }
    .next (t.drawn.answerLly m n St.OD_OK 0 [])

/-- CLOSE (R327). -/
def execCloseSession (m : Lly) (s : State) : Host.Outcome State Fault Refusal := .next (s.hearLly m 0x02)

/-- PING (Table 15-4). -/
def execPing (m : Lly) (s : State) : Host.Outcome State Fault Refusal := .next (s.hearLly m 0x03)

/-- READ (R329). -/
def execRead (m : Lly) (s : State) : Host.Outcome State Fault Refusal := .next (s.hearLly m 0x10)

/-- WRITE (R329). -/
def execWrite (m : Lly) (s : State) : Host.Outcome State Fault Refusal := .next (s.hearLly m 0x11)

/-- DESCRIBE (Table 15-4). -/
def execDescribe (m : Lly) (s : State) : Host.Outcome State Fault Refusal := .next (s.hearLly m 0x12)

/-- SESSION_TIMEOUT (R327): after 10 s without a request. -/
def execSessionTimeout (session : BitVec 32) (s : State) : Host.Outcome State Fault Refusal :=
  match s.session session.toNat with
  | some x => .next (if x.used + 10 ^ 10 ≤ s.ctl.clock then s.endSession x.num else s)
  | none => .next s

/-- HELD_REQUEST_TIMEOUT (R328): after 1 s; the session goes on expecting the missing SEQ. -/
def execHeldRequestTimeout (session seq : BitVec 32) (s : State) : Host.Outcome State Fault Refusal :=
  match s.session session.toNat with
  | none => .next s
  | some x =>
    let late := fun (h : Nat × Lly) => decide (lSeq h.2 = seq.toNat ∧ h.1 + 10 ^ 9 ≤ s.ctl.clock)
    if x.held.any late then
      .next ((s.setSession { x with held := x.held.filter fun h => !late h }).bump 0x1030 0x08 0)
    else .next s

/-- MALFORMED_DATAGRAM (R326): answered where SESSION and SEQ can be read; a well-formed one is not this command's. -/
def execMalformedDatagram (m : Lly) (s : State) : Host.Outcome State Fault Refusal :=
  .next (if s.llyHears m = true ∧ llyBad m = true then s.refuseLly m else s)

/-! ### The lanes themselves (R325, R365) -/

/-- ICMPV6_ECHO (R325). -/
def execIcmpv6Echo (lane : Bool) (origin target : BitVec 128) (payload : List Byte) (s : State) : Host.Outcome State Fault Refusal :=
  .next (if s.laneHears lane target then s.emit (.echoReply lane target origin payload) else s)

/-- NEIGHBOUR_DISCOVERY (R325): a solicitation of one of the lane's addresses is answered. -/
def execNeighbourDiscovery (lane : Bool) (origin target : BitVec 128) (s : State) : Host.Outcome State Fault Refusal :=
  .next (if s.laneHears lane target then s.emit (.neighbour lane origin target) else s)

/-- SERVICE_LANE_DOWN (R365): its crossing is reset. -/
def execServiceLaneDown (lane : Bool) (s : State) : Host.Outcome State Fault Refusal :=
  .next (if s.laneUp lane then (s.odp 0x1030 0x05 0 (s.odg 0x1030 0x05 - 2 ^ b2n lane)).resetGroup 6 1 (groupHits 6 (b2n lane)) else s)

/-- SERVICE_LANE_UP (R368): Llynmi is answered on it. -/
def execServiceLaneUp (lane : Bool) (s : State) : Host.Outcome State Fault Refusal :=
  .next (if s.ctl.mstate ≠ .off ∧ s.laneUp lane = false then s.odp 0x1030 0x05 0 (s.odg 0x1030 0x05 + 2 ^ b2n lane) else s)

/-! ### The dictionary window (R330, R331) -/

/-- The entry that an aperture's selector names: index and subindex. -/
def State.selected (s : State) (k : Nat) : Nat × Nat :=
  let v := s.odg 0x1020 (k + 1)
  (v % 65536, v / 65536 % 256)

/-- Put a status into an aperture's status word, and count a write applied. -/
def State.apStatus (s : State) (k st : Nat) (applied : Bool) : State :=
  let w := s.odg 0x1021 (k + 1)
  s.odp 0x1021 (k + 1) 0 (st + (w / 65536 + b2n applied) % 65536 * 65536)

/-- Aperture k. -/
def State.ap (s : State) (k : Nat) : Aperture := Sparse.get (fun _ => apNone) s.svc.aps k

/-- Write aperture k. -/
def State.setAp (s : State) (k : Nat) (x : Aperture) : State :=
  { s with svc := { s.svc with aps := Sparse.set (fun _ => apNone) s.svc.aps k x } }

/-- Select an entry (R330, R331): a selector with reserved bits is refused; one that names no entry says so. -/
def State.apSelect (s : State) (n v : Nat) : State :=
  if 2 ^ 24 ≤ v then s.apStatus n St.OD_RESERVED_NONZERO false
  else
    let t := s.takeSelector n v
    if (odRow (t.selected n).1 (t.selected n).2).isNone then t.apStatus n St.OD_NO_ENTRY false else t

/-- APERTURE_SELECT (R330, R331): the write of a whole selector. -/
def execApertureSelect (k : BitVec 4) (v : BitVec 32) (s : State) : Host.Outcome State Fault Refusal :=
  .next (if s.host.linkUp then s.apSelect k.toNat v.toNat else s)

/-- What the first 128 bytes of the dictionary window show (Table 15-5): the selectors, then the status words. -/
def State.windowWords (s : State) : List Byte :=
  ((List.range 16).map fun k => leBytes 4 (s.odg 0x1020 (k + 1))).flatten ++ ((List.range 16).map fun k => leBytes 4 (s.odg 0x1021 (k + 1))).flatten

/-- Read bytes of aperture n (R331): bytes at and beyond the entry's size read 0; an entry larger than 8 bytes is read through the
snapshot that a read of byte 0 takes. -/
def State.apRead (s : State) (n o len : Nat) : State :=
  let e := s.selected n
  match odRow e.1 e.2 with
  | none => (s.apStatus n St.OD_NO_ENTRY false).emit (.aperture (List.replicate len 0))
  | some row =>
    let live := (s.odRead e.1 e.2).getD []
    let big := decide (8 < row.typ.size)
    let bs := if big = true ∧ o ≠ 0 then (s.ap n).snap.getD live else live
    let t := if big = true ∧ o = 0 ∧ len ≠ 0 then s.setAp n { s.ap n with snap := some live } else s
    let t := if big = true ∧ o ≠ 0 ∧ (s.ap n).snap.isSome = true then t else t.afterRead e.1 e.2
    (t.apStatus n St.OD_OK false).emit (.aperture (sliceBytes bs o len))

/-- APERTURE_READ (R330, R331): a read of the dictionary window at a BAR0 offset; where nothing is mapped it returns 0. The component
registers below the window are not the dictionary's. -/
def execApertureRead (off : BitVec 21) (len : BitVec 4) (s : State) : Host.Outcome State Fault Refusal :=
  let blk := off.toNat / 65536
  let o := off.toNat % 65536
  let n := len.toNat
  .next (if s.host.linkUp = false ∨ blk = 0 then s
    else if blk = 1 then s.emit (.aperture (sliceBytes s.windowWords o n))
    else if blk < 18 then s.apRead (blk - 2) o n
    else s.emit (.aperture (List.replicate n 0)))

/-- A write of a scalar, or of one element, through an aperture; or a staged one of another entry (R331). -/
def State.apWrite (s : State) (k idx sub : Nat) (row : OdRow) (o : Nat) (bs : List Byte) : State :=
  let exact := match row.typ with
    | .one e => some (decide (o = 0 ∧ bs.length = e.size))
    | .arr e _ => some (decide (o % e.size = 0 ∧ bs.length = e.size))
    | _ => none
  if s.mayWrite row.acc = false then s.apStatus k St.OD_ACCESS_REFUSED false
  else match exact with
    | some false => s.apStatus k St.OD_SIZE_MISMATCH false
    | some true =>
      let r := s.odWrite idx sub o bs
      r.1.apStatus k r.2 (decide (r.2 = St.OD_OK))
    | none =>
      if bs = [] ∨ row.typ.size < o + bs.length then s.apStatus k St.OD_SIZE_MISMATCH false
      else
        let copy := (s.ap k).stage.getD ((s.odRead idx sub).getD [])
        let new := putBytes copy o bs
        if o + bs.length = row.typ.size then
          let r := (s.setAp k { s.ap k with stage := none }).odWrite idx sub 0 new
          r.1.apStatus k r.2 (decide (r.2 = St.OD_OK))
        else (s.setAp k { s.ap k with stage := some new }).apStatus k St.OD_OK false

/-- Write bytes of aperture k (R331). -/
def State.apTake (s : State) (k o : Nat) (bytes : List Byte) : State :=
  let e := s.selected k
  match odRow e.1 e.2 with
  | none => s.apStatus k St.OD_NO_ENTRY false
  | some row => s.apWrite k e.1 e.2 row o bytes

/-- Write the words of Table 15-5 that precede the apertures: a selector is written whole (R322), a status word is read only, and nothing is
mapped behind them. -/
def State.windowTake (s : State) (o : Nat) (bytes : List Byte) : State :=
  if 128 ≤ o then s.bump 0x1020 0x11 0
  else if 64 ≤ o then s
  else if o % 4 = 0 ∧ bytes.length = 4 then s.apSelect (o / 4) (leNat bytes)
  else s.apStatus (o / 4) St.OD_SIZE_MISMATCH false

/-- APERTURE_WRITE (R330, R331): a write of the dictionary window at a BAR0 offset; where nothing is mapped it is discarded and counted. -/
def execApertureWrite (off : BitVec 21) (bytes : List Byte) (s : State) : Host.Outcome State Fault Refusal :=
  let blk := off.toNat / 65536
  let o := off.toNat % 65536
  .next (if s.host.linkUp = false ∨ blk = 0 then s
    else if blk = 1 then s.windowTake o bytes
    else if blk < 18 then s.apTake (blk - 2) o bytes
    else s.bump 0x1020 0x11 0)

end Sys2Proof.Machine
end

