-- ==== Sys2Proof/Machine/Debug.lean ====
section
/-! DEFINITION. The debug port and the trace buffer (chapter 20): the TAP's instructions, debug access, trace records written. -/

namespace Sys2Proof.Machine

/-! ### The TAP (R404-R406, R418) -/

/-- Whether the debug enable of OD 0x1113:01 is in effect (R406). -/
def State.dbgOn (s : State) : Bool := decide (s.odg 0x1113 0x01 = 1)

/-- Select a TAP instruction; leaving EXTEST releases the pins (R405). -/
def State.selectIr (s : State) (ir : Nat) : State := { s with tap := { s.tap with ir := ir, frozen := none } }

/-- Load the boundary cells. -/
def State.loadCells (s : State) (v : BitVec 64) : State := { s with tap := { s.tap with cells := v.toNat } }

/-- TAP_RESET (R404): the test logic and the debug reset group; IDCODE is selected. -/
def execTapReset (s : State) : Host.Outcome State Fault Refusal :=
  .next (if s.ctl.mstate = .off then s else (s.selectIr 1).resetGroup 7 1 (groupHits 7 0))

/-- IDCODE (R404): the identification word. -/
def execIdcode (s : State) : Host.Outcome State Fault Refusal :=
  .next (if s.ctl.mstate = .off then s else (s.selectIr 1).emit (.scan 32 0x1C74298F))

/-- BYPASS selected (R404): its bit captures 0. -/
def State.bypassed (s : State) : State := (s.selectIr 0xFF).emit (.scan 1 0)

/-- BYPASS (R404). -/
def execBypass (s : State) : Host.Outcome State Fault Refusal := .next (if s.ctl.mstate = .off then s else s.bypassed)

/-- The levels of SAFE_N and ALERT_N outside EXTEST, as cells 10 and 11 (R417, R418): a pin reads 1 when released. -/
def State.outputPins (s : State) : Nat :=
  2 ^ 10 * b2n (decide (s.ctl.mstate ≠ .safe)) + 2 ^ 11 * b2n (decide ((s.viewC 0x300108 0).getD 0 = 0))

/-- SAMPLE/PRELOAD (R404, R418): the input pins' levels and the outputs' are captured, the cells 12 to 63 capture 0; `cells` is preloaded. -/
def execSamplePreload (pins cells : BitVec 64) (s : State) : Host.Outcome State Fault Refusal :=
  if s.ctl.mstate = .off then .next s
  else
    let t := (s.selectIr 2).loadCells cells
    .next (t.emit (.scan 64 (pins.toNat % 2 ^ 10 + s.outputPins)))

/-- EXTEST (R405, R406, R418): the levels of the input pins are captured, and from its entry on the logic sees what they were then; the outputs follow their cells; without the debug enable, or outside STANDBY and
SAFE, it behaves as BYPASS. -/
def execExtest (pins cells : BitVec 64) (s : State) : Host.Outcome State Fault Refusal :=
  if s.ctl.mstate = .off then .next s
  else if s.dbgOn = true ∧ (s.ctl.mstate = .standby ∨ s.ctl.mstate = .safe) then
    let seen := pins.toNat % 2 ^ 10
    let t : State := { s with tap := { s.tap with ir := 0, frozen := some (s.tap.frozen.getD seen), cells := cells.toNat } }
    .next (t.emit (.scan 64 (seen + 2 ^ 10 * (s.tap.cells / 2 ^ 10 % 4))))
  else .next s.bypassed

/-! ### Debug access (R407-R411) -/

/-- OP of a request (Table 20-2). -/
def dbgOp (r : DbgReq) : Nat := bits r.toNat 3 0
/-- The physical core of a request: DIE, ROW, COL (Table 20-2). -/
def dbgCore (r : DbgReq) : Nat := 1024 * bits r.toNat 9 8 + 32 * bits r.toNat 14 10 + bits r.toNat 19 15
/-- CONTEXT of a request (Table 20-2). -/
def dbgCtx (r : DbgReq) : Nat := bits r.toNat 25 20
/-- DATA of a request (Table 20-2). -/
def dbgData (r : DbgReq) : Nat := bits r.toNat 95 32
/-- Whether a request's reserved bits [7:4] and [31:26] are not all 0. -/
def dbgResv (r : DbgReq) : Bool := decide (bits r.toNat 7 4 ≠ 0 ∨ bits r.toNat 31 26 ≠ 0)

/-- A core is halted for a context: not while a step is under way (R409). -/
def CoreFile.stopped (f : CoreFile) : Bool := f.halted && !f.stepOne

/-- What Capture-DR loads (R407): the response of the last request completed; after a STEP, how far the core has come. -/
def State.dbgResponse (s : State) : Nat :=
  let l := s.tap.last
  let now := match s.tap.stepOf with
    | some (core, c) => (l.1, (s.file core c).stopped, (s.file core c).bpHit, (s.file core c).pc)
    | none => l
  now.1 + b2n now.2.1 * 2 ^ 17 + b2n now.2.2.1 * 2 ^ 18 + s.tap.count % 256 * 2 ^ 24 + now.2.2.2 % 2 ^ 64 * 2 ^ 32

/-- A request completes with a status and a result; HALTED and BP_HIT are those of its core and context. -/
def State.dbgDone (s : State) (core c st result : Nat) : State :=
  let f := s.file core c
  { s with tap := { s.tap with last := (st, f.stopped, f.bpHit, result), count := s.tap.count + 1, stepOf := none } }

/-- The place of the 8 bytes at the access address (R411): none where it is misaligned or outside its space. -/
def State.dbgPlace (s : State) : Loc :=
  if s.tap.addr % 8 = 0 ∧ s.tap.addr < 2 ^ spaceBits s.tap.space then s.locOf s.tap.space s.tap.addr 0 else .nowhere

/-- The access address moves to the next word. -/
def State.dbgAdvance (s : State) : State := { s with tap := { s.tap with addr := s.tap.addr + 8 } }

/-- A poisoned sector or failed replays that an access meets (R391, R392): a storage event of no context. -/
def State.dbgPoison (s : State) (st a : Nat) : State :=
  if st = St.MEM_UNCORRECTABLE ∨ st = St.MEM_REPLAY_FAILED then (s.metPoison st a).storageEvent none st a else s

/-- Read 8 bytes of module memory whole (R411): a poisoned sector returns its data with its status; retired memory returns no data. -/
def State.dbgReadMem (s : State) (r : DbgReq) (a : Nat) : State :=
  let s := s.fetched a 8
  let st := s.readStatus a
  let v := if st = 0 ∨ st = St.MEM_UNCORRECTABLE then leNat (s.memBytes a 8) else 0
  (s.dbgPoison st a).dbgAdvance.dbgDone (dbgCore r) (dbgCtx r) st v

/-- Write 8 bytes of module memory whole (R411): the partial write of a poisoned sector is not executed (R131). -/
def State.dbgWriteMem (s : State) (r : DbgReq) (a : Nat) : State :=
  let w := s.writeRun a (leBytes 8 (dbgData r))
  (w.1.dbgPoison w.2 a).dbgAdvance.dbgDone (dbgCore r) (dbgCtx r) w.2 0

/-- A READ or WRITE of the 8 bytes at the access address (R411): while a line that the host holds must be snooped first (R315), the request
stays in execution. -/
def State.dbgWord (s : State) (r : DbgReq) (env : MemEnv) : State :=
  let core := dbgCore r
  let c := dbgCtx r
  match s.dbgPlace with
  | .mem a =>
    let ls := s.filtered a 8
    if ls.isEmpty then
      s.inside env fun s => if dbgOp r = 5 then s.dbgReadMem r a else s.dbgWriteMem r a
    else
      (let t := s.snoopLines ls
       { t with tap := { t.tap with busy := some (r, env) } })
  | .core k o =>
    if dbgOp r = 5 then s.dbgAdvance.dbgDone core c St.OD_OK (leNat (s.storeBytes k o 8))
    else (s.putStoreRun k o (leBytes 8 (dbgData r))).dbgAdvance.dbgDone core c St.OD_OK 0
  | _ => s.dbgDone core c St.DMA_BAD_ADDRESS 0

/-- The request in execution goes on, and ends where its snoops have been answered. -/
def State.dbgGoOn (s : State) : State :=
  match s.tap.busy with
  | some b => ({ s with tap := { s.tap with busy := none } } : State).dbgWord b.1 b.2
  | none => s

/-- A debug access (R406-R408): the last response is captured, and the request runs unless debug is locked or the last one still
executes, when it is discarded and counted; a nonzero field that is to be
kept 0 and a target that is not there are answered first. `keep` are the bits of DATA to be kept 0; `dark` says that the operation needs
no powered die. A request whose OP is another command's changes nothing (log entry 17). -/
def State.dbgAccess (s : State) (r : DbgReq) (code keep : Nat) (dark : Bool) (op : State → Nat → Nat → State) : State :=
  if s.ctl.mstate = .off ∨ dbgOp r ≠ code then s
  else
    let t := (s.selectIr 0x10).dbgGoOn
    if s.dbgOn = false then t.emit (.scan 96 St.DBG_LOCKED)
    else if t.tap.busy.isSome = true then (t.emit (.scan 96 (t.dbgResponse + 2 ^ 16))).bump 0x3200 0x08 0
    else
      let t := t.emit (.scan 96 t.dbgResponse)
      let core := dbgCore r
      let c := dbgCtx r
      if dbgResv r = true ∨ dbgData r &&& keep ≠ 0 then t.dbgDone core c St.CMD_RESERVED_NONZERO 0
      else if 10 ≤ code ∨ s.coreEnabled core = false ∨ (dark = false ∧ s.powered = false) then t.dbgDone core c St.CMD_BAD_FIELD 0
      else op t core c

/-- All bits of DATA. -/
def allData : Nat := 2 ^ 64 - 1

/-- NOP (Table 20-3); a request whose OP is not listed completes with CMD_BAD_FIELD (R408). -/
def execDebugNop (r : DbgReq) (s : State) : Host.Outcome State Fault Refusal :=
  .next (s.dbgAccess r (if 10 ≤ dbgOp r then dbgOp r else 0) (if 10 ≤ dbgOp r then 0 else allData) true fun s core c => s.dbgDone core c St.OD_OK 0)

/-- HALT (R409): the core stops issuing for the context, a wait is abandoned, a step under way ends. RESULT is the PC. Traced (R412). -/
def execHalt (r : DbgReq) (s : State) : Host.Outcome State Fault Refusal :=
  .next (s.dbgAccess r 1 allData false fun s core c =>
    let f := s.file core c
    let t := s.setFile core c { f with halted := true, stepOne := false, waiting := none }
    let t := if f.stopped then t else t.traced 5 0 (coreUnit core) 0 0 f.pc
    t.dbgDone core c St.OD_OK f.pc)

/-- RESUME (Table 20-3, R409): the core issues again, past the breakpoint at which it halted. -/
def execResume (r : DbgReq) (s : State) : Host.Outcome State Fault Refusal :=
  .next (s.dbgAccess r 2 allData false fun s core c =>
    let f := s.file core c
    (s.setFile core c { f with halted := false, stepOne := false, bpHit := false, bpPass := f.halted }).dbgDone core c St.OD_OK 0)

/-- STEP (R409): exactly one instruction issues and the core then halts; a response read later shows how far it has come. -/
def execDbgStep (r : DbgReq) (s : State) : Host.Outcome State Fault Refusal :=
  .next (s.dbgAccess r 3 allData false fun s core c =>
    let f := s.file core c
    let t := (s.setFile core c { f with halted := true, stepOne := true, bpHit := false }).dbgDone core c St.OD_OK f.pc
    { t with tap := { t.tap with stepOf := some (core, c) } })

/-- SET_ADDR (Table 20-3): a space of 0 or 1 and an address. -/
def execSetAddr (r : DbgReq) (s : State) : Host.Outcome State Fault Refusal :=
  .next (s.dbgAccess r 4 (2 ^ 63) true fun s core c =>
    let sp := bits (dbgData r) 62 60
    if 1 < sp then s.dbgDone core c St.CMD_BAD_FIELD 0
    else
      let t : State := { s with tap := { s.tap with space := sp, addr := dbgData r % 2 ^ 60 } }
      t.dbgDone core c St.OD_OK 0)

/-- READ (R411): 8 bytes whole. -/
def execDebugRead (r : DbgReq) (env : MemEnv) (s : State) : Host.Outcome State Fault Refusal :=
  .next (s.dbgAccess r 5 allData false fun s _ _ => s.dbgWord r env)

/-- WRITE (R411): 8 bytes whole. -/
def execDebugWrite (r : DbgReq) (env : MemEnv) (s : State) : Host.Outcome State Fault Refusal :=
  .next (s.dbgAccess r 6 0 false fun s _ _ => s.dbgWord r env)

/-- The bits of SET_BP's DATA to be kept 0: [23:18] and [63:27]. -/
def bpKeep : Nat := 2 ^ 64 - 2 ^ 27 + (2 ^ 24 - 2 ^ 18)

/-- SET_BP (Table 20-3, R409): breakpoint [25:24] of the core for the context, enabled at the PC or cleared. -/
def execSetBp (r : DbgReq) (s : State) : Host.Outcome State Fault Refusal :=
  .next (s.dbgAccess r 7 bpKeep false fun s core c =>
    let d := dbgData r
    let pc := d % 2 ^ 18
    let f := s.file core c
    let n := bits d 25 24
    if pc % 8 ≠ 0 then s.dbgDone core c St.CMD_BAD_FIELD 0
    else (s.setFile core c { f with bps := if bit d 26 then Sparse.ins n pc f.bps else Sparse.del f.bps n }).dbgDone core c St.OD_OK 0)

/-- The value of a selector (R408): none where it is not listed. -/
def State.dbgReg (s : State) (core c sel : Nat) : Option Dword :=
  let f := s.file core c
  if sel < 0x20 then some (f.reg sel)
  else if sel < 0x40 then some ((f.mask ((sel - 0x20) / 4)).extractLsb' (64 * (sel % 4)) 64)
  else if sel = 0x40 then some (BitVec.ofNat 64 f.pc)
  else if sel = 0x41 then some (f.flags.setWidth 64)
  else if 0x1000 ≤ sel ∧ sel < 0x3000 then
    let p := (sel - 0x1000) / 128
    let j := sel % 128
    some (s.pail core p (2 * j + 1) ++ s.pail core p (2 * j))
  else none

/-- Replace word w of a mask register. -/
def maskWord (m : BitVec 256) (w : Nat) (v : Dword) : BitVec 256 :=
  let hole := (BitVec.allOnes 64).setWidth 256 <<< (64 * w)
  (m &&& ~~~hole) ||| (v.setWidth 256 <<< (64 * w))

/-- Write the register of a selector (R408): writes to s0 and k0 are ignored (Table 04-1). -/
def State.setDbgReg (s : State) (core c sel : Nat) (v : Dword) : State :=
  let f := s.file core c
  if sel < 0x20 then s.setFile core c (f.setReg sel v)
  else if sel < 0x40 then
    let k := (sel - 0x20) / 4
    s.setFile core c (f.setMask k (maskWord (f.mask k) (sel % 4) v))
  else if sel = 0x40 then s.setFile core c { f with pc := v.toNat }
  else if sel = 0x41 then s.setFile core c { f with flags := v.setWidth 4 }
  else
    let p := (sel - 0x1000) / 128
    let j := sel % 128
    (s.setPail core p (2 * j) (v.setWidth 32)).setPail core p (2 * j + 1) (v.extractLsb' 32 32)

/-- READ_REG (R408): of a core halted for the context; the flags are not cleared. -/
def execReadReg (r : DbgReq) (s : State) : Host.Outcome State Fault Refusal :=
  .next (s.dbgAccess r 8 (2 ^ 64 - 2 ^ 16) false fun s core c =>
    let sel := dbgData r % 2 ^ 16
    match (s.file core c).stopped, s.dbgReg core c sel with
    | true, some v =>
      let t : State := { s with tap := { s.tap with sel := sel } }
      t.dbgDone core c St.OD_OK v.toNat
    | _, _ => s.dbgDone core c St.CMD_BAD_FIELD 0)

/-- WRITE_REG (R408): to the selector of the last READ_REG. -/
def execWriteReg (r : DbgReq) (s : State) : Host.Outcome State Fault Refusal :=
  .next (s.dbgAccess r 9 0 false fun s core c =>
    if (s.file core c).stopped then (s.setDbgReg core c s.tap.sel (BitVec.ofNat 64 (dbgData r))).dbgDone core c St.OD_OK 0
    else s.dbgDone core c St.CMD_BAD_FIELD 0)

/-! ### Trace (R413) -/

/-- TRACE_RECORD_WRITE (R413): the oldest record waiting goes to its place in the buffer, which wraps in mode 0; in mode 1 writing stops
when the buffer is full. -/
def execTraceRecordWrite (s : State) : Host.Outcome State Fault Refusal :=
  let size := s.odg 0x3200 0x04
  let n := s.trace.written
  match s.trace.queue with
  | [] => .next s
  | r :: rest =>
    if s.powered = false ∨ size = 0 ∨ (s.odg 0x3200 0x05 = 1 ∧ size ≤ 32 * n) then .next s
    else
      let a := s.odg 0x3200 0x03 + 32 * (n % (size / 32))
      .next (s.coherent [(a, 32)] fun s =>
        let t := (s.writeRun a r).1
        { t with trace := { t.trace with queue := rest, written := n + 1 } })

end Sys2Proof.Machine
end

