-- ==== Sys2Proof/Machine/Router.lean ====
section
/-! DEFINITION. The routing commands (chapter 12) and SEND (R257). -/

namespace Sys2Proof.Machine

/-- The messages of a SEND (R257): one of the whole payload, or one per 4,096 bytes toward the signal queue. -/
def sendMessages (rxq : Nat) (bytes : List Byte) : List (List Byte) := if rxq = 0xFFFF then chunks 4096 bytes else [bytes]

/-- A SEND descriptor (R257, R148): its packets are handed to the injection list; where its source fails, its unit being the 4,096-byte
payload (log entry 28), the packets below the failing one are. -/
def dmaSend (env : XferEnv) (s : State) (key i : Nat) (d : Desc) : State :=
  let b := d.bytes
  let n := dRows b * dLen b
  let ms := movesOf n (s.rowLoc (srcSide b)) fun _ => .nowhere
  let s := s.readMoves false env.ecc (dLen b) ms
  let f := (s.firstFail ms env n).map fun x => (x.1 / 4096 * 4096, x.2)
  let bytes := ms.map fun m => s.locByte env.hostData m.off m.src
  let dest := dDst b % 2 ^ 18
  let tc := bits (dDst b) 19 18
  let rxq := bits (dDst b) 35 20
  let job := (s.ctx (key / 4 % 64)).job
  let before := s.rt.inject.length
  let t := (sendMessages rxq bytes).foldl (fun s m => s.sendMessage dest tc rxq job m (some (key, d.h)) none) s
  match f with
  | none =>
    let q := t.dq key
    let t := t.setDq key { q with items := q.items.set i { d with handed := true, flags := if env.replays ≠ [] then 8 else 0 } }
    t.xferReplays (key / 256) env.replays
  | some (o, _) =>
    let keep := (t.rt.inject.drop before).take (o / 4096)
    let t := { t with rt := { t.rt with inject := t.rt.inject.take before ++ keep.map fun (x : Inj) => { x with dma := none } } }
    t.closeMsgs.xferDone key i d env f 0 0 0 0 (failMa ms (((s.firstFail ms env n).map Prod.fst).getD 0))

/-- SEND (R141, R257). -/
def execSend (q : QRef) (env : XferEnv) (s : State) : Host.Outcome State Fault Refusal :=
  .next (s.dmaRun q (fun o => decide (o.head? = some 7)) (dmaSend env))

/-- ROUTE_TABLE_WRITE (R251, R252): a refused write leaves the version unchanged. -/
def execRouteTableWrite (version : Bool) (bytes : List Byte) (s : State) : Host.Outcome State Fault Refusal :=
  let st := s.routeTableStatus (b2n version) bytes
  .next ((if st = 0 then s.takeRouteTable (b2n version) bytes else s).answered st)

/-- EPOCH_SELECT_REQUEST (R276). -/
def execEpochSelectRequest (v : BitVec 64) (s : State) : Host.Outcome State Fault Refusal :=
  let st := s.epochSelectStatus v.toNat
  .next ((if st = 0 then s.takeEpochSelect v.toNat else s).answered st)

/-- The status of a window reset (R10, Table 12-8), 0 where it is taken. -/
def windowResetStatus (v : Nat) : Nat := if v / 2 ^ 18 = 0 then 0 else St.OD_RESERVED_NONZERO

/-- WINDOW_RESET (Table 12-8). -/
def execWindowReset (v : BitVec 32) (s : State) : Host.Outcome State Fault Refusal :=
  let st := windowResetStatus v.toNat
  .next ((if st = 0 then s.takeWindowReset v.toNat else s).answered st)

/-- The windows that a packet reserves (R272). -/
def State.pktWins (s : State) (p : Packet) : List Nat :=
  if p.typ = 1 then (s.mcLeft p true).map fun a => winKey a p.tc.toNat
  else [winKey (pktDest p) p.tc.toNat]

/-- The last packet of a SEND has been injected: its descriptor is done (R149). -/
def State.sendDone (s : State) (key h : Nat) : State :=
  if s.rt.inject.any fun x => decide (x.dma = some (key, h)) then s else
  let q := s.dq key
  match q.items.findIdx? fun d => decide (d.h = h) && d.handed with
  | some i => match q.items[i]? with
    | some d => (s.dmaFinish key i d (dTag d.bytes) St.DMA_DONE d.flags 0 (dRows d.bytes * dLen d.bytes)).dmaSettle key 17
    | none => s
  | none => s

/-- The header fields that injection fills (Table 12-2): epoch, own coordinates in its version, time. -/
def State.stampPkt (s : State) (p : Packet) : Packet :=
  { p with epoch := bit s.epochNow 0, inject := BitVec.ofNat 32 s.time.fabric }

/-- PACKET_INJECT (R272): packet k of the injection list, once the windows it needs take its bytes and their messages. -/
def execPacketInject (k : Nat) (s : State) : Host.Outcome State Fault Refusal :=
  match s.rt.inject[k]? with
  | none => .next s
  | some x =>
    let p := s.stampPkt x.pkt
    let ws := s.pktWins p
    if ws.all fun w => s.winTakes w p.payLen.toNat p.msgId.toNat then
      let s := ws.foldl (fun s w => s.reserve w p.payLen.toNat p.msgId.toNat x.job x.owner) s
      let s := { s with rt := { s.rt with inject := s.rt.inject.eraseIdx k } }
      let s := (s.bump 0x2603 0x01 0).sendOwn p
      .next (match x.dma with
        | some (key, h) => s.sendDone key h
        | none => s)
    else .next s

/-- PACKET_RECEIVE (R256, R260, R261, R265): flits that arrive on a port, in their order. -/
def execPacketReceive (port : BitVec 6) (flits : List RxFlit) (s : State) : Host.Outcome State Fault Refusal :=
  if 48 ≤ port.toNat then .fault .noSuchUnit
  else .next (flits.foldl (fun s f => s.rxFlit port.toNat (fun s => s.linkDown port.toNat) f) s)

/-- TRUNCATION (R262): the packet arriving on a port and channel whose next flit has not come within four slots of its previous one is
truncated; what has come is discarded and its credits go back, and the loss rule applies. Counted. -/
def execTruncation (port : BitVec 6) (vc : BitVec 3) (s : State) : Host.Outcome State Fault Refusal :=
  let k := port.toNat
  if 48 ≤ k then .fault .noSuchUnit else
  match (s.link k).cur with
  | none => .next s
  | some c =>
    if c.vc ≠ vc.toNat ∨ s.time.fabric ≤ c.lastAt + 2048 then .next s else
    let s := (s.setLink k { s.link k with cur := none }).bump 0x2603 0x0A 0
    let s := s.bump (portIdx k 1) 0x05 0
    match s.heldOf c.id with
    | some h => .next (s.dropPkt h)
    | none => .next s

/-- ROUTE_TIMEOUT (R263): the first held packet of a port and channel that has found no usable port for 64 slots is dropped
by the loss rule. Port 48 is the module's own source. -/
def execRouteTimeout (port : BitVec 6) (vc : BitVec 3) (s : State) : Host.Outcome State Fault Refusal :=
  let k := port.toNat
  if 49 ≤ k then .fault .noSuchUnit else
  match s.rt.held.find? fun h => decide (h.port = k ∧ h.vc = vc.toNat ∧ h.via = none ∧ h.since + 64 ≤ s.slot)
      && (s.usablePorts h.pkt).isEmpty with
  | some h => .next (s.dropOrKeep h)
  | none => .next s

/-- RETURN_INJECT (R273, R274): the oldest window return leaves the return queue and travels as a packet of its class. -/
def execReturnInject (s : State) : Host.Outcome State Fault Refusal :=
  match s.rt.returns with
  | [] => .next s
  | r :: t =>
    let s := { s with rt := { s.rt with returns := t ++ s.rt.owed.take 1, owed := s.rt.owed.drop 1 } }
    .next (s.sendOwn { s.stampPkt r with esc := false, hops := 0 })

/-- RETURN_RECEIVE (R273). -/
def execReturnReceive (p : Packet) (s : State) : Host.Outcome State Fault Refusal :=
  .next (if p.typ = 2 then s.returnArrives p else s)

/-- The next channel of a link whose violation waits for its repair is requested (R279). -/
def Link.nextRepair (l : Link) (now : Nat) : Link :=
  match l.repairMore with
  | [] => { l with repairOwn := none }
  | v :: t => { l with repairOwn := some (v, now + 16, false), repairMore := t }

/-- REPAIR_BOUNDARY (R279): at slot R both ends repair the channel; a request that R passed unacknowledged is renewed. -/
def execRepairBoundary (port : BitVec 6) (s : State) : Host.Outcome State Fault Refusal :=
  let k := port.toNat
  if 48 ≤ k then .fault .noSuchUnit else
  let s := match (s.link k).repairOwn with
    | some (v, r, acked) =>
      if s.slot < r then s
      else if acked then
        (let t := s.repairVc k v (r % 2 ^ 32) r
         t.setLink k ((t.link k).nextRepair s.slot))
      else s.setLink k { s.link k with repairOwn := some (v, s.slot + 16, false) }
    | none => s
  .next (match (s.link k).repairPeer with
    | some (v, r) =>
      if s.slot < r then s else
        (let t := s.repairVc k v (r % 2 ^ 32) r
         t.setLink k { t.link k with repairPeer := none })
    | none => s)

/-- CONGESTION_MAP_LATCH (R280): at the end of an interval. -/
def execCongestionMapLatch (s : State) : Host.Outcome State Fault Refusal :=
  .next (if s.rt.congFrom + s.rt.congLen ≤ s.slot then s.latchMap else s)

end Sys2Proof.Machine
end

