-- ==== Sys2Proof/Machine/Dispatch.lean ====
section
/-! DEFINITION. The dispatcher: one arm per command, each a direct call of its meaning. -/

namespace Sys2Proof.Machine

/-- The effect of a command on everything but the queue. -/
def exec (i : Instr) (s : State) : Host.Outcome State Fault Refusal :=
  match i with
  | .nop x => Sys2Proof.Machine.execNop x s
  | .sadd x => Sys2Proof.Machine.execSadd x s
  | .ssub x => Sys2Proof.Machine.execSsub x s
  | .smul x => Sys2Proof.Machine.execSmul x s
  | .sand x => Sys2Proof.Machine.execSand x s
  | .sor x => Sys2Proof.Machine.execSor x s
  | .sxor x => Sys2Proof.Machine.execSxor x s
  | .sshl x => Sys2Proof.Machine.execSshl x s
  | .sshr x => Sys2Proof.Machine.execSshr x s
  | .ssra x => Sys2Proof.Machine.execSsra x s
  | .sli x => Sys2Proof.Machine.execSli x s
  | .slih x => Sys2Proof.Machine.execSlih x s
  | .br x => Sys2Proof.Machine.execBr x s
  | .sld x => Sys2Proof.Machine.execSld x s
  | .sst x => Sys2Proof.Machine.execSst x s
  | .srdsys x => Sys2Proof.Machine.execSrdsys x s
  | .endp x => Sys2Proof.Machine.execEndp x s
  | .vadd x => Sys2Proof.Machine.execVadd x s
  | .vsub x => Sys2Proof.Machine.execVsub x s
  | .vmul x => Sys2Proof.Machine.execVmul x s
  | .vfma x => Sys2Proof.Machine.execVfma x s
  | .vmax x => Sys2Proof.Machine.execVmax x s
  | .vmin x => Sys2Proof.Machine.execVmin x s
  | .vabs x => Sys2Proof.Machine.execVabs x s
  | .vneg x => Sys2Proof.Machine.execVneg x s
  | .vscale2 x => Sys2Proof.Machine.execVscale2 x s
  | .vcmp x => Sys2Proof.Machine.execVcmp x s
  | .vsel x => Sys2Proof.Machine.execVsel x s
  | .vcvt x => Sys2Proof.Machine.execVcvt x s
  | .vmov x => Sys2Proof.Machine.execVmov x s
  | .vbcast x => Sys2Proof.Machine.execVbcast x s
  | .rsum x => Sys2Proof.Machine.execRsum x s
  | .rmax x => Sys2Proof.Machine.execRmax x s
  | .rmin x => Sys2Proof.Machine.execRmin x s
  | .rsumsq x => Sys2Proof.Machine.execRsumsq x s
  | .trans x => Sys2Proof.Machine.execTrans x s
  | .func x => Sys2Proof.Machine.execFunc x s
  | .deriv x => Sys2Proof.Machine.execDeriv x s
  | .tmul x => Sys2Proof.Machine.execTmul x s
  | .pld x => Sys2Proof.Machine.execPld x s
  | .pst x => Sys2Proof.Machine.execPst x s
  | .pldw x => Sys2Proof.Machine.execPldw x s
  | .pstn x => Sys2Proof.Machine.execPstn x s
  | .cissue x => Sys2Proof.Machine.execCissue x s
  | .cpop x => Sys2Proof.Machine.execCpop x s
  | .cpopnb x => Sys2Proof.Machine.execCpopnb x s
  | .ssig x badCopies => Sys2Proof.Machine.execSsig x badCopies s
  | .swait x badCopies => Sys2Proof.Machine.execSwait x badCopies s
  | .fence x => Sys2Proof.Machine.execFence x s
  | .breakpointHit core => Sys2Proof.Machine.execBreakpointHit core s
  | .waitResume w => Sys2Proof.Machine.execWaitResume w s
  | .load ch parity => Sys2Proof.Machine.execLoad ch parity s
  | .swap ch => Sys2Proof.Machine.execSwap ch s
  | .stream ch symbols parity => Sys2Proof.Machine.execStream ch symbols parity s
  | .tileFence ch => Sys2Proof.Machine.execTileFence ch s
  | .cal ch => Sys2Proof.Machine.execCal ch s
  | .shadowBankValid ch => Sys2Proof.Machine.execShadowBankValid ch s
  | .codeRelease ch => Sys2Proof.Machine.execCodeRelease ch s
  | .calibrationDue ch => Sys2Proof.Machine.execCalibrationDue ch s
  | .calibrationDone ch f => Sys2Proof.Machine.execCalibrationDone ch f s
  | .slotLockLoss ch slot => Sys2Proof.Machine.execSlotLockLoss ch slot s
  | .slotRelockAttemptEnd ch slot ok => Sys2Proof.Machine.execSlotRelockAttemptEnd ch slot ok s
  | .lightLoss ch => Sys2Proof.Machine.execLightLoss ch s
  | .relightAttemptEnd ch reference locked f => Sys2Proof.Machine.execRelightAttemptEnd ch reference locked f s
  | .wakeDone ch locked f => Sys2Proof.Machine.execWakeDone ch locked f s
  | .darkTimeout ch => Sys2Proof.Machine.execDarkTimeout ch s
  | .descriptorFetch q env => Sys2Proof.Machine.execDescriptorFetch q env s
  | .copy q env => Sys2Proof.Machine.execCopy q env s
  | .fill q env => Sys2Proof.Machine.execFill q env s
  | .pageRead q env => Sys2Proof.Machine.execPageRead q env s
  | .pageWrite q env => Sys2Proof.Machine.execPageWrite q env s
  | .send q env => Sys2Proof.Machine.execSend q env s
  | .atAddU32 q env => Sys2Proof.Machine.execAtAddU32 q env s
  | .atAddU64 q env => Sys2Proof.Machine.execAtAddU64 q env s
  | .atAddF32 q env => Sys2Proof.Machine.execAtAddF32 q env s
  | .atMaxI32 q env => Sys2Proof.Machine.execAtMaxI32 q env s
  | .atMinI32 q env => Sys2Proof.Machine.execAtMinI32 q env s
  | .atMaxU32 q env => Sys2Proof.Machine.execAtMaxU32 q env s
  | .atMinU32 q env => Sys2Proof.Machine.execAtMinU32 q env s
  | .atMaxF32 q env => Sys2Proof.Machine.execAtMaxF32 q env s
  | .atMinF32 q env => Sys2Proof.Machine.execAtMinF32 q env s
  | .atAnd q env => Sys2Proof.Machine.execAtAnd q env s
  | .atOr q env => Sys2Proof.Machine.execAtOr q env s
  | .atXor q env => Sys2Proof.Machine.execAtXor q env s
  | .atSwapU32 q env => Sys2Proof.Machine.execAtSwapU32 q env s
  | .atSwapU64 q env => Sys2Proof.Machine.execAtSwapU64 q env s
  | .atCasU32 q env => Sys2Proof.Machine.execAtCasU32 q env s
  | .atCasU64 q env => Sys2Proof.Machine.execAtCasU64 q env s
  | .rdAddF32 q env => Sys2Proof.Machine.execRdAddF32 q env s
  | .rdAddBf16F32 q env => Sys2Proof.Machine.execRdAddBf16F32 q env s
  | .rdAddI32 q env => Sys2Proof.Machine.execRdAddI32 q env s
  | .rdMaxF32 q env => Sys2Proof.Machine.execRdMaxF32 q env s
  | .rdMinF32 q env => Sys2Proof.Machine.execRdMinF32 q env s
  | .rdAddBs8I32 q env => Sys2Proof.Machine.execRdAddBs8I32 q env s
  | .dmaCompletion q => Sys2Proof.Machine.execDmaCompletion q s
  | .stackTempReading stack temp => Sys2Proof.Machine.execStackTempReading stack temp s
  | .patrolScrub stack sector found => Sys2Proof.Machine.execPatrolScrub stack sector found s
  | .dqLaneSteer stack channel => Sys2Proof.Machine.execDqLaneSteer stack channel s
  | .attnForward region env => Sys2Proof.Machine.execAttnForward region env s
  | .attnBackward region env => Sys2Proof.Machine.execAttnBackward region env s
  | .milkRoundStart k env => Sys2Proof.Machine.execMilkRoundStart k env s
  | .parcelForward k free env => Sys2Proof.Machine.execParcelForward k free env s
  | .gatherTileConvert k tile => Sys2Proof.Machine.execGatherTileConvert k tile s
  | .waitWorkStart env => Sys2Proof.Machine.execWaitWorkStart env s
  | .lanePlan => Sys2Proof.Machine.execLanePlan s
  | .epoch => Sys2Proof.Machine.execEpoch s
  | .deadline => Sys2Proof.Machine.execDeadline s
  | .stepEnd env => Sys2Proof.Machine.execStepEnd env s
  | .switch => Sys2Proof.Machine.execSwitch s
  | .wait => Sys2Proof.Machine.execWait s
  | .signalObj => Sys2Proof.Machine.execSignalObj s
  | .syncSet => Sys2Proof.Machine.execSyncSet s
  | .start => Sys2Proof.Machine.execStart s
  | .milk env => Sys2Proof.Machine.execMilk env s
  | .gather env => Sys2Proof.Machine.execGather env s
  | .coll env => Sys2Proof.Machine.execColl env s
  | .opt env => Sys2Proof.Machine.execOpt env s
  | .stash env => Sys2Proof.Machine.execStash env s
  | .skipif env => Sys2Proof.Machine.execSkipif env s
  | .phase => Sys2Proof.Machine.execPhase s
  | .slotBoundary env => Sys2Proof.Machine.execSlotBoundary env s
  | .beaconReceive port word => Sys2Proof.Machine.execBeaconReceive port word s
  | .verdict env => Sys2Proof.Machine.execVerdict env s
  | .undoRestore env => Sys2Proof.Machine.execUndoRestore env s
  | .contextSwitch env => Sys2Proof.Machine.execContextSwitch env s
  | .switchRequest v => Sys2Proof.Machine.execSwitchRequest v s
  | .syncObjectWrite obj typ v => Sys2Proof.Machine.execSyncObjectWrite obj typ v s
  | .controlBlockReceive port b => Sys2Proof.Machine.execControlBlockReceive port b s
  | .parentLoss => Sys2Proof.Machine.execParentLoss s
  | .holdoverTimeout => Sys2Proof.Machine.execHoldoverTimeout s
  | .lanePlanWrite plan bytes => Sys2Proof.Machine.execLanePlanWrite plan bytes s
  | .planSelectRequest v => Sys2Proof.Machine.execPlanSelectRequest v s
  | .pathSwitch out port channel connect => Sys2Proof.Machine.execPathSwitch out port channel connect s
  | .preambleCheck lane channel plan => Sys2Proof.Machine.execPreambleCheck lane channel plan s
  | .preambleTimeout lane => Sys2Proof.Machine.execPreambleTimeout lane s
  | .wrongLock e found => Sys2Proof.Machine.execWrongLock e found s
  | .laneLockLoss e => Sys2Proof.Machine.execLaneLockLoss e s
  | .laneRelockAttemptEnd e ok => Sys2Proof.Machine.execLaneRelockAttemptEnd e ok s
  | .spareSubstitution l => Sys2Proof.Machine.execSpareSubstitution l s
  | .portOpen port power => Sys2Proof.Machine.execPortOpen port power s
  | .probeSend port => Sys2Proof.Machine.execProbeSend port s
  | .probeReceive port slot seen => Sys2Proof.Machine.execProbeReceive port slot seen s
  | .portRelight port => Sys2Proof.Machine.execPortRelight port s
  | .routeTableWrite version bytes => Sys2Proof.Machine.execRouteTableWrite version bytes s
  | .epochSelectRequest v => Sys2Proof.Machine.execEpochSelectRequest v s
  | .windowReset v => Sys2Proof.Machine.execWindowReset v s
  | .packetInject k => Sys2Proof.Machine.execPacketInject k s
  | .packetReceive port flits => Sys2Proof.Machine.execPacketReceive port flits s
  | .truncation port vc => Sys2Proof.Machine.execTruncation port vc s
  | .routeTimeout port vc => Sys2Proof.Machine.execRouteTimeout port vc s
  | .messageComplete m env => Sys2Proof.Machine.execMessageComplete m env s
  | .returnInject => Sys2Proof.Machine.execReturnInject s
  | .returnReceive p => Sys2Proof.Machine.execReturnReceive p s
  | .repairBoundary port => Sys2Proof.Machine.execRepairBoundary port s
  | .congestionMapLatch => Sys2Proof.Machine.execCongestionMapLatch s
  | .reductionHop k x env => Sys2Proof.Machine.execReductionHop k x env s
  | .headLineSnoop head rspDone => Sys2Proof.Machine.execHeadLineSnoop head rspDone s
  | .jobNop e => Sys2Proof.Machine.execJobNop e s
  | .loadContext e hostDesc env => Sys2Proof.Machine.execLoadContext e hostDesc env s
  | .unloadContext e => Sys2Proof.Machine.execUnloadContext e s
  | .startContext e => Sys2Proof.Machine.execStartContext e s
  | .stopContext e => Sys2Proof.Machine.execStopContext e s
  | .contextFirstRun env => Sys2Proof.Machine.execContextFirstRun env s
  | .ringActivate v head rspDone => Sys2Proof.Machine.execRingActivate v head rspDone s
  | .hostMemRead offset len env => Sys2Proof.Machine.execHostMemRead offset len env s
  | .hostMemWrite offset bytes env => Sys2Proof.Machine.execHostMemWrite offset bytes env s
  | .biSnoopResponse line dirty => Sys2Proof.Machine.execBiSnoopResponse line dirty s
  | .coherenceTimeout line => Sys2Proof.Machine.execCoherenceTimeout line s
  | .cxlLinkDown => Sys2Proof.Machine.execCxlLinkDown s
  | .cxlLinkUp width speed head rspDone => Sys2Proof.Machine.execCxlLinkUp width speed head rspDone s
  | .functionReset => Sys2Proof.Machine.execFunctionReset s
  | .hostRstNAssert => Sys2Proof.Machine.execHostRstNAssert s
  | .hostRstNRelease => Sys2Proof.Machine.execHostRstNRelease s
  | .openSession m => Sys2Proof.Machine.execOpenSession m s
  | .closeSession m => Sys2Proof.Machine.execCloseSession m s
  | .ping m => Sys2Proof.Machine.execPing m s
  | .read m => Sys2Proof.Machine.execRead m s
  | .write m => Sys2Proof.Machine.execWrite m s
  | .describe m => Sys2Proof.Machine.execDescribe m s
  | .sessionTimeout session => Sys2Proof.Machine.execSessionTimeout session s
  | .heldRequestTimeout session seq => Sys2Proof.Machine.execHeldRequestTimeout session seq s
  | .apertureSelect k v => Sys2Proof.Machine.execApertureSelect k v s
  | .apertureRead off len => Sys2Proof.Machine.execApertureRead off len s
  | .apertureWrite off bytes => Sys2Proof.Machine.execApertureWrite off bytes s
  | .odWrite index sub off bytes => Sys2Proof.Machine.execOdWrite index sub off bytes s
  | .stateCommandStandby cleared => Sys2Proof.Machine.execStateCommandStandby cleared s
  | .stateCommandReady => Sys2Proof.Machine.execStateCommandReady s
  | .stateCommandRun => Sys2Proof.Machine.execStateCommandRun s
  | .stateCommandService => Sys2Proof.Machine.execStateCommandService s
  | .stateChangeComplete => Sys2Proof.Machine.execStateChangeComplete s
  | .startUpComplete f => Sys2Proof.Machine.execStartUpComplete f s
  | .performanceLevelCommand v => Sys2Proof.Machine.execPerformanceLevelCommand v s
  | .currentLimit rail peak => Sys2Proof.Machine.execCurrentLimit rail peak s
  | .currentLimitRelease rail => Sys2Proof.Machine.execCurrentLimitRelease rail s
  | .rampStep die up ballast => Sys2Proof.Machine.execRampStep die up ballast s
  | .droopDetect region => Sys2Proof.Machine.execDroopDetect region s
  | .droopRelease region => Sys2Proof.Machine.execDroopRelease region s
  | .sustainedStretchCheck die => Sys2Proof.Machine.execSustainedStretchCheck die s
  | .capEvaluation r => Sys2Proof.Machine.execCapEvaluation r s
  | .estimateDisagreement rail ended => Sys2Proof.Machine.execEstimateDisagreement rail ended s
  | .thermalEvaluation die temp junction => Sys2Proof.Machine.execThermalEvaluation die temp junction s
  | .triggerEvent line rising => Sys2Proof.Machine.execTriggerEvent line rising s
  | .clockStop domain inst => Sys2Proof.Machine.execClockStop domain inst s
  | .clockWake domain inst => Sys2Proof.Machine.execClockWake domain inst s
  | .crossingReset group inst => Sys2Proof.Machine.execCrossingReset group inst s
  | .coldStart => Sys2Proof.Machine.execColdStart s
  | .powerLoss => Sys2Proof.Machine.execPowerLoss s
  | .modRstNAssert ns => Sys2Proof.Machine.execModRstNAssert ns s
  | .modRstNRelease => Sys2Proof.Machine.execModRstNRelease s
  | .imageChunkWrite bytes => Sys2Proof.Machine.execImageChunkWrite bytes s
  | .imageVerify v => Sys2Proof.Machine.execImageVerify v s
  | .ownerKeyReplace bytes env => Sys2Proof.Machine.execOwnerKeyReplace bytes env s
  | .ownerSlotRevoke slot env => Sys2Proof.Machine.execOwnerSlotRevoke slot env s
  | .vendorKeyRevoke key env => Sys2Proof.Machine.execVendorKeyRevoke key env s
  | .svnRaise n env => Sys2Proof.Machine.execSvnRaise n env s
  | .debugEnable v => Sys2Proof.Machine.execDebugEnable v s
  | .debugDisable v => Sys2Proof.Machine.execDebugDisable v s
  | .presenceSample jumper sealIntact => Sys2Proof.Machine.execPresenceSample jumper sealIntact s
  | .attestationRequest nonce => Sys2Proof.Machine.execAttestationRequest nonce s
  | .inputOvercurrent => Sys2Proof.Machine.execInputOvercurrent s
  | .inputVoltage => Sys2Proof.Machine.execInputVoltage s
  | .railOutOfRange rail => Sys2Proof.Machine.execRailOutOfRange rail s
  | .coolantLoss => Sys2Proof.Machine.execCoolantLoss s
  | .runawayTemperature inst => Sys2Proof.Machine.execRunawayTemperature inst s
  | .laserSupplyCut port => Sys2Proof.Machine.execLaserSupplyCut port s
  | .heartbeatLoss => Sys2Proof.Machine.execHeartbeatLoss s
  | .monitorSelfCheck ok => Sys2Proof.Machine.execMonitorSelfCheck ok s
  | .herdIntervalEnd => Sys2Proof.Machine.execHerdIntervalEnd s
  | .herdBookClear v => Sys2Proof.Machine.execHerdBookClear v s
  | .tapReset => Sys2Proof.Machine.execTapReset s
  | .extest pins cells => Sys2Proof.Machine.execExtest pins cells s
  | .idcode => Sys2Proof.Machine.execIdcode s
  | .samplePreload pins cells => Sys2Proof.Machine.execSamplePreload pins cells s
  | .bypass => Sys2Proof.Machine.execBypass s
  | .debugNop r => Sys2Proof.Machine.execDebugNop r s
  | .halt r => Sys2Proof.Machine.execHalt r s
  | .resume r => Sys2Proof.Machine.execResume r s
  | .dbgStep r => Sys2Proof.Machine.execDbgStep r s
  | .setAddr r => Sys2Proof.Machine.execSetAddr r s
  | .debugRead r env => Sys2Proof.Machine.execDebugRead r env s
  | .debugWrite r env => Sys2Proof.Machine.execDebugWrite r env s
  | .setBp r => Sys2Proof.Machine.execSetBp r s
  | .readReg r => Sys2Proof.Machine.execReadReg r s
  | .writeReg r => Sys2Proof.Machine.execWriteReg r s
  | .traceRecordWrite => Sys2Proof.Machine.execTraceRecordWrite s
  | .laneSearchEnd e locked => Sys2Proof.Machine.execLaneSearchEnd e locked s
  | .hostCompletionTimeout q => Sys2Proof.Machine.execHostCompletionTimeout q s
  | .malformedDatagram m => Sys2Proof.Machine.execMalformedDatagram m s
  | .icmpv6Echo lane origin target payload => Sys2Proof.Machine.execIcmpv6Echo lane origin target payload s
  | .neighbourDiscovery lane origin target => Sys2Proof.Machine.execNeighbourDiscovery lane origin target s
  | .serviceLaneDown lane => Sys2Proof.Machine.execServiceLaneDown lane s
  | .serviceLaneUp lane => Sys2Proof.Machine.execServiceLaneUp lane s
  | .hdmDecoderCommit commit => Sys2Proof.Machine.execHdmDecoderCommit commit s

end Sys2Proof.Machine
end

