-- ==== Sys2Proof/Safety.lean ====
section
/-! DEFINITION. What a safe state of the module is, and the words in which statements are made: module memory in its canonical form, a command
that completes, a core that issues a word, what an instruction leaves as it was. -/

namespace Sys2Proof.Machine

/-- Module memory is in its canonical form. -/
abbrev Memory.wf (m : Sparse Byte) : Prop := Sparse.wf memZero m = true

/-- The state's module memory is canonical. -/
abbrev State.memOk (s : State) : Prop := Memory.wf s.hbm.mem


/-! ### The words of the statements -/

/-- A command completes: it answers a next state, of which P holds. -/
def Claims.Does (i : Instr) (s : State) (P : State → Prop) : Prop := ∃ t, exec i s = .next t ∧ P t

/-- Core i.core issues the word w for context c (R73, R75, R92, R94, R409): the context runs, the core may issue, the PC is a multiple of 8
in the context's range, w stands there and is legal, its pails lie in the context's window, and no word it moves meets a parity mismatch. -/
def Claims.issues (s : State) (i : Issue) (c w : Nat) : Bool :=
  let k := i.core.toNat
  let f := s.file k c
  decide (s.runningCtx = some c) && s.canIssue k c && decide (f.pc % 8 = 0) && (s.ctx c).inStore f.pc 8
    && decide (leNat (s.storeBytes k f.pc 8) = w) && legalWord w && !(pailsOf w).any (fun p => decide ((s.ctx c).pcount ≤ p))
    && decide (i.replays = 0)

/-- What no core instruction of the vector and scalar units touches: everything but the core's own registers and pails, the numeric
flags with them, and, of a step that ends, the trace. -/
def Claims.coreFrame (s t : State) (k c : Nat) : Prop :=
  t.hbm = s.hbm ∧ t.churns = s.churns ∧ t.sync = s.sync ∧ t.ctxs = s.ctxs ∧ t.ctl = s.ctl ∧ t.host = s.host ∧ t.rt = s.rt
    ∧ t.opt = s.opt ∧ t.svc = s.svc ∧ t.sec = s.sec ∧ t.pow = s.pow ∧ t.herd = s.herd ∧ t.pending = s.pending
    ∧ ∀ j, j ≠ k * 64 + c → Sparse.get (fun _ => fileNone) t.files j = Sparse.get (fun _ => fileNone) s.files j

/-- A scalar instruction with result v in register d is done: register d holds v (s0 stays 0), the PC has moved to p, every other register,
mask and flag, the pails and the core stores are as before. -/
def Claims.scalarDone (s t : State) (k c d : Nat) (v : Dword) (p : Nat) : Prop :=
  (∀ r, (t.file k c).reg r = if r = d ∧ d ≠ 0 then v else (s.file k c).reg r)
    ∧ (t.file k c).pc = p ∧ (t.file k c).masks = (s.file k c).masks ∧ (t.file k c).flags = (s.file k c).flags
    ∧ t.pails = s.pails ∧ t.store = s.store ∧ Claims.coreFrame s t k c

/-- The second operand of a scalar instruction (Table 04-3): IMM32 sign-extended, or s[SB]. -/
def Claims.second (s : State) (k c w : Nat) : Dword := (s.file k c).second (sword w)

/-- An instruction of one pail with element results `op` is done (R74, R77, R95): unmasked elements of the destination hold their results,
masked ones keep their value or become 0 with MZ, the flags of unmasked elements stick, and nothing else of the pails changes. -/
def Claims.pailDone (s t : State) (k c w : Nat) (op : Nat → Word × BitVec 4) : Prop :=
  let v := vword w
  let pd := (s.ctx c).pailOf v.pd
  let m := (s.file k c).mask v.km
  (∀ i, i < 256 → t.pail k pd i = if m.getLsbD i then (op i).1 else if v.mz then 0 else s.pail k pd i)
    ∧ (∀ j, (j < k * 16384 + pd * 256 ∨ k * 16384 + pd * 256 + 256 ≤ j) →
        Sparse.get (fun _ => (0 : Word)) t.pails j = Sparse.get (fun _ => (0 : Word)) s.pails j)
    ∧ (∀ n, n < 4 → (t.file k c).flags.getLsbD n =
        ((s.file k c).flags.getLsbD n || ((s.file k c).live v.km).any fun i => (op i).2.getLsbD n))
    ∧ (t.file k c).pc = (s.file k c).pc + 8 ∧ (t.file k c).regs = (s.file k c).regs ∧ (t.file k c).masks = (s.file k c).masks
    ∧ t.store = s.store ∧ Claims.coreFrame s t k c

/-- Element i of operand A. -/
def Claims.opA (s : State) (k c w i : Nat) : Word := s.pail k ((s.ctx c).pailOf (vword w).pa) i

/-- Element i of operand B (Table 04-2, BMODE). -/
def Claims.opB (s : State) (k c w i : Nat) : Word := s.operandB k c (vword w) i

/-- Element i of operand C. -/
def Claims.opC (s : State) (k c w i : Nat) : Word := s.pail k ((s.ctx c).pailOf (vword w).pc) i

/-- An operation with an FP32 and a wrapping I32 form (R77). -/
def Claims.two (s : State) (k c w : Nat) (f : Word → Word → Word) (g : Int → Int → Int) (i : Nat) : Word × BitVec 4 :=
  let a := Claims.opA s k c w i
  let b := Claims.opB s k c w i
  if (vword w).fmt = 4 then wrap32 (g a.toInt b.toInt) else (f a b, flags32 [a, b] (f a b))

/-- A core fault of a code stopped the core for the context (R94): it is faulted at its PC, the fault is counted and reported, and it is a
storage event of the context's running step. -/
def Claims.faulted (s t : State) (k c code : Nat) : Prop :=
  (t.file k c).faulted = true ∧ (t.file k c).pc = (s.file k c).pc ∧ (t.file k c).regs = (s.file k c).regs
    ∧ t.odg 0x2301 0x01 = s.odg 0x2301 0x01 + 1 ∧ t.odg 0x2301 0x02 = faultWord k c code
    ∧ (((s.ctx c).stepOn = true ∧ (s.ctx c).vote = none) → (t.ctx c).storageEv = true)
    ∧ t.pails = s.pails ∧ t.store = s.store ∧ t.hbm = s.hbm

/-- A store of 256 elements of e bytes is done (R83): the unmasked elements' bytes are written in rising order at their addresses, no other
byte of a core store changes, and no pail. -/
def Claims.storeDone (s t : State) (k c w e : Nat) (val : Nat → Nat) : Prop :=
  let v := vword w
  let f := s.file k c
  let live := f.live v.km
  t.store = (live.foldl (fun s j => s.putStoreRun k (f.moveAddr v.sb e j) (leBytes e (val j))) s).store
    ∧ (∀ a, (∀ j, j ∈ live → a < storeKey k (f.moveAddr v.sb e j) ∨ storeKey k (f.moveAddr v.sb e j) + e ≤ a) →
        Sparse.get (fun _ => (0 : Byte)) t.store a = Sparse.get (fun _ => (0 : Byte)) s.store a)
    ∧ (t.file k c).pc = f.pc + 8 ∧ (t.file k c).regs = f.regs ∧ (t.file k c).masks = f.masks ∧ t.pails = s.pails
    ∧ Claims.coreFrame s t k c

/-- The core instructions by opcode (Table 04-4). -/
def Claims.coreRows (i : Issue) (b : BitVec 2) : List (Nat × Instr) :=
  [(0x00, .nop i), (0x01, .sadd i), (0x02, .ssub i), (0x03, .smul i), (0x04, .sand i), (0x05, .sor i), (0x06, .sxor i), (0x07, .sshl i),
   (0x08, .sshr i), (0x09, .ssra i), (0x0A, .sli i), (0x0B, .slih i), (0x0C, .br i), (0x0E, .sld i), (0x0F, .sst i), (0x10, .srdsys i),
   (0x11, .endp i), (0x20, .vadd i), (0x21, .vsub i), (0x22, .vmul i), (0x23, .vfma i), (0x24, .vmax i), (0x25, .vmin i), (0x26, .vabs i),
   (0x27, .vneg i), (0x28, .vscale2 i), (0x29, .vcmp i), (0x2A, .vsel i), (0x2B, .vcvt i), (0x2C, .vmov i), (0x2D, .vbcast i),
   (0x40, .rsum i), (0x41, .rmax i), (0x42, .rmin i), (0x43, .rsumsq i), (0x44, .trans i), (0x60, .func i), (0x61, .deriv i),
   (0x80, .tmul i), (0xA0, .pld i), (0xA1, .pst i), (0xA2, .pldw i), (0xA3, .pstn i), (0xC0, .cissue i), (0xC1, .cpop i),
   (0xC2, .cpopnb i), (0xC3, .ssig i b), (0xC4, .swait i b), (0xC5, .fence i)]

/-- The word at a core's PC. -/
def Claims.wordAt (s : State) (k c : Nat) : Nat := leNat (s.storeBytes k (s.file k c).pc 8)

/-- A churn's work has taken the completion record of a command (R40, Table 02-8): its FIFO, or, while that is full, the completions held. -/
def Claims.recorded (w v : ChWork) (tag : Nat) (status : Nat → Prop) : Prop :=
  if w.fifo.length < 32 then
    ∃ r rest, v.fifo = w.fifo ++ r :: rest ∧ r.length = 16 ∧ fld r 0 2 = tag ∧ status (fld r 2 2)
  else v.fifo = w.fifo ∧ ∃ r sig rest, v.held = (r, sig) :: rest ∧ r.length = 16 ∧ fld r 0 2 = tag ∧ status (fld r 2 2)

/-- It is a DMA descriptor's turn (R137, R150): it is the next of its queue, neither unreadable nor rejected, it has started or its
context runs and its conditions to start hold, it is of the operation and code given, not empty, the link is up if it uses host space, the host holds no line
of its ranges, and its transfer meets no array error. -/
def Claims.dmaTurn (s : State) (q : QRef) (env : XferEnv) (i : Nat) (d : Desc) (op : Nat) : Bool :=
  let key := qKey q
  decide ((s.dq key).nextItem = some (i, d)) && decide (s.heldStatus key d = 0) && s.mayStart key (s.dq key) d && decide (dOp d.bytes = op) && !dEmpty d.bytes
    && (!dHost d.bytes || s.host.linkUp) && decide (((s.dRanges d.bytes).map fun r => s.filtered r.1 r.2).flatten = [])
    && decide (env.ecc = [])

/-- A byte's place does not fail a read (R130, R131, R134, R135). -/
def Claims.readable (s : State) (l : Loc) : Prop := ∀ a, l = .mem a → s.readStatus a = 0

/-- Item i of a DMA queue holds a completion record with a status. -/
def Claims.finished (t : State) (key i st : Nat) : Prop :=
  ∃ d r, (t.dq key).items[i]? = some d ∧ d.record = some r ∧ fld r 2 2 = st

/-- Every byte of a list of moves has arrived, and no other byte of module memory has changed. -/
def Claims.moved (s t : State) (ms : List Move) (val : Move → Byte) : Prop :=
  (∀ m a, m ∈ ms → m.dst = .mem a → t.memByte a = val m)
    ∧ (∀ m k o, m ∈ ms → m.dst = .core k o → t.storeByte k o = val m)
    ∧ (∀ a, (∀ m, m ∈ ms → m.dst ≠ .mem a) → t.memByte a = s.memByte a)

/-- What the host, the fabric and the other units see unchanged while a DMA queue works. -/
def Claims.dmaFrame (s t : State) : Prop :=
  t.files = s.files ∧ t.pails = s.pails ∧ t.churns = s.churns ∧ t.ctl = s.ctl ∧ t.sync = s.sync ∧ t.opt = s.opt ∧ t.sec = s.sec
    ∧ t.svc = s.svc ∧ t.pending = s.pending

/-- Entry e at position pos is the running context c's next flow entry, of the operation given and due, and did not run as wait work
(R208, R210). -/
def Claims.flowTurn (s : State) (c pos : Nat) (e : PlanEntry) (op : Nat) : Bool :=
  decide (s.runningCtx = some c) && decide (s.flowNext c = some (pos, e)) && decide (e.op = op) && !(s.ctx c).early.contains pos

/-- Entry e at position pos, the i-th of the plan, is the running context c's next timed entry, of the operation given and due (R210). -/
def Claims.timedTurn (s : State) (c i pos : Nat) (e : PlanEntry) (op : Nat) : Bool :=
  decide (s.runningCtx = some c) && decide ((s.ctx c).timedNext = some (i, pos, e)) && decide (e.op = op) && (s.ctx c).stepOn
    && (s.ctx c).isDue e

/-- The entry at a position of context c has started and not completed. -/
def Claims.stillRuns (t : State) (c pos : Nat) : Prop := ∃ r, r ∈ (t.ctx c).runs ∧ r.pos = pos

/-- An object can be written: neither its bank is retired nor its value lost (R387). -/
def Claims.sound (s : State) (o : Nat) : Prop := s.sync.retired.contains (o / 256) = false ∧ s.sync.lost.contains o = false

/-- Nothing that surrounds an operation on module memory disturbs it: the host holds no line, no array error, replay or failing transfer
meets it (R130, R131, R315). -/
def Claims.calm (s : State) (env : MemEnv) : Prop := s.host.filter = [] ∧ env.replays = [] ∧ env.failAt = none ∧ env.ecc = []

/-- What a plan entry of no memory operation leaves alone: every byte of module memory, the core stores and pails, the churns, the host
attachment, the router, the optics, the routines in progress, the commands that wait. -/
def Claims.planFrame (s t : State) : Prop :=
  t.hbm.mem = s.hbm.mem ∧ t.pails = s.pails ∧ t.store = s.store ∧ t.churns = s.churns ∧ t.host = s.host ∧ t.rt = s.rt ∧ t.opt = s.opt
    ∧ t.tasks = s.tasks ∧ t.pending = s.pending

/-- An entry e at position pos has completed (Table 10-2): it no longer runs; its object, of value v and type ty, takes the entry's own signal
where it can be written; no other object changes. -/
def Claims.ends (s t : State) (c pos : Nat) (e : PlanEntry) (ty : BitVec 2) (v : Dword) : Prop :=
  ¬ (∃ r, r ∈ (t.ctx c).runs ∧ r.pos = pos)
    ∧ (s.sync.retired.contains (e.sync / 256) = false ∧ s.sync.lost.contains e.sync = false →
        t.objVal e.sync = (if e.signal then signalVal ty v 1 else v) ∧ t.objTyp e.sync = ty)
    ∧ (¬ (s.sync.retired.contains (e.sync / 256) = false ∧ s.sync.lost.contains e.sync = false) → t.sync = s.sync)
    ∧ ∀ o, o ≠ e.sync → t.objVal o = s.objVal o ∧ t.objTyp o = s.objTyp o

/-- The next flow entry of context c has been taken: the cursor is behind it. -/
def Claims.taken (s t : State) (c : Nat) : Prop := (t.ctx c).flowPos = (s.ctx c).settleFlow.flowPos + 1

/-- The descriptor of the group that a record names can be read (R283). -/
def Claims.groupReads (s : State) (c k : Nat) : Prop :=
  ∀ ma, s.groupMa c k = some ma → s.readFail ma (16 + 4 * (leNat (s.memBytes ma 2) % 20481)) = none

/-- A run of n bytes from an MA can be written in parts of sectors. -/
def Claims.writable (s : State) (a n : Nat) : Prop := a + n ≤ 2 ^ 39 ∧ ∀ k, k < n → s.writeStatus (a + k) false = 0

/-- The descriptor at the head of a region's attention queue for a context (R156). -/
def Claims.attnDesc (s : State) (region c : Nat) : List Byte :=
  let qr := (s.ctx c).attnRec region
  match s.locOf 1 (fld qr 0 8 + 128 * ((s.aq (region * 64 + c)).next % 2 ^ fld qr 9 1)) 0 with
  | .core n o => s.storeBytes n o 128
  | _ => List.replicate 128 0

/-- An attention queue's next descriptor may be taken (R156, R157): its context runs, the ring exists, every record before it is written,
it is announced, and the routine runs on every core of the region. -/
def Claims.attnTurn (s : State) (region c : Nat) : Bool :=
  let q := s.aq (region * 64 + c)
  let qr := (s.ctx c).attnRec region
  decide (s.runningCtx = some c) && decide (fld qr 9 1 ≠ 0) && decide (q.items = []) && decide (q.next < (s.objVal (fld qr 10 2)).toNat)
    && (s.regionCores region).all fun n => (s.file n c).running && !(s.file n c).faulted

/-- The entry of the job ring that the module took is answered with a status (R312, R313, Table 14-4): its record is in the response ring, or
held while the host has left no room. -/
def Claims.answered (s t : State) (e : JobEntry) (st : Nat) : Prop :=
  let n := s.host.rspNext
  let size := 2 ^ s.odg 0x2805 0x05
  t.host.taken = s.host.taken + 1 ∧ t.host.rspNext = n + 1 ∧ ∃ r : List Byte, r.length = 32 ∧ fld r 0 2 = jTag e ∧ fld r 2 2 = st
    ∧ fld r 4 1 = 0 ∧ fld r 5 1 = jCtx e ∧ fld r 8 8 = s.host.taken % 2 ^ 64
    ∧ (if n < s.host.rspDone + size then t.host.held = []
        ∧ ∀ i, i < 32 → Sparse.get (fun _ => (0 : Byte)) t.host.mem (s.odg 0x2805 0x04 + 32 * (n % size) + i) = r.getD i 0
      else t.host.held = [r])

/-- The module takes a job-ring entry of an operation now, and nothing of it that is to be kept 0 is nonzero (R10, R312); `mem` and `slot`
say whether the operation uses the address and the slot. -/
def Claims.jobTurn (s : State) (e : JobEntry) (op : Nat) (mem slot : Bool) : Bool :=
  s.takesEntry && decide (jOp e = op) && !jResv e mem mem slot

/-- A Llynmi response left the module last (R325): for the request, with its session, status and data. -/
def Claims.replied (t : State) (m : Lly) (session status : Nat) (data : List Byte) : Prop :=
  ∃ size rest, t.out = .lly m.lane m.target m.origin m.port.toNat
    (llyBytes session (lSeq m) (lOp m) (lCommit m) status (lIndex m) (lSub m) (lOffset m) size data) :: rest

/-- A well-formed request of an operation arrives on a lane that is up, of the session x that expects its number and holds no other (R325-R328). -/
def Claims.lyTurn (s : State) (m : Lly) (op : Nat) (x : Session) : Bool :=
  s.llyHears m && decide (lOp m = op) && !llyBad m && decide (s.session (lSession m) = some x) && decide (lSeq m = x.next)
    && decide (x.held = [])

/-- The state that such a request runs on: its arrival is noted and it is counted. -/
def Claims.lyState (s : State) (x : Session) : State := (s.setSession { x with used := s.ctl.clock }).bump 0x1030 0x07 0

/-- A debug request runs (R406-R408, R410): debug is enabled, the module is not off, no request executes, the OP is the command's, no field to be kept 0 is nonzero, the core is there, and
its die is powered where the operation needs it. -/
def Claims.dbgTurn (s : State) (r : DbgReq) (op keep : Nat) (dark : Bool) : Bool :=
  decide (s.ctl.mstate ≠ .off) && s.dbgOn && decide (s.tap.busy = none) && decide (dbgOp r = op) && !dbgResv r && decide (dbgData r &&& keep = 0)
    && s.coreEnabled (dbgCore r) && (dark || s.powered)

/-- A debug request has completed with a status and a result, HALTED and BP_HIT those of the core and context now (R407). -/
def Claims.dbgReply (s t : State) (r : DbgReq) (st result : Nat) : Prop :=
  let f := t.file (dbgCore r) (dbgCtx r)
  t.tap.last = (st, f.stopped, f.bpHit, result) ∧ t.tap.count = s.tap.count + 1 ∧ t.pending = s.pending

end Sys2Proof.Machine
end

