-- ==== Sys2Proof/Certificates/Slice0/Obligations.lean ====
section
/-! DEFINITION. The statements: what the commands do, family by family, and what every command leaves as it was. -/

open Sys2Proof Sys2Proof.Machine

/-- R76: the nine 64-bit operations of the scalar unit. Each completes with its result in s[SD] and changes nothing else. -/
def Obligations.ScalarArithmetic : Prop :=
  ∀ (s : State) (i : Issue) (c w : Nat), Claims.issues s i c w = true →
    let k := i.core.toNat
    let a := (s.file k c).reg (sword w).sa
    let b := Claims.second s k c w
    let done := fun (v : Dword) (t : State) => Claims.scalarDone s t k c (sword w).sd v ((s.file k c).pc + 8)
    (opcOf w = 0x01 → Claims.Does (.sadd i) s (done (a + b))) ∧ (opcOf w = 0x02 → Claims.Does (.ssub i) s (done (a - b)))
    ∧ (opcOf w = 0x03 → Claims.Does (.smul i) s (done (a * b))) ∧ (opcOf w = 0x04 → Claims.Does (.sand i) s (done (a &&& b)))
    ∧ (opcOf w = 0x05 → Claims.Does (.sor i) s (done (a ||| b))) ∧ (opcOf w = 0x06 → Claims.Does (.sxor i) s (done (a ^^^ b)))
    ∧ (opcOf w = 0x07 → Claims.Does (.sshl i) s (done (a <<< (b.toNat % 64))))
    ∧ (opcOf w = 0x08 → Claims.Does (.sshr i) s (done (a >>> (b.toNat % 64))))
    ∧ (opcOf w = 0x09 → Claims.Does (.ssra i) s (done (a.sshiftRight (b.toNat % 64))))

/-- R76: SLI, SLIH, BR, NOP and FENCE. -/
def Obligations.ScalarImmediateAndBranch : Prop :=
  ∀ (s : State) (i : Issue) (c w : Nat), Claims.issues s i c w = true →
    let k := i.core.toNat
    let f := s.file k c
    let x := sword w
    let done := fun (d : Nat) (v : Dword) (p : Nat) (t : State) => Claims.scalarDone s t k c d v p
    (opcOf w = 0x0A → Claims.Does (.sli i) s (done x.sd (BitVec.ofInt 64 x.imm) (f.pc + 8)))
    ∧ (opcOf w = 0x0B → Claims.Does (.slih i) s
        (done x.sd (BitVec.ofNat 64 ((f.reg x.sd).toNat % 2 ^ 32 + bits w 63 32 * 2 ^ 32)) (f.pc + 8)))
    ∧ (opcOf w = 0x0C → Claims.Does (.br i) s
        (done 0 0 (if branchTaken x.cond (f.reg x.sa) (f.reg x.sb) then branchPc f.pc x.imm else f.pc + 8)))
    ∧ (opcOf w = 0x00 → Claims.Does (.nop i) s (done 0 0 (f.pc + 8)))
    ∧ (opcOf w = 0xC5 → Claims.Does (.fence i) s (done 0 0 (f.pc + 8)))

/-- R76, R92, R94: SLD and SST move one 64-bit word between a register and the core store; an address that is no multiple of 8 or outside
the context's range raises core fault 3 instead. -/
def Obligations.CoreLoadAndStore : Prop :=
  ∀ (s : State) (i : Issue) (c w : Nat), Claims.issues s i c w = true →
    let k := i.core.toNat
    let f := s.file k c
    let a := (f.reg (sword w).sa + BitVec.ofInt 64 (sword w).imm).toNat
    let good := a % 8 = 0 ∧ (s.ctx c).sbase ≤ a ∧ a + 8 ≤ (s.ctx c).slimit
    (opcOf w = 0x0E → good → Claims.Does (.sld i) s fun t =>
        Claims.scalarDone s t k c (sword w).sd (BitVec.ofNat 64 (leNat (s.storeBytes k a 8))) (f.pc + 8))
    ∧ (opcOf w = 0x0F → good → Claims.Does (.sst i) s fun t =>
        t.storeBytes k a 8 = leBytes 8 (f.reg (sword w).sb).toNat
        ∧ (∀ j, (j < storeKey k a ∨ storeKey k a + 8 ≤ j) →
            Sparse.get (fun _ => (0 : Byte)) t.store j = Sparse.get (fun _ => (0 : Byte)) s.store j)
        ∧ (t.file k c).regs = f.regs ∧ (t.file k c).masks = f.masks ∧ (t.file k c).flags = f.flags ∧ (t.file k c).pc = f.pc + 8
        ∧ t.pails = s.pails ∧ Claims.coreFrame s t k c)
    ∧ (opcOf w = 0x0E → ¬ good → Claims.Does (.sld i) s fun t => Claims.faulted s t k c 3)
    ∧ (opcOf w = 0x0F → ¬ good → Claims.Does (.sst i) s fun t => Claims.faulted s t k c 3)

/-- R95: SRDSYS reads the system value that its selector names; selector 4 reads the numeric flags and clears them. -/
def Obligations.SystemValues : Prop :=
  ∀ (s : State) (i : Issue) (c w : Nat), Claims.issues s i c w = true → opcOf w = 0x10 →
    let k := i.core.toNat
    let f := s.file k c
    let sel := (sword w).imm.toNat
    let v := if sel = 0 then s.logicalIndex k else if sel = 1 then k % 1024 else if sel = 2 then s.enabled (coreRegion k)
      else if sel = 3 then s.stampOf k else if sel = 4 then f.flags.toNat else c
    Claims.Does (.srdsys i) s fun t =>
      (∀ r, (t.file k c).reg r = if r = (sword w).sd ∧ r ≠ 0 then BitVec.ofNat 64 v else f.reg r)
      ∧ (t.file k c).flags = (if sel = 4 then 0 else f.flags) ∧ (t.file k c).masks = f.masks ∧ (t.file k c).pc = f.pc + 8
      ∧ t.pails = s.pails ∧ t.store = s.store ∧ Claims.coreFrame s t k c

/-- R93, Table 10-3: END finishes the program of the core, which then fetches nothing, and leaves registers and stores as they are. -/
def Obligations.ProgramEnds : Prop :=
  ∀ (s : State) (i : Issue) (c w : Nat), Claims.issues s i c w = true → opcOf w = 0x11 →
    let k := i.core.toNat
    Claims.Does (.endp i) s fun t =>
      (t.file k c).running = false ∧ (t.file k c).regs = (s.file k c).regs ∧ t.canIssue k c = false ∧ t.pails = s.pails ∧ t.store = s.store
      ∧ t.hbm = s.hbm

/-- R74, R76, R77, R80-R82: the pail instructions whose results stand element by element. -/
def Obligations.PailArithmetic : Prop :=
  ∀ (s : State) (i : Issue) (c w : Nat), Claims.issues s i c w = true →
    let k := i.core.toNat
    let A := Claims.opA s k c w
    let B := Claims.opB s k c w
    let C := Claims.opC s k c w
    let v := vword w
    let done := fun (op : Nat → Word × BitVec 4) (t : State) => Claims.pailDone s t k c w op
    (opcOf w = 0x20 → Claims.Does (.vadd i) s (done (Claims.two s k c w add32 fun a b => a + b)))
    ∧ (opcOf w = 0x21 → Claims.Does (.vsub i) s (done (Claims.two s k c w sub32 fun a b => a - b)))
    ∧ (opcOf w = 0x22 → Claims.Does (.vmul i) s (done (Claims.two s k c w mul32 fun a b => a * b)))
    ∧ (opcOf w = 0x23 → Claims.Does (.vfma i) s
        (done fun e => (fma32 (A e) (B e) (C e), flagsFma (A e) (B e) (C e) (fma32 (A e) (B e) (C e)))))
    ∧ (opcOf w = 0x24 → Claims.Does (.vmax i) s (done (Claims.two s k c w max32 fun a b => max a b)))
    ∧ (opcOf w = 0x25 → Claims.Does (.vmin i) s (done (Claims.two s k c w min32 fun a b => min a b)))
    ∧ (opcOf w = 0x26 → Claims.Does (.vabs i) s (done fun e => if v.fmt = 4 then wrap32 ((A e).toInt.natAbs : Int)
        else (signed32 false (A e), flags32 [A e] (signed32 false (A e)))))
    ∧ (opcOf w = 0x27 → Claims.Does (.vneg i) s (done fun e => if v.fmt = 4 then wrap32 (-(A e).toInt)
        else (signed32 (!(A e).getLsbD 31) (A e), flags32 [A e] (signed32 (!(A e).getLsbD 31) (A e)))))
    ∧ (opcOf w = 0x28 → Claims.Does (.vscale2 i) s (done fun e =>
        let r := scale32 (A e) (sInt 16 ((s.file k c).reg v.sb).toNat)
        (r, flags32 [A e] r)))
    ∧ (opcOf w = 0x2B → Claims.Does (.vcvt i) s
        (done fun e => vcvtOne v.fmt v.rnd (if v.rnd = 2 then s.coreDraw k c v.sb e else 0) (A e)))
    ∧ (opcOf w = 0x60 → Claims.Does (.func i) s (done fun e => (funcOne false v.sel (A e), flags32 [A e] (funcOne false v.sel (A e)))))
    ∧ (opcOf w = 0x61 → Claims.Does (.deriv i) s (done fun e => (funcOne true v.sel (A e), flags32 [A e] (funcOne true v.sel (A e)))))
    ∧ (opcOf w = 0x80 → Claims.Does (.tmul i) s (done fun e =>
        s.tmulOne k ((s.ctx c).pailOf v.pa) ((s.ctx c).pailOf v.pb) v (e / 16) (e % 16) (C e)))

/-- R74, R76: the pail instructions that move data; they set no flag (the model's choice, log entry 14). -/
def Obligations.PailMovement : Prop :=
  ∀ (s : State) (i : Issue) (c w : Nat), Claims.issues s i c w = true →
    let k := i.core.toNat
    let A := Claims.opA s k c w
    let B := Claims.opB s k c w
    let v := vword w
    let done := fun (op : Nat → Word) (t : State) => Claims.pailDone s t k c w fun e => (op e, 0)
    (opcOf w = 0x2A → Claims.Does (.vsel i) s (done fun e => if ((s.file k c).mask (v.sel % 8)).getLsbD e then A e else B e))
    ∧ (opcOf w = 0x2C → Claims.Does (.vmov i) s (done A))
    ∧ (opcOf w = 0x2D → Claims.Does (.vbcast i) s (done fun _ => ((s.file k c).reg v.sb).setWidth 32))
    ∧ (opcOf w = 0x44 → Claims.Does (.trans i) s (done fun e => A (16 * (e % 16) + e / 16)))

/-- R74, R77: VCMP writes the unmasked bits of k[KD]; masked bits keep their value or become 0 with MZ. -/
def Obligations.MaskCompare : Prop :=
  ∀ (s : State) (i : Issue) (c w : Nat), Claims.issues s i c w = true → opcOf w = 0x29 →
    let k := i.core.toNat
    let v := vword w
    let f := s.file k c
    Claims.Does (.vcmp i) s fun t =>
      (∀ e, e < 256 → ((t.file k c).mask v.kd).getLsbD e = if (f.mask v.km).getLsbD e
        then vcmpBit v.fmt v.sel (Claims.opA s k c w e) (Claims.opB s k c w e) else !v.mz && (f.mask v.kd).getLsbD e)
      ∧ (∀ m, m ≠ v.kd → (t.file k c).mask m = f.mask m) ∧ (t.file k c).regs = f.regs ∧ (t.file k c).pc = f.pc + 8
      ∧ (∀ n, n < 3 → (t.file k c).flags.getLsbD n = f.flags.getLsbD n)
      ∧ (t.file k c).flags.getLsbD 3 = (f.flags.getLsbD 3 || (decide (v.fmt = 0) && (f.live v.km).any fun e =>
          (val32 (Claims.opA s k c w e)).isNan || (decide (v.sel ≠ 7) && (val32 (Claims.opB s k c w e)).isNan)))
      ∧ t.pails = s.pails ∧ t.store = s.store ∧ Claims.coreFrame s t k c

/-- R79: a reduction writes every element of its line, in the tree order, with the identity for masked elements. -/
def Obligations.Reductions : Prop :=
  ∀ (s : State) (i : Issue) (c w : Nat), Claims.issues s i c w = true →
    let k := i.core.toNat
    let v := vword w
    let pd := (s.ctx c).pailOf v.pd
    let m := (s.file k c).mask v.km
    let leaf := fun (ident : Word) (start : Word → Word × BitVec 4) (l j : Nat) =>
      let e := if v.ax then 16 * j + l else 16 * l + j
      if m.getLsbD e then start (Claims.opA s k c w e) else (ident, (0 : BitVec 4))
    let done := fun (ident : Word) (start : Word → Word × BitVec 4) (op : Word → Word → Word × BitVec 4) (t : State) =>
      (∀ e, e < 256 → t.pail k pd e =
        (reduce16 op ((List.range 16).map (leaf ident start (if v.ax then e % 16 else e / 16)))).1)
      ∧ (∀ j, (j < k * 16384 + pd * 256 ∨ k * 16384 + pd * 256 + 256 ≤ j) →
        Sparse.get (fun _ => (0 : Word)) t.pails j = Sparse.get (fun _ => (0 : Word)) s.pails j)
      ∧ (∀ n, n < 4 → (t.file k c).flags.getLsbD n = ((s.file k c).flags.getLsbD n
        || (List.range 16).any fun l => (reduce16 op ((List.range 16).map (leaf ident start l))).2.getLsbD n))
      ∧ (t.file k c).pc = (s.file k c).pc + 8 ∧ (t.file k c).regs = (s.file k c).regs ∧ (t.file k c).masks = (s.file k c).masks
      ∧ t.store = s.store ∧ Claims.coreFrame s t k c
    (opcOf w ∈ [0x40, 0x41, 0x42, 0x43] → v.mz = false)
    ∧ (opcOf w = 0x40 → Claims.Does (.rsum i) s (if v.fmt = 4 then done 0 (fun a => (a, 0)) fun a b => wrap32 (a.toInt + b.toInt)
      else done 0x80000000 (seenStart v) (inner32 add32)))
    ∧ (opcOf w = 0x41 → Claims.Does (.rmax i) s (done 0xFF800000 (seenStart v) (inner32 max32)))
    ∧ (opcOf w = 0x42 → Claims.Does (.rmin i) s (done 0x7F800000 (seenStart v) (inner32 min32)))
    ∧ (opcOf w = 0x43 → Claims.Does (.rsumsq i) s (done 0x80000000 (fun a => (mul32 a a, flags32 [a] (mul32 a a))) (inner32 add32)))

/-- R83, R92, R94: the moves between pails and the core store, with a fault instead where the address, the stride or the range is wrong. -/
def Obligations.CoreMoves : Prop :=
  ∀ (s : State) (i : Issue) (c w : Nat), Claims.issues s i c w = true →
    let k := i.core.toNat
    let v := vword w
    let f := s.file k c
    let word := fun (e j : Nat) => leNat (s.storeBytes k (f.moveAddr v.sb e j) e)
    let e := moveSize v.fmt
    (opcOf w = 0xA0 → s.moveOk k c v 4 = true → Claims.Does (.pld i) s fun t =>
        Claims.pailDone s t k c w fun j => (BitVec.ofNat 32 (word 4 j), 0))
    ∧ (opcOf w = 0xA2 → s.moveOk k c v e = true → Claims.Does (.pldw i) s fun t =>
        Claims.pailDone s t k c w fun j => pldwOne v (word e j))
    ∧ (opcOf w = 0xA1 → s.moveOk k c v 4 = true → Claims.Does (.pst i) s fun t =>
        Claims.storeDone s t k c w 4 (fun j => (Claims.opA s k c w j).toNat) ∧ (t.file k c).flags = f.flags)
    ∧ (opcOf w = 0xA3 → s.moveOk k c v e = true → Claims.Does (.pstn i) s fun t =>
        Claims.storeDone s t k c w e (fun j => (pstnOne s k c v j (Claims.opA s k c w j)).1)
        ∧ ∀ n, n < 4 → (t.file k c).flags.getLsbD n =
            (f.flags.getLsbD n || (f.live v.km).any fun j => (pstnOne s k c v j (Claims.opA s k c w j)).2.getLsbD n))
    ∧ (opcOf w = 0xA0 → s.moveOk k c v 4 = false → Claims.Does (.pld i) s fun t => Claims.faulted s t k c 3)
    ∧ (opcOf w = 0xA1 → s.moveOk k c v 4 = false → Claims.Does (.pst i) s fun t => Claims.faulted s t k c 3)
    ∧ (opcOf w = 0xA2 → s.moveOk k c v e = false → Claims.Does (.pldw i) s fun t => Claims.faulted s t k c 3)
    ∧ (opcOf w = 0xA3 → s.moveOk k c v e = false → Claims.Does (.pstn i) s fun t => Claims.faulted s t k c 3)

/-- R84, R85: a tile command enters the churn's queue, or the core stalls while it is full; a completion record leaves the FIFO, or CPOP
waits and CPOPNB says that none is there. -/
def Obligations.ChurnInstructions : Prop :=
  ∀ (s : State) (i : Issue) (c w : Nat), Claims.issues s i c w = true →
    let k := i.core.toNat
    let ch := coreRegion k
    let f := s.file k c
    let x := sword w
    let cmd := ((List.range 4).map fun j => leBytes 8 (f.reg (x.sa + j)).toNat).flatten
    let work := (s.churn ch).work
    (opcOf w = 0xC0 → work.queue.length < 32 → Claims.Does (.cissue i) s fun t =>
        (t.file k c).pc = f.pc + 8 ∧ (t.file k c).regs = f.regs ∧ t.pails = s.pails ∧ t.store = s.store
        ∧ (work.exec ≠ [] → (t.churn ch).work.queue = work.queue ++ [cmd]))
    ∧ (opcOf w = 0xC0 → 32 ≤ work.queue.length → Claims.Does (.cissue i) s fun t => t = s)
    ∧ (∀ r rest, opcOf w = 0xC1 → work.fifo = r :: rest → Claims.Does (.cpop i) s fun t =>
        (t.file k c).pc = f.pc + 8
        ∧ (∀ j, (t.file k c).reg j = if j = 0 then 0 else if j = x.sd then BitVec.ofNat 64 (fld r 0 8)
            else if j = x.sd + 1 then BitVec.ofNat 64 (fld r 8 8) else f.reg j)
        ∧ t.pails = s.pails ∧ t.store = s.store ∧ (work.held = [] → work.exec ≠ [] → (t.churn ch).work.fifo = rest))
    ∧ (opcOf w = 0xC1 → work.fifo = [] → Claims.Does (.cpop i) s fun t => t = s)
    ∧ (∀ r rest, opcOf w = 0xC2 → work.fifo = r :: rest → Claims.Does (.cpopnb i) s fun t =>
        (t.file k c).pc = f.pc + 8
        ∧ (∀ j, (t.file k c).reg j = if j = 0 then 0 else if j = x.sb then 1 else if j = x.sd then BitVec.ofNat 64 (fld r 0 8)
            else if j = x.sd + 1 then BitVec.ofNat 64 (fld r 8 8) else f.reg j)
        ∧ t.pails = s.pails ∧ t.store = s.store ∧ (work.held = [] → work.exec ≠ [] → (t.churn ch).work.fifo = rest))
    ∧ (opcOf w = 0xC2 → work.fifo = [] → Claims.Does (.cpopnb i) s fun t =>
        (t.file k c).pc = f.pc + 8 ∧ (∀ j, (t.file k c).reg j = if j = x.sb then 0 else f.reg j) ∧ t.churns = s.churns)
/-- R211, R387, R390: SSIG applies its signal whole; of an object's two copies one bad copy is rewritten and counts as a replay, and two lose
the object; a signal to a retired bank is discarded and is a storage event of the step. SWAIT goes on where its object satisfies the value, and waits
elsewhere. -/
def Obligations.CoreSynchronisation : Prop :=
  ∀ (s : State) (i : Issue) (c w : Nat), Claims.issues s i c w = true →
    let k := i.core.toNat
    let f := s.file k c
    let o := (f.reg (sword w).sa).toNat % 2 ^ 16
    let v := f.reg (sword w).sb
    (∀ b : BitVec 2, opcOf w = 0xC3 → s.sync.retired.contains (o / 256) = false → s.sync.lost.contains o = false →
      Claims.Does (.ssig i b) s fun t =>
        (t.file k c).pc = f.pc + 8 ∧ (t.file k c).regs = f.regs ∧ t.pails = s.pails ∧ t.store = s.store ∧ t.hbm = s.hbm
        ∧ (b ≠ 3 → t.objVal o = signalVal (s.objTyp o) (s.objVal o) v ∧ ∀ p, p ≠ o → t.objVal p = s.objVal p)
        ∧ t.odg 0x3004 0x01 = s.odg 0x3004 0x01 + (if b = 1 ∨ b = 2 then 1 else 0)
        ∧ (b = 3 → o ∈ t.sync.lost ∧ t.objVal o = 0 ∧ t.sync.value = s.sync.value))
    ∧ (∀ b : BitVec 2, opcOf w = 0xC3 → s.sync.retired.contains (o / 256) = true →
      Claims.Does (.ssig i b) s fun t =>
        (t.file k c).pc = f.pc + 8 ∧ (t.file k c).regs = f.regs ∧ t.sync.value = s.sync.value
        ∧ ∀ d, d ∈ s.objOwners o → (s.ctx d).stepOn = true → (s.ctx d).vote = none → (t.ctx d).storageEv = true)
    ∧ (∀ b : BitVec 2, opcOf w = 0xC4 →
      (b ≠ 3 → s.satisfied o v = true → Claims.Does (.swait i b) s fun t =>
        (t.file k c).pc = f.pc + 8 ∧ (t.file k c).waiting = none ∧ (t.file k c).regs = f.regs ∧ t.sync = s.sync ∧ t.pails = s.pails
        ∧ t.store = s.store ∧ t.hbm = s.hbm ∧ t.odg 0x3004 0x01 = s.odg 0x3004 0x01 + (if b = 0 then 0 else 1))
      ∧ (b ≠ 3 → s.satisfied o v = false → Claims.Does (.swait i b) s fun t =>
        (t.file k c).waiting = some (o, v.toNat) ∧ (t.file k c).pc = f.pc ∧ (t.file k c).regs = f.regs ∧ t.sync = s.sync
        ∧ t.canIssue k c = false ∧ t.pails = s.pails ∧ t.store = s.store ∧ t.hbm = s.hbm)
      ∧ (b = 3 → Claims.Does (.swait i b) s fun t =>
        o ∈ t.sync.lost ∧ (t.file k c).regs = f.regs
        ∧ (if v = 0 then (t.file k c).pc = f.pc + 8 ∧ (t.file k c).waiting = none
           else (t.file k c).pc = f.pc ∧ (t.file k c).waiting = some (o, v.toNat))))

/-- R75, R92, R94, R390: a core that fetches outside its context's range, an illegal word, a pail outside the window, or a word with a third
parity mismatch, raises its core fault whichever core instruction is commanded; CISSUE and CPOP do not issue, and so meet no mismatch, while the queue
is full or the FIFO empty. -/
def Obligations.CoreFaults : Prop :=
  ∀ (s : State) (i : Issue) (b : BitVec 2) (c : Nat) (row : Nat × Instr), row ∈ Claims.coreRows i b →
    let k := i.core.toNat
    let w := Claims.wordAt s k c
    let fetch := (s.file k c).pc % 8 = 0 ∧ (s.ctx c).inStore (s.file k c).pc 8 = true
    let inWindow := (pailsOf w).all fun p => decide (p < (s.ctx c).pcount)
    s.runningCtx = some c → s.canIssue k c = true →
      (¬ fetch → Claims.Does row.2 s fun t => Claims.faulted s t k c 3)
      ∧ (fetch → legalWord w = false → Claims.Does row.2 s fun t => Claims.faulted s t k c 1)
      ∧ (fetch → legalWord w = true → opcOf w = row.1 → inWindow = false → Claims.Does row.2 s fun t => Claims.faulted s t k c 2)
      ∧ (fetch → legalWord w = true → opcOf w = row.1 → inWindow = true → i.replays = 3 →
          (row.1 = 0xC0 → (s.churn (coreRegion k)).work.queue.length < 32) → (row.1 = 0xC1 → (s.churn (coreRegion k)).work.fifo ≠ []) →
          Claims.Does row.2 s fun t =>
          Claims.faulted s t k c 4 ∧ t.odg 0x3004 0x02 = s.odg 0x3004 0x02 + 1)


/-- R409, R211: a breakpoint halts the core before its instruction, where one stands that has not been passed, and a core that waits goes on once
its object satisfies the value; elsewhere the two events change nothing. -/
def Obligations.BreakpointAndResume : Prop :=
  ∀ (s : State) (core : BitVec 12),
    let k := core.toNat
    (s.runningCtx = none → Claims.Does (.breakpointHit core) s fun t => t = s)
    ∧ ∀ c, s.runningCtx = some c →
      let f := s.file k c
      let hits := s.coreEnabled k && f.running && !f.faulted && !f.halted && f.waiting.isNone && f.atBp && !f.bpPass
      (hits = true → Claims.Does (.breakpointHit core) s fun t =>
        t.file k c = { f with halted := true, bpHit := true } ∧ (f.stepOne = false → t.canIssue k c = false)
        ∧ t.pails = s.pails ∧ t.store = s.store ∧ Claims.coreFrame s t k c)
      ∧ (hits = false → Claims.Does (.breakpointHit core) s fun t => t = s)
      ∧ (∀ o v, f.waiting = some (o, v) → s.satisfied o (BitVec.ofNat 64 v) = true →
        Claims.Does (.waitResume (.core core)) s fun t =>
          (t.file k c).waiting = none ∧ (t.file k c).pc = f.pc + 8 ∧ (t.file k c).regs = f.regs ∧ (t.file k c).masks = f.masks
          ∧ (t.file k c).flags = f.flags ∧ t.pails = s.pails ∧ t.store = s.store ∧ Claims.coreFrame s t k c)
      ∧ ((∀ o v, f.waiting = some (o, v) → s.satisfied o (BitVec.ofNat 64 v) = false) →
        Claims.Does (.waitResume (.core core)) s fun t => t = s)

/-- R30, R32, R36, R38-R41, R44, R48, R52-R54: what becomes of a tile command that stands at the head of its churn's queue and is not
rejected. A LOAD starts or waits for the bank; a SWAP exchanges the banks or waits; a FENCE and a CAL complete, start or wait as the churn's state
directs; a STREAM begins to launch, wakes the churn, waits, runs in shadow mode, falls back or is flushed. A rejected command completes with its
status whichever tile command is commanded. That a queue entry frees when its command starts is the model's choice (log entry 30). -/
def Obligations.ChurnCommands : Prop :=
  ∀ (s : State) (ch : BitVec 6) (cmd : List Byte),
    let k := ch.toNat
    let x := s.churn k
    let w := x.work
    let others := fun (t : State) => (∀ j, j ≠ k → t.churn j = s.churn j) ∧ t.hbm = s.hbm ∧ t.pails = s.pails ∧ t.pending = s.pending
    let onlyFaults := fun (t : State) (p : BitVec 12) => ∀ c, coreRegion p.toNat = k → s.current = some c →
      (t.file p.toNat c).faulted = true ∧ t.odg 0x2301 0x01 = s.odg 0x2301 0x01 + 1 ∧ t.odg 0x3004 0x02 = s.odg 0x3004 0x02 + 1
    let shadowEnds := [St.CHURN_CLIP_ABORT, St.CHURN_ACC_OVERFLOW, St.CHURN_CLIP_UNRESOLVED]
    (s.headOf k 1 = some cmd → ∀ parity : Option (BitVec 12),
      (w.exec.all (fun e => decide (cmdOp e.cmd = 3 ∧ e.bank = w.active)) = true →
        Claims.Does (.load ch parity) s fun t =>
          (t.churn k).work = { w with queue := w.queue.drop 1
                                      exec := w.exec ++ [{ execNew cmd (!w.active) with tainted := parity.isSome }] }
          ∧ others t ∧ t.store = s.store ∧ ∀ p, parity = some p → onlyFaults t p)
      ∧ (w.exec.all (fun e => decide (cmdOp e.cmd = 3 ∧ e.bank = w.active)) = false →
        Claims.Does (.load ch parity) s fun t => t = s))
    ∧ (s.headOf k 2 = some cmd →
      (w.maySwap = true → Claims.Does (.swap ch) s fun t =>
        (t.churn k).work.active = (!w.active) ∧ (t.churn k).work.bank0 = w.bank0 ∧ (t.churn k).work.bank1 = w.bank1
        ∧ Claims.recorded w (t.churn k).work (cmdTag cmd) (fun st => st = St.CHURN_DONE) ∧ others t ∧ t.store = s.store)
      ∧ (w.maySwap = false → Claims.Does (.swap ch) s fun t => t = s))
    ∧ (s.headOf k 4 = some cmd →
      (w.exec = [] → Claims.Does (.tileFence ch) s fun t =>
        Claims.recorded w (t.churn k).work (cmdTag cmd) (fun st => st = St.CHURN_DONE)
        ∧ (w.fifo.length < 32 → ∃ r, (t.churn k).work.fifo[w.fifo.length]? = some r
            ∧ fld r 8 8 = w.lastDone.getD (s.stampOf (0x1000 + k)) % 2 ^ 64)
        ∧ (t.churn k).work.active = w.active ∧ (t.churn k).work.bank0 = w.bank0 ∧ (t.churn k).work.bank1 = w.bank1 ∧ others t
        ∧ t.store = s.store)
      ∧ (w.exec ≠ [] → Claims.Does (.tileFence ch) s fun t => t = s))
    ∧ (s.headOf k 5 = some cmd →
      (w.exec = [] → (x.st = .ready ∨ x.st = .streaming) → Claims.Does (.cal ch) s fun t =>
        (t.churn k).st = .calibrating ∧ (t.churn k).before = x.st
        ∧ (t.churn k).work = { w with queue := w.queue.drop 1, exec := [execNew cmd w.active] } ∧ others t ∧ t.store = s.store)
      ∧ (w.exec = [] → (x.st = .calibrating ∨ x.st = .waking ∨ x.st = .relighting) → Claims.Does (.cal ch) s fun t =>
        (t.churn k).st = x.st ∧ (t.churn k).work = { w with queue := w.queue.drop 1, exec := [execNew cmd w.active] } ∧ others t
        ∧ t.store = s.store)
      ∧ (w.exec = [] → (x.st = .dark ∨ x.st = .retired) → Claims.Does (.cal ch) s fun t =>
        (t.churn k).st = x.st ∧ Claims.recorded w (t.churn k).work (cmdTag cmd)
          (fun st => st = if x.st = .dark then St.CHURN_DONE else St.CHURN_FLUSHED) ∧ others t ∧ t.store = s.store)
      ∧ (w.exec ≠ [] → Claims.Does (.cal ch) s fun t => t = s))
    ∧ (s.headOf k 3 = some cmd → ∀ (n : Nat) (parity : Option (BitVec 12)),
      (w.maySwap = true → s.runsShadow k cmd = false →
        ((x.st = .ready ∨ x.st = .streaming) → x.rateDue = false → Claims.Does (.stream ch n parity) s fun t =>
          (t.churn k).st = .streaming ∧ (t.churn k).work.queue = w.queue.drop 1 ∧ (t.churn k).work.active = (w.active != cmdSwapFirst cmd)
          ∧ (t.churn k).work.exec.map (fun e => e.cmd) = w.exec.map (fun e => e.cmd) ++ [cmd] ∧ (t.churn k).work.fifo = w.fifo
          ∧ (n = 1 → w.exec = [] → s.healthy k ≠ [] → ∃ e, (t.churn k).work.exec = [e]
              ∧ e.next = Nat.min (cmdCount cmd) (s.healthy k).length
              ∧ e.air = ((s.healthy k).zipIdx.take (cmdCount cmd)).map fun p => (p.2, p.1, 0))
          ∧ others t ∧ t.store = s.store ∧ ∀ p, parity = some p → onlyFaults t p)
        ∧ ((x.st = .ready ∨ x.st = .streaming) → x.rateDue = true → Claims.Does (.stream ch n parity) s fun t =>
          (t.churn k).st = .calibrating ∧ (t.churn k).rate = s.odg 0x2200 0x01 k ∧ (t.churn k).work = w ∧ others t ∧ t.store = s.store)
        ∧ (x.st = .dark → Claims.Does (.stream ch n parity) s fun t =>
          (t.churn k).st = .waking ∧ (t.churn k).work = w ∧ others t ∧ t.store = s.store)
        ∧ ((x.st = .waking ∨ x.st = .calibrating) → Claims.Does (.stream ch n parity) s fun t => t = s)
        ∧ ((x.st = .relighting ∨ x.st = .retired) → cmdFallback cmd = true → w.exec = [] → Claims.Does (.stream ch n parity) s fun t =>
          Claims.recorded w (t.churn k).work (cmdTag cmd) (fun st => st ∈ St.CHURN_DONE_FALLBACK :: shadowEnds)
          ∧ (t.churn k).work.active = (w.active != cmdSwapFirst cmd) ∧ others t)
        ∧ ((x.st = .relighting ∨ x.st = .retired) → cmdFallback cmd = false → Claims.Does (.stream ch n parity) s fun t =>
          Claims.recorded w (t.churn k).work (cmdTag cmd) (fun st => st = St.CHURN_FLUSHED) ∧ others t ∧ t.store = s.store))
      ∧ (w.exec = [] → s.runsShadow k cmd = true → Claims.Does (.stream ch n parity) s fun t =>
          Claims.recorded w (t.churn k).work (cmdTag cmd) (fun st => st ∈ St.CHURN_DONE :: shadowEnds)
          ∧ (t.churn k).work.active = (w.active != cmdSwapFirst cmd) ∧ others t))
    ∧ (w.exec ≠ [] → s.headOf k 3 = some cmd → (s.runsShadow k cmd = true ∨ w.maySwap = false) → ∀ parity,
      Claims.Does (.stream ch 0 parity) s fun t => t = s)
    ∧ (∀ rest st, w.queue = cmd :: rest → s.cmdReject k cmd = st → st ≠ 0 → w.exec = [] → w.held = [] →
      ∀ i, i ∈ [Instr.load ch none, .swap ch, .stream ch 0 none, .tileFence ch, .cal ch] → Claims.Does i s fun t =>
        Claims.recorded w (t.churn k).work (cmdTag cmd) (fun y => y = st) ∧ others t ∧ t.store = s.store)

/-- R27-R30, R40, R49, Table 02-1: a LOAD's tile becomes valid in its bank and the LOAD completes, but not during a calibration; a vector that passes
its hold is accumulated under the clip policy; what that policy makes of a vector with n clipped codes after r retries. -/
def Obligations.ChurnProgress : Prop :=
  ∀ (s : State) (ch : BitVec 6) (i : Nat) (e : ChExec),
    let k := ch.toNat
    let x := s.churn k
    let w := x.work
    (w.exec.findIdx? (fun e => decide (cmdOp e.cmd = 1)) = some i → w.exec[i]? = some e → x.st ≠ .calibrating →
      Claims.Does (.shadowBankValid ch) s fun t =>
        (e.tainted = false → (t.churn k).work.bankOf e.bank = s.regionBytes k (cmdSrc e.cmd) 16384)
        ∧ (e.tainted = true → ((t.churn k).work.bankOf e.bank).length = 16384)
        ∧ (t.churn k).work.bankOf (!e.bank) = w.bankOf (!e.bank) ∧ (t.churn k).work.active = w.active
        ∧ (if e.bank then (t.churn k).work.src1 else (t.churn k).work.src0) = some (cmdSrc e.cmd)
        ∧ (w.held = [] → Claims.recorded w (t.churn k).work (cmdTag e.cmd) (fun st => st = St.CHURN_DONE))
        ∧ t.store = s.store ∧ t.hbm = s.hbm)
    ∧ ((x.st = .calibrating ∨ w.exec.findIdx? (fun e => decide (cmdOp e.cmd = 1)) = none) →
      Claims.Does (.shadowBankValid ch) s fun t => t = s)
    ∧ (∀ v slot r rest, w.exec.findIdx? (fun e => decide (cmdOp e.cmd = 3)) = some i → w.exec[i]? = some e → e.air = (v, slot, r) :: rest →
      Claims.Does (.codeRelease ch) s fun t =>
        let p := s.takeCodes k { e with air := rest } v r false
        t.store = p.1.store ∧ t.odg 0x2202 0x01 = p.1.odg 0x2202 0x01 ∧ t.odg 0x2202 0x02 = p.1.odg 0x2202 0x02 ∧ t.hbm = s.hbm)
    ∧ (w.exec.findIdx? (fun e => decide (cmdOp e.cmd = 3)) = none → Claims.Does (.codeRelease ch) s fun t => t = s)
    ∧ ∀ (cmd : List Byte) (r n : Nat),
      (n = 0 → clipAct cmd r n = .accumulate 0 false)
      ∧ (n ≠ 0 → cmdPolicy cmd = 0 → clipAct cmd r n = .accumulate n false)
      ∧ (n ≠ 0 → cmdPolicy cmd = 1 → r < cmdGain cmd → r < 2 → clipAct cmd r n = .retry)
      ∧ (n ≠ 0 → cmdPolicy cmd = 1 → r < cmdGain cmd → 2 ≤ r → clipAct cmd r n = .accumulate n true)
      ∧ (n ≠ 0 → cmdPolicy cmd = 1 → cmdGain cmd ≤ r → clipAct cmd r n = .accumulate n false)
      ∧ (n ≠ 0 → cmdPolicy cmd = 2 → clipAct cmd r n = .abort)

/-- Table 02-11, R47-R52, R65-R67, R353: the churn's calibrations, slots and light, in the states in which they occur and, without an effect, in
the others. -/
def Obligations.ChurnStates : Prop :=
  ∀ (s : State) (ch : BitVec 6) (slot : BitVec 2),
    let k := ch.toNat
    let n := slot.toNat
    let x := s.churn k
    let lit := x.st = .ready ∨ x.st = .streaming ∨ x.st = .calibrating
    let falls := if s.odg 0x2200 0x02 = 0 ∧ s.time.everLock = true then s.time.fabric % 200000 = 3125 * k
      else x.calEnd + 200000 ≤ s.ctl.clock
    let sound := fun (locked : BitVec 4) (f : CalFinding) (j : Nat) => locked.getLsbD j && !f.noisy.getLsbD j
    let lights := fun (i : Instr) (locked : BitVec 4) (f : CalFinding) =>
      ((∃ j, j < 4 ∧ sound locked f j = true) → Claims.Does i s fun t =>
        ((t.churn k).st = .ready ∨ (t.churn k).st = .streaming) ∧ (∀ j, j < 4 → (j ∈ t.healthy k ↔ sound locked f j = true))
        ∧ t.odg 0x2203 0x01 k = f.noise.toNat ∧ t.odg 0x2202 0x06 = s.odg 0x2202 0x06 + 1)
      ∧ ((∀ j, j < 4 → sound locked f j = false) → Claims.Does i s fun t => (t.churn k).st = .relighting ∧ t.healthy k = [])
    ((x.st = .ready ∨ x.st = .streaming) → falls → Claims.Does (.calibrationDue ch) s fun t =>
        (t.churn k).st = .calibrating ∧ (t.churn k).before = x.st ∧ (t.churn k).work = x.work)
    ∧ ((¬ (x.st = .ready ∨ x.st = .streaming) ∨ ¬ falls) → Claims.Does (.calibrationDue ch) s fun t => t = s)
    ∧ (∀ f, x.st = .calibrating → (x.before = .ready ∨ x.before = .streaming) → x.rateDue = false → x.rateCal = false →
      Claims.Does (.calibrationDone ch f) s fun t =>
        t.odg 0x2203 0x01 k = f.noise.toNat ∧ t.odg 0x2203 0x02 k = f.offset.toNat ∧ t.odg 0x2203 0x03 k = f.gain.toNat
        ∧ t.odg 0x2203 0x04 k = f.temp.toNat ∧ t.odg 0x2202 0x06 = s.odg 0x2202 0x06 + 1
        ∧ t.odg 0x2203 0x05 = s.odg 0x2203 0x05 + f.residual.length ∧ (t.churn k).st ≠ .calibrating)
    ∧ (∀ f, x.st ≠ .calibrating → Claims.Does (.calibrationDone ch f) s fun t => t = s)
    ∧ ((n ∈ s.healthy k ∨ n ∈ x.rejoin) → lit → Claims.Does (.slotLockLoss ch slot) s fun t =>
        n ∉ t.healthy k ∧ n ∉ (t.churn k).rejoin ∧ t.odg 0x2202 0x04 = s.odg 0x2202 0x04 + 1
        ∧ ((∃ m, m ∈ s.healthy k ∧ m ≠ n) → Sparse.find (t.churn k).relock n = some 0
          ∧ (x.st = .calibrating → (t.churn k).st = x.before ∧ (t.churn k).calDue = true))
        ∧ ((∀ m, m ∈ s.healthy k → m = n) → (t.churn k).st = .relighting ∧ t.healthy k = []))
    ∧ ((¬ (n ∈ s.healthy k ∨ n ∈ x.rejoin) ∨ ¬ lit) → Claims.Does (.slotLockLoss ch slot) s fun t => t = s)
    ∧ (∀ tries, Sparse.find x.relock n = some tries → s.relockReady (k / 16) = true → lit →
        (Claims.Does (.slotRelockAttemptEnd ch slot true) s fun t =>
          (t.churn k).st = .calibrating ∧ n ∈ (t.churn k).rejoin ∧ Sparse.find (t.churn k).relock n = none)
        ∧ (tries < 2 → Claims.Does (.slotRelockAttemptEnd ch slot false) s fun t =>
          Sparse.find (t.churn k).relock n = some (tries + 1) ∧ (t.churn k).st = x.st)
        ∧ (2 ≤ tries → Claims.Does (.slotRelockAttemptEnd ch slot false) s fun t =>
          Sparse.find (t.churn k).relock n = none ∧ (t.churn k).rejoin = x.rejoin
          ∧ (t.churn k).st = if x.calDue then .calibrating else x.st))
    ∧ (∀ tries ok, Sparse.find x.relock n = some tries → s.relockReady (k / 16) = false →
        Claims.Does (.slotRelockAttemptEnd ch slot ok) s fun t => t = s.bump 0x2006 0x08 0)
    ∧ (∀ ok, Sparse.find x.relock n = none → Claims.Does (.slotRelockAttemptEnd ch slot ok) s fun t => t = s)
    ∧ (lit → Claims.Does (.lightLoss ch) s fun t => (t.churn k).st = .relighting ∧ t.healthy k = [])
    ∧ (¬ lit → Claims.Does (.lightLoss ch) s fun t => t = s)
    ∧ (x.st = .relighting → s.relockReady (k / 16) = true →
      (∀ locked f, locked ≠ 0 → lights (.relightAttemptEnd ch true locked f) locked f)
      ∧ (∀ ref locked f, (ref = false ∨ locked = 0) → Claims.Does (.relightAttemptEnd ch ref locked f) s fun t =>
        (t.churn k).attempts = x.attempts + 1 ∧ (t.churn k).st = if x.attempts < 2 then .relighting else .retired))
    ∧ (∀ ref locked f, x.st = .relighting → s.relockReady (k / 16) = false → Claims.Does (.relightAttemptEnd ch ref locked f) s fun t =>
        t = s.bump 0x2006 0x08 0)
    ∧ (∀ ref locked f, x.st ≠ .relighting → Claims.Does (.relightAttemptEnd ch ref locked f) s fun t => t = s)
    ∧ (∀ locked f, x.st = .waking → lights (.wakeDone ch locked f) locked f)
    ∧ (∀ locked f, x.st ≠ .waking → Claims.Does (.wakeDone ch locked f) s fun t => t = s)
    ∧ (let idle := x.st = .ready ∧ x.work.queue = [] ∧ x.work.exec = [] ∧ s.odg 0x2200 0x05 ≠ 0
        ∧ x.idleAt + 1000 * s.odg 0x2200 0x05 ≤ s.ctl.clock
      (idle → Claims.Does (.darkTimeout ch) s fun t => (t.churn k).st = .dark ∧ (t.churn k).work = x.work)
      ∧ (¬ idle → Claims.Does (.darkTimeout ch) s fun t => t = s))

/-- R127, Table 06-5: each atomic replaces the word at its address by its result and gives the old value to the core store; no other byte of
module memory changes, and its descriptor finishes with DMA_DONE. -/
def Obligations.Atomics : Prop :=
  ∀ (s : State) (q : QRef) (env : XferEnv) (i : Nat) (d : Desc) (k o : Nat),
    Claims.dmaTurn s q env i d 3 = true → env.failAt = none → s.readStatus (dDst d.bytes) = 0 →
    s.locOf 1 (dSrc d.bytes) 0 = .core k o →
    let a := dDst d.bytes
    let does := fun (c : Instr) (code n : Nat) (f : Nat → Nat → Nat → Nat) => dMemop d.bytes = code →
      Claims.Does c s fun t =>
        leNat (t.memBytes a n) = f (leNat (s.memBytes a n)) (dOpA d.bytes % 2 ^ (8 * n)) (dOpB d.bytes % 2 ^ (8 * n))
        ∧ leNat (t.storeBytes k o n) = leNat (s.memBytes a n)
        ∧ (∀ b, (b < a ∨ a + n ≤ b) → t.memByte b = s.memByte b)
        ∧ Claims.finished t (qKey q) i St.DMA_DONE ∧ Claims.dmaFrame s t
    does (.atAddU32 q env) 0x01 4 (fun w a _ => (w + a) % 2 ^ 32) ∧ does (.atAddU64 q env) 0x02 8 (fun w a _ => (w + a) % 2 ^ 64)
    ∧ does (.atAddF32 q env) 0x03 4 (fun w a _ => onWords add32 w a)
    ∧ does (.atMaxI32 q env) 0x04 4 (fun w a _ => if sInt 32 w < sInt 32 a then a else w)
    ∧ does (.atMinI32 q env) 0x05 4 (fun w a _ => if sInt 32 a < sInt 32 w then a else w)
    ∧ does (.atMaxU32 q env) 0x06 4 (fun w a _ => if w < a then a else w)
    ∧ does (.atMinU32 q env) 0x07 4 (fun w a _ => if a < w then a else w)
    ∧ does (.atMaxF32 q env) 0x08 4 (fun w a _ => onWords max32 w a) ∧ does (.atMinF32 q env) 0x09 4 (fun w a _ => onWords min32 w a)
    ∧ does (.atAnd q env) 0x0A 8 (fun w a _ => w &&& a) ∧ does (.atOr q env) 0x0B 8 (fun w a _ => w ||| a)
    ∧ does (.atXor q env) 0x0C 8 (fun w a _ => w ^^^ a) ∧ does (.atSwapU32 q env) 0x0D 4 (fun _ a _ => a)
    ∧ does (.atSwapU64 q env) 0x0E 8 (fun _ a _ => a) ∧ does (.atCasU32 q env) 0x0F 4 (fun w a b => if w = a then b else w)
    ∧ does (.atCasU64 q env) 0x10 8 (fun w a b => if w = a then b else w)

/-- R129, Table 06-6: each plain reduction combines source element j of row r into its destination element, where no element meets a failing
sector and the destination rows do not overlap. -/
def Obligations.PlainReductions : Prop :=
  ∀ (s : State) (q : QRef) (env : XferEnv) (i : Nat) (d : Desc),
    Claims.dmaTurn s q env i d 4 = true → env.failAt = none → dSrcSpace d.bytes < 3 →
    let b := d.bytes
    let does := fun (c : Instr) (code e : Nat) (op : Word → Word → Word) =>
      let per := dLen b / e
      let at_ := fun (r j : Nat) => dDst b + r * strideOr (dDstStride b) (dLen b) + 4 * j
      let src := s.srcBytes b env.hostData
      let el := fun (r j : Nat) => fld src (r * dLen b + j * e) e
      dMemop b = code →
      (dRows b ≤ 1 ∨ 4 * per ≤ strideOr (dDstStride b) (dLen b)) →
      (∀ n, n < dRows b * dLen b → Claims.readable s (s.rowLoc (srcSide b) n)
        ∧ (n % dLen b / e < per → s.readStatus (at_ (n / dLen b) (n % dLen b / e)) = 0)) →
      Claims.Does c s fun t =>
        (∀ r j, r < dRows b → j < per → leNat (t.memBytes (at_ r j) 4) =
          (op (BitVec.ofNat 32 (leNat (s.memBytes (at_ r j) 4))) (if e = 2 then bf16.widen (el r j) else BitVec.ofNat 32 (el r j))).toNat)
        ∧ (∀ x, (∀ r j, r < dRows b → j < per → x < at_ r j ∨ at_ r j + 4 ≤ x) → t.memByte x = s.memByte x)
        ∧ Claims.finished t (qKey q) i St.DMA_DONE ∧ Claims.dmaFrame s t
    does (.rdAddF32 q env) 0x20 4 add32 ∧ does (.rdAddBf16F32 q env) 0x21 2 add32 ∧ does (.rdAddI32 q env) 0x22 4 (fun a b => a + b)
    ∧ does (.rdMaxF32 q env) 0x23 4 max32 ∧ does (.rdMinF32 q env) 0x24 4 min32

/-- R128: RD_ADD_BS8_I32, where no sector it reads or changes fails and its destination rows do not overlap. A block with its INVALID bit, a reserved exponent or an
exponent below E_ACC adds nothing; every other element adds q × 2^(E − E_ACC) to its destination element, saturating at the I32 limits. The command
finishes with the first status of Table 06-6 that a block or element calls for, and changes no other byte of module memory. -/
def Obligations.BlockReduction : Prop :=
  (∀ d q sh : Int, 0 ≤ sh → sh ≤ 30 →
    let v := d + q * 2 ^ sh.toNat
    bs8Add d q sh = (if v < -2147483648 then -2147483648 else if 2147483647 < v then 2147483647 else v,
      decide (v < -2147483648 ∨ 2147483647 < v)))
  ∧ ∀ (s : State) (q : QRef) (env : XferEnv) (i : Nat) (d : Desc),
    Claims.dmaTurn s q env i d 4 = true → env.failAt = none → dSrcSpace d.bytes < 3 → dMemop d.bytes = 0x25 →
    let b := d.bytes
    let segs := dLen b / 1088
    let stride := strideOr (dDstStride b) (dLen b)
    let src := s.srcBytes b env.hostData
    let blk := fun (r g k : Nat) => segBlock (sliceBytes src (r * dLen b + g * 1088) 1088) k
    let at_ := fun (r g k j : Nat) => dDst b + r * stride + g * 4096 + 128 * k + 4 * j
    let old := fun (r g k j : Nat) => sInt 32 (leNat (s.memBytes (at_ r g k j) 4))
    let inv := fun (r g k : Nat) => (blk r g k).invalid || decide (122 ≤ (blk r g k).e)
    let low := fun (r g k : Nat) => decide ((blk r g k).e < dEacc b)
    let sum := fun (r g k j : Nat) => bs8Add (old r g k j) ((blk r g k).q.getD j 0) ((blk r g k).e - dEacc b)
    let units := ((List.range (dRows b)).map fun r => ((List.range segs).map fun g => (List.range 32).map fun k => (r, g, k)).flatten).flatten
    (dRows b ≤ 1 ∨ 4096 * segs ≤ stride) →
    (∀ n, n < dRows b * dLen b → Claims.readable s (s.rowLoc (srcSide b) n)) →
    (∀ r g k, r < dRows b → g < segs → k < 32 → s.readFail (at_ r g k 0) 128 = none) →
    Claims.Does (.rdAddBs8I32 q env) s fun t =>
      (∀ r g k j, r < dRows b → g < segs → k < 32 → j < 32 →
        leNat (t.memBytes (at_ r g k j) 4) = uNat 32 (if inv r g k || low r g k then old r g k j else (sum r g k j).1))
      ∧ Claims.finished t (qKey q) i (
          if units.any (fun u => inv u.1 u.2.1 u.2.2) then St.MEM_RED_INVALID
          else if units.any (fun u => low u.1 u.2.1 u.2.2) then St.MEM_RED_EXPONENT
          else if units.any (fun u => (List.range 32).any fun j => (sum u.1 u.2.1 u.2.2 j).2) then St.MEM_RED_SATURATED
          else St.DMA_DONE)
      ∧ (∀ x, (∀ r, r < dRows b → x < dDst b + r * stride ∨ dDst b + r * stride + segs * 4096 ≤ x) → t.memByte x = s.memByte x)
      ∧ Claims.dmaFrame s t

/-- R141, R143-R146, R148, R257: a transfer without a failure brings every byte to its place, changes no other byte of module memory, and finishes
with its status; a SEND hands its payload in packets of at most 4,096 bytes to the fabric; an empty descriptor of any of these operations finishes with
DMA_DONE and moves nothing. -/
def Obligations.Transfers : Prop :=
  ∀ (s : State) (q : QRef) (env : XferEnv) (i : Nat) (d : Desc),
    let b := d.bytes
    let n := dRows b * dLen b
    let key := qKey q
    let clear := fun (ms : List Move) => s.firstFail ms env n = none ∧ (ms.map Move.dst).Nodup
    let byte := fun (m : Move) => s.locByte env.hostData m.off m.src
    let done := fun (t : State) (ms : List Move) (val : Move → Byte) (st : Nat) =>
      Claims.moved s t ms val ∧ Claims.finished t key i st ∧ Claims.dmaFrame s t
    let pages := s.pageMoves none b (dRows b)
    let pageSt := if s.absentRows b (dRows b) = 0 then St.DMA_DONE else St.DMA_DONE_ABSENT
    let sent := movesOf n (s.rowLoc (srcSide b)) fun _ => .nowhere
    (Claims.dmaTurn s q env i d 1 = true → clear (s.copyMoves b) → (dSrcSpace b = 3 → n ≤ env.hostData.length) →
      Claims.Does (.copy q env) s fun t => done t (s.copyMoves b) byte St.DMA_DONE)
    ∧ (Claims.dmaTurn s q env i d 2 = true → clear (s.fillMoves b) →
      Claims.Does (.fill q env) s fun t =>
        done t (s.fillMoves b) (fun m => (leBytes 8 (dOpA b)).getD (m.off % dLen b % dE b) 0) St.DMA_DONE)
    ∧ (env.listFail = none → s.pageStop none b = none → clear pages → dSrcSpace b < 3 →
      (Claims.dmaTurn s q env i d 5 = true → Claims.Does (.pageRead q env) s fun t => done t pages byte pageSt)
      ∧ (Claims.dmaTurn s q env i d 6 = true → Claims.Does (.pageWrite q env) s fun t => done t pages byte pageSt))
    ∧ (Claims.dmaTurn s q env i d 7 = true → s.firstFail sent env n = none → dSrcSpace b < 3 →
      Claims.Does (.send q env) s fun t =>
        (∃ js, js ≠ [] ∧ t.rt.inject = s.rt.inject ++ js ∧ (js.map fun x => x.pkt.payload).flatten = sent.map byte
          ∧ ∀ x, x ∈ js → x.dma = some (key, d.h) ∧ x.pkt.payload.length ≤ 4096 ∧ x.job = (s.ctx (key / 4 % 64)).job)
        ∧ (∃ e, (t.dq key).items[i]? = some e ∧ e.handed = true) ∧ t.hbm.mem = s.hbm.mem ∧ t.store = s.store)
    ∧ ((s.dq key).nextItem = some (i, d) → s.heldStatus key d = 0 → s.mayStart key (s.dq key) d = true → dEmpty b = true →
      ∀ c, (dOp b, c) ∈ [(1, Instr.copy q env), (2, .fill q env), (5, .pageRead q env), (6, .pageWrite q env), (7, .send q env)] →
      Claims.Does c s fun t => Claims.finished t key i St.DMA_DONE ∧ t.hbm = s.hbm ∧ t.store = s.store ∧ Claims.dmaFrame s t)

/-- R137, R139, R149, R150, R211: a descriptor is fetched in order of its number, unreadable where the read of its entry fails; the oldest finished
one writes its record where its ring has room and leaves the queue; one whose wait is met starts. -/
def Obligations.DmaQueues : Prop :=
  ∀ (s : State) (q : QRef),
    let key := qKey q
    let c := q.ctx.toNat
    let qr := (s.ctx c).dmaRec q.engine.toNat q.q.toNat
    let k := s.dq key
    let sp := fld qr 8 1 % 8
    let entry := fld qr 0 8 + 64 * (k.next % 2 ^ fld qr 9 1)
    let turn := s.runningCtx = some c ∧ fld qr 9 1 ≠ 0 ∧ k.next < (s.objVal (fld qr 10 2)).toNat
    (∀ env, turn → (sp ≠ 0 ∨ s.filtered entry 64 = []) →
      Claims.Does (.descriptorFetch q env) s fun t =>
        (t.dq key).next = k.next + 1 ∧ t.hbm.mem = s.hbm.mem ∧ ∃ d, (t.dq key).items[k.items.length]? = some d ∧ d.h = k.next
          ∧ d.bytes = (s.readSpace sp entry 64).1 ∧ (env.failAt ≠ none → d.status ≠ 0)
          ∧ (env.failAt = none → env.ecc = [] → (s.readSpace sp entry 64).2 = 0 → d.status = 0))
    ∧ (∀ env, ¬ turn → k.nextItem = none → Claims.Does (.descriptorFetch q env) s fun t => t = s)
    ∧ (∀ d rest r, k.items = d :: rest → d.record = some r → s.ringFree qr d.h = true →
      let a := fld qr 16 8 + 32 * (d.h % 2 ^ fld qr 25 1)
      (fld qr 24 1 % 8 ≠ 0 ∨ s.filtered a 32 = []) →
      Claims.Does (.dmaCompletion q) s fun t =>
        (t.dq key).written = d.h + 1 ∧ (t.dq key).items.length = rest.length
        ∧ t.odg 0x2404 0x01 q.engine.toNat = s.odg 0x2404 0x01 q.engine.toNat + 1
        ∧ (fld qr 24 1 % 8 = 0 → a % 32 = 0 → a < 2 ^ 39 → r.length = 32 → s.writeStatus a true = 0 →
            t.memBytes a 32 = r ∧ ∀ x, (x < a ∨ a + 32 ≤ x) → t.memByte x = s.memByte x)
        ∧ t.files = s.files ∧ t.pails = s.pails ∧ t.churns = s.churns)
    ∧ (∀ d rest, k.items = d :: rest → d.record ≠ none → s.ringFree qr d.h = false →
      Claims.Does (.dmaCompletion q) s fun t =>
        (t.dq key).written = k.written ∧ (t.dq key).items.length = k.items.length ∧ t.hbm = s.hbm ∧ t.store = s.store)
    ∧ (∀ i d, s.runningCtx = some c → k.nextItem = some (i, d) → d.started = false → dWaitEn d.bytes = true →
      s.heldStatus key d = 0 → s.mayStart key k d = true →
      Claims.Does (.waitResume (.queue q.engine q.ctx q.q)) s fun t =>
        (t.dq key).items = k.items.set i { d with started := true } ∧ (t.dq key).next = k.next ∧ (t.dq key).written = k.written
        ∧ (∀ j, j ≠ key → t.dq j = s.dq j) ∧ t.hbm = s.hbm ∧ t.sync = s.sync ∧ t.files = s.files)

/-- R124, R125, R131, R132, R135: temperature readings, patrol scrub and lane steering of a stack that is powered and not retired, and their lack of
effect on another. A throttle step is entered at once and left, one at a time, after 1 ms below its exit. -/
def Obligations.StackEvents : Prop :=
  ∀ (s : State) (stack : BitVec 3),
    let k := stack.toNat
    let now := s.odg 0x2400 0x02 k
    ((s.powered = false ∨ s.odg 0x2400 0x03 k = 1) → ∀ (temp : BitVec 16) (sector : BitVec 31) (f : EccFinding),
      Claims.Does (.stackTempReading stack temp) s (fun t => t = s) ∧ Claims.Does (.patrolScrub stack sector f) s (fun t => t = s)
      ∧ ∀ channel, Claims.Does (.dqLaneSteer stack channel) s fun t => t = s)
    ∧ (s.powered = true → s.odg 0x2400 0x03 k ≠ 1 →
      (∀ temp : BitVec 16,
        let deg := sInt 16 temp.toNat
        let cool := deg < (1392 + 80 * now : Nat) ∧ Sparse.get (fun _ => 0) s.hbm.coolSince (4 * k + now) ≠ 0
          ∧ Sparse.get (fun _ => 0) s.hbm.coolSince (4 * k + now) + 1000000 ≤ s.ctl.clock + 1
        let read := fun (t : State) (step : Nat) => t.odg 0x2400 0x01 k = temp.toNat ∧ t.odg 0x2400 0x02 k = step ∧ t.hbm.mem = s.hbm.mem
          ∧ t.pending = s.pending
        (now < throttleAt deg → Claims.Does (.stackTempReading stack temp) s fun t => read t (throttleAt deg)
          ∧ t.odg 0x2400 0x04 k = s.odg 0x2400 0x04 k + (if now = 0 then 1 else 0))
        ∧ (throttleAt deg ≤ now → now ≠ 0 → now ≤ 3 → cool → Claims.Does (.stackTempReading stack temp) s fun t => read t (now - 1))
        ∧ (throttleAt deg ≤ now → now ≤ 3 → (now = 0 ∨ ¬ cool) → Claims.Does (.stackTempReading stack temp) s fun t => read t now))
      ∧ (∀ sector : BitVec 31,
        let a := k * 2 ^ 36 + sector.toNat * 32
        let pos := Sparse.get (fun _ => 0) s.hbm.scrubPos k
        let scrubbed := fun (f : EccFinding) (P : State → Prop) => Claims.Does (.patrolScrub stack sector f) s fun t =>
          t.hbm.mem = s.hbm.mem ∧ Sparse.get (fun _ => 0) t.hbm.scrubPos k = (if sector.toNat = pos then (pos + 1) % 2 ^ 31 else pos)
          ∧ t.odg 0x2401 0x05 k = s.odg 0x2401 0x05 k + (if sector.toNat = pos ∧ pos = 2 ^ 31 - 1 then 1 else 0) ∧ P t
        scrubbed .clean (fun t => t.hbm.poison = s.hbm.poison)
        ∧ (s.readStatus a = 0 →
          scrubbed .single (fun t => t.odg 0x2401 0x01 k = s.odg 0x2401 0x01 k + 1 ∧ t.hbm.poison = s.hbm.poison)
          ∧ scrubbed .double (fun t => t.poisoned a = true ∧ t.odg 0x2401 0x02 k = s.odg 0x2401 0x02 k + 1
              ∧ s.odg 0x3003 0x01 < t.odg 0x3003 0x01))
        ∧ (s.inSlice a = true →
          scrubbed .tag (fun t => t.odg 0x2401 0x01 k = s.odg 0x2401 0x01 k + 1)
          ∧ (s.poisoned a = false → s.dirtySector a = true → scrubbed .parity fun t =>
              t.poisoned a = true ∧ t.odg 0x2401 0x02 k = s.odg 0x2401 0x02 k + 1 ∧ t.odg 0x3003 0x01 = s.odg 0x3003 0x01 + 1)
          ∧ (s.poisoned a = false → s.dirtySector a = false → scrubbed .parity fun t => t.inSlice a = false ∧ t.hbm.poison = s.hbm.poison)))
      ∧ (∀ channel : BitVec 5,
        let used := fun (s : State) => Sparse.get (fun _ => 0) s.hbm.dqUsed (32 * k + channel.toNat)
        (used s < 2 → Claims.Does (.dqLaneSteer stack channel) s fun t =>
          used t = used s + 1 ∧ t.odg 0x2402 0x02 k = s.odg 0x2402 0x02 k + 1 ∧ t.hbm.mem = s.hbm.mem)
        ∧ (2 ≤ used s → Claims.Does (.dqLaneSteer stack channel) s fun t =>
          k ∈ t.hbm.retireDue ∧ t.hbm.mem = s.hbm.mem ∧ used t = used s)))

/-- Table 10-3, R210, R211, R217, R286: the flow entries that act on synchronisation objects, start programs, mark phases and skip, each with its
own SIGNAL, and an outcome word not yet written; none of them changes module memory, the core stores or the routines in progress. -/
def Obligations.FlowEntries : Prop :=
  ∀ (s : State) (c pos : Nat) (e : PlanEntry),
    let v := BitVec.ofNat 64 e.arg
    let ty := s.objTyp e.sync
    let old := s.objVal e.sync
    let goes := fun (t : State) => Claims.taken s t c ∧ Claims.planFrame s t
    (Claims.flowTurn s c pos e 0x08 = true → s.satisfied e.sync v = true →
      Claims.Does .wait s fun t => goes t ∧ Claims.ends s t c pos e ty old ∧ t.files = s.files)
    ∧ (Claims.flowTurn s c pos e 0x08 = true → s.satisfied e.sync v = false →
      Claims.Does .wait s fun t => goes t ∧ Claims.stillRuns t c pos ∧ t.sync = s.sync ∧ t.files = s.files)
    ∧ (s.runningCtx = some c → (s.ctx c).plan[pos]? = some e → e.op = 0x08 → Claims.stillRuns s c pos →
      (∀ r f, r ∈ (s.ctx c).runs → (s.ctx c).plan[r.pos]? = some f → f.op = 0x08 → r.pos = pos) →
      (s.satisfied e.sync v = true → Claims.Does (.waitResume .plan) s fun t =>
          Claims.ends s t c pos e ty old ∧ (t.ctx c).flowPos = (s.ctx c).flowPos ∧ Claims.planFrame s t ∧ t.files = s.files)
      ∧ (s.satisfied e.sync v = false → Claims.Does (.waitResume .plan) s fun t => t = s))
    ∧ (Claims.flowTurn s c pos e 0x09 = true →
      Claims.Does .signalObj s fun t => goes t ∧ Claims.ends s t c pos e ty (signalVal ty old v) ∧ t.files = s.files)
    ∧ (Claims.flowTurn s c pos e 0x0A = true →
      let w := if BitVec.ofNat 2 e.target = 1#2 then barrierTake v (v.toNat / 2 ^ 32 % 2 ^ 16) else v
      Claims.Does .syncSet s fun t => goes t ∧ Claims.ends s t c pos e (BitVec.ofNat 2 e.target) w ∧ t.files = s.files)
    ∧ (let free := e.regions.all fun r => s.regionIdle c r && !s.occupied c r && s.shareOver (r / 16)
      Claims.flowTurn s c pos e 0x0B = true →
      (free = true → Claims.Does .start s fun t => goes t
        ∧ (∀ r k, r ∈ e.regions → k ∈ s.regionCores r → (t.file k c).running = true ∧ (t.file k c).pc = e.arg % 2 ^ 18
            ∧ (t.file k c).faulted = false ∧ (t.file k c).waiting = none ∧ (t.file k c).regs = (s.file k c).regs
            ∧ (t.file k c).masks = (s.file k c).masks ∧ (t.file k c).flags = (s.file k c).flags ∧ Claims.stillRuns t c pos)
        ∧ ∀ j, (∀ r k, r ∈ e.regions → k ∈ s.regionCores r → j ≠ k * 64 + c) →
            Sparse.get (fun _ => fileNone) t.files j = Sparse.get (fun _ => fileNone) s.files j)
      ∧ (free = false → Claims.Does .start s fun t => t = s))
    ∧ (Claims.flowTurn s c pos e 0x12 = true →
      Claims.Does .phase s fun t => goes t ∧ Claims.ends s t c pos e ty old ∧ t.files = s.files
        ∧ ∀ n, Sparse.get (fun _ => 0) (t.ctx c).phases n =
            if n = e.target % 16 then s.time.fabric else Sparse.get (fun _ => 0) (s.ctx c).phases n)
    ∧ (∀ env, Claims.calm s env → Claims.flowTurn s c pos e 0x11 = true →
      let a := e.arg % 2 ^ 39
      let out := leNat (s.memBytes a 8) % 4
      ((s.ctx c).outcomes.contains a = true → s.readFail a 8 = none → Claims.Does (.skipif env) s fun t => goes t
        ∧ Claims.ends s t c pos e ty old ∧ (t.ctx c).skipLeft = (if bit (bits e.arg 43 40) out then bits e.arg 55 48 else 0)
        ∧ t.files = s.files)
      ∧ ((s.ctx c).outcomes.contains a = false → Claims.Does (.skipif env) s fun t => goes t ∧ Claims.stillRuns t c pos
        ∧ t.sync = s.sync ∧ t.files = s.files))

/-- R197, R200: a stash record releases its lines, takes the place that the cellar's policy finds, its outcome word written where that can be,
or abandons the step. -/
def Obligations.StashEntry : Prop :=
  ∀ (s : State) (c pos : Nat) (e r : PlanEntry) (env : MemEnv),
    let x := (s.ctx c).settleFlow
    let layer := bits r.lo.toNat 15 0
    let micro := bits r.lo.toNat 31 16
    let full := bits r.hi.toNat 31 0
    let ckpt := bits r.hi.toNat 63 32
    let a := x.cellar.outMa + 8 * x.stashJ
    let ends := fun (t : State) => Claims.taken s t c ∧ Claims.ends s t c pos e (s.objTyp e.sync) (s.objVal e.sync) ∧ t.tasks = s.tasks
      ∧ t.files = s.files ∧ (t.ctx c).stashJ = x.stashJ + 1
    Claims.calm s env → Claims.flowTurn s c pos e 0x10 = true → x.plan[pos + 1]? = some r →
    (bit r.lo.toNat 32 = true → Claims.Does (.stash env) s fun t => ends t ∧ Claims.planFrame s t
        ∧ (t.ctx c).cellar = { x.cellar with runs := x.cellar.runs.filter fun u => decide (¬ (u.1 = layer ∧ u.2.1 = micro)) })
    ∧ (∀ out first mode, bit r.lo.toNat 32 = false → x.cellar.place full ckpt = (some (out, first), mode) →
        let y := x.cellar.take layer micro full ckpt out first mode (bit r.lo.toNat 33)
        Claims.Does (.stash env) s fun t => ends t ∧ (t.ctx c).cellar = y
          ∧ t.odg 0x2901 0x05 = s.odg 0x2901 0x05 + (if y.mismatch = x.cellar.mismatch then 0 else 1)
          ∧ (Claims.writable s a 8 → t.memBytes a 8 = leBytes 8 (out + first * 4) ∧ (t.ctx c).outcomes = a :: (s.ctx c).outcomes)
          ∧ ∀ b, (b < a ∨ a + 8 ≤ b) → t.memByte b = s.memByte b)
    ∧ (∀ mode, bit r.lo.toNat 32 = false → x.cellar.place full ckpt = (none, mode) → Claims.Does (.stash env) s fun t =>
        (t.ctx c).exhausted = true ∧ (t.ctx c).stashJ = x.stashJ + 1 ∧ ((t.ctx c).restoring = true ↔ (s.ctx c).undo ≠ [])
        ∧ (t.ctx c).cellar = { x.cellar with mode := mode, reached := true } ∧ Claims.taken s t c ∧ Claims.stillRuns t c pos
        ∧ t.odg 0x2901 0x06 = s.odg 0x2901 0x06 + 1 ∧ t.odg 0x2702 0x0A = s.odg 0x2702 0x0A + 1 ∧ Claims.planFrame s t ∧ t.sync = s.sync
        ∧ t.files = s.files)

/-- R182-R185, R191, R286, R298: an entry whose record is refused runs nothing: a milk round and a gather do not complete, a collective and an
optimiser record complete with their status. An accepted milk round has its own rows in buffer 0, its first parcel complete and counted. A COLL or OPT
that names an occupied region waits. An entry whose record cannot be read is a storage event. -/
def Obligations.RoutineEntries : Prop :=
  ∀ (s : State) (c pos : Nat) (e : PlanEntry) (env : MemEnv),
    let ma := e.arg % 2 ^ 39
    let x := s.ctx c
    let d64 := s.memBytes ma 64
    let d128 := s.memBytes ma 128
    let idle := fun (t : State) => t.tasks = s.tasks ∧ Claims.stillRuns t c pos ∧ t.sync = s.sync ∧ t.hbm.mem = s.hbm.mem ∧ Claims.taken s t c
    let status := fun (t : State) (a st : Nat) => Claims.writable s a 2 → leNat (t.memBytes a 2) = st
    Claims.calm s env →
    (∀ rows, Claims.flowTurn s c pos e 0x0C = true → s.readFail ma 64 = none → s.milkReject x d64 = 0 → s.ownRows d64 = .ok rows →
      Claims.Does (.milk env) s fun t => t.odg 0x2920 0x01 = s.odg 0x2920 0x01 + 1
        ∧ t.odg 0x2920 0x02 = s.odg 0x2920 0x02 + (if mRound d64 ≠ 0 ∧ x.base + mFirst d64 < x.slots then 1 else 0)
        ∧ (∃ m, m ∈ t.tasks.milks ∧ m.ctx = c ∧ m.pos = pos ∧ m.desc = d64 ∧ m.have_ = 1 ∧ m.started = 0)
        ∧ (if mLast d64 = 1 then ¬ Claims.stillRuns t c pos else Claims.stillRuns t c pos)
        ∧ ((mLast d64 ≠ 1 ∨ e.signal = false) → Claims.sound s (mRoundSync d64) →
            t.objVal (mRoundSync d64) = signalVal (s.objTyp (mRoundSync d64)) (s.objVal (mRoundSync d64)) 1)
        ∧ ((∀ k, k < mRowsLen d64 → s.writeStatus (mBuf d64 + k) true = 0) →
            t.memBytes (mBuf d64) (mRowsLen d64) = (rows.map fun a => s.memBytes a (mLen d64)).flatten)
        ∧ (∀ a, (a < mBuf d64 ∨ mBuf d64 + mPb d64 ≤ a) → t.memByte a = s.memByte a)
        ∧ t.tasks.gathers = s.tasks.gathers ∧ t.tasks.colls = s.tasks.colls ∧ t.files = s.files ∧ t.rt = s.rt)
    ∧ (Claims.flowTurn s c pos e 0x0C = true → s.readFail ma 64 = none → s.milkReject x d64 ≠ 0 → Claims.Does (.milk env) s idle)
    ∧ (∀ why, Claims.flowTurn s c pos e 0x0C = true → s.readFail ma 64 = none → s.milkReject x d64 = 0 → s.ownRows d64 = .error why →
      Claims.Does (.milk env) s idle)
    ∧ (Claims.flowTurn s c pos e 0x0D = true → s.readFail ma 64 = none → s.gatherReject c d64 ≠ 0 → Claims.Does (.gather env) s idle)
    ∧ (Claims.flowTurn s c pos e 0x0E = true → s.flowHeld 0x0E 32 = false → s.readFail ma 64 = none →
      s.readFail (cTable d64) (48 * (cBuckets d64 % 65537)) = none → Claims.groupReads s c (cGroup d64) → s.collReject c d64 ≠ 0 →
      Claims.Does (.coll env) s fun t =>
        ¬ Claims.stillRuns t c pos ∧ t.odg 0x2702 0x01 = s.odg 0x2702 0x01 + 1 ∧ t.tasks = s.tasks ∧ Claims.taken s t c
        ∧ status t (ma + 42) (s.collReject c d64) ∧ (∀ a, (a < ma + 42 ∨ ma + 44 ≤ a) → t.memByte a = s.memByte a))
    ∧ (Claims.flowTurn s c pos e 0x0F = true → s.flowHeld 0x0F 112 = false → s.readFail ma 128 = none → s.optReject d128 ≠ 0 →
      Claims.Does (.opt env) s fun t =>
        ¬ Claims.stillRuns t c pos ∧ t.odg 0x2702 0x06 = s.odg 0x2702 0x06 + 1 ∧ (t.ctx c).undo = x.undo ∧ t.tasks = s.tasks
        ∧ Claims.taken s t c ∧ status t (ma + 126) (s.optReject d128)
        ∧ (∀ a, (a < ma + 126 ∨ ma + 128 ≤ a) → t.memByte a = s.memByte a))
    ∧ (s.flowHeld 0x0E 32 = true → Claims.Does (.coll env) s fun t => t = s)
    ∧ (s.flowHeld 0x0F 112 = true → Claims.Does (.opt env) s fun t => t = s)
    ∧ ∀ op n i, (op, n, i) ∈ [(0x0C, 64, Instr.milk env), (0x0D, 64, .gather env), (0x0E, 64, .coll env), (0x0F, 128, .opt env)] →
      Claims.flowTurn s c pos e op = true → s.flowHeld 0x0E 32 = false → s.flowHeld 0x0F 112 = false → s.readFail ma n ≠ none →
      Claims.Does i s fun t => idle t ∧ t.odg 0x3003 0x01 = s.odg 0x3003 0x01 + 1

/-- R191, R194, R289, R298-R300: an accepted GATHER, COLL or OPT runs. A gather or collective waits for its partners, or completes; in a group of one
member whose blocks can all be read it completes at once. An optimiser record whose blocks can all be read completes, keeps an undo copy of every
block, and writes nothing else. An entry that ran as wait work only completes, unless its gather still runs. -/
def Obligations.RoutinesRun : Prop :=
  ∀ (s : State) (c pos : Nat) (e : PlanEntry) (env : MemEnv),
    let ma := e.arg % 2 ^ 39
    let d := s.memBytes ma 64
    let o := s.memBytes ma 128
    let gatherRuns := Claims.flowTurn s c pos e 0x0D = true ∧ s.readFail ma 64 = none ∧ Claims.groupReads s c (fld d 2 2) ∧ s.gatherReject c d = 0
    let collRuns := Claims.flowTurn s c pos e 0x0E = true ∧ s.flowHeld 0x0E 32 = false ∧ s.readFail ma 64 = none
      ∧ s.readFail (cTable d) (48 * (cBuckets d % 65537)) = none ∧ Claims.groupReads s c (cGroup d) ∧ s.collReject c d = 0
    Claims.calm s env →
    (gatherRuns → Claims.Does (.gather env) s fun t =>
        (∃ g, g ∈ t.tasks.gathers ∧ g.ctx = c ∧ g.pos = pos ∧ g.bytes = d ∧ Claims.stillRuns t c pos ∧ t.odg 0x2920 0x04 = s.odg 0x2920 0x04)
        ∨ (t.odg 0x2920 0x04 = s.odg 0x2920 0x04 + 1 ∧ ¬ Claims.stillRuns t c pos))
    ∧ (∀ r, gatherRuns → s.group c (fld d 2 2) = some r → r.g = 1 → gForm d < 2 →
      (∀ g, g < gBlocks d → s.readFail (bits (fld d 16 8) 38 0 + g * 2048) 2048 = none) →
      Claims.Does (.gather env) s fun t => t.odg 0x2920 0x04 = s.odg 0x2920 0x04 + 1 ∧ ¬ Claims.stillRuns t c pos ∧ Claims.taken s t c
        ∧ ∀ u, u ∈ t.tasks.gathers → ¬ (u.ctx = c ∧ u.pos = pos))
    ∧ (collRuns → Claims.Does (.coll env) s fun t =>
        (∃ u, u ∈ t.tasks.colls ∧ u.ctx = c ∧ u.pos = pos ∧ u.bytes = d ∧ Claims.stillRuns t c pos ∧ t.odg 0x2702 0x01 = s.odg 0x2702 0x01)
        ∨ (t.odg 0x2702 0x01 = s.odg 0x2702 0x01 + 1 ∧ ¬ Claims.stillRuns t c pos))
    ∧ (∀ r, collRuns → s.group c (cGroup d) = some r → r.g = 1 →
      (∀ b g, b ∈ s.bucketTable d → g ∈ bList b → s.readFail (bSrc b + 2048 * g) 2048 = none) →
      Claims.Does (.coll env) s fun t => t.odg 0x2702 0x01 = s.odg 0x2702 0x01 + 1 ∧ ¬ Claims.stillRuns t c pos ∧ Claims.taken s t c
        ∧ ∀ u, u ∈ t.tasks.colls → ¬ (u.ctx = c ∧ u.pos = pos))
    ∧ (Claims.flowTurn s c pos e 0x0F = true → s.flowHeld 0x0F 112 = false → s.readFail ma 128 = none → s.optReject o = 0 →
      (oScaleMa o = 0 ∨ s.readFail (oScaleMa o) 4 = none) → (∀ k, k < oBlocks o → s.optReadFail o k = none) →
      Claims.Does (.opt env) s fun t =>
        ¬ Claims.stillRuns t c pos ∧ t.odg 0x2702 0x06 = s.odg 0x2702 0x06 + 1 ∧ Claims.taken s t c ∧ t.tasks = s.tasks
        ∧ (t.ctx c).undo = (s.ctx c).undo ++ [o ++ List.replicate (oBlocks o) 1]
        ∧ ∀ a, (∀ k q, k < oBlocks o → q ∈ oPlaces o k → a < q.1 ∨ q.1 + q.2 ≤ a) →
            (a < oUndo o ∨ oUndo o + oU o * oBlocks o ≤ a) → (a < ma + 126 ∨ ma + 128 ≤ a) → t.memByte a = s.memByte a)
    ∧ (∀ op i, (op, i) ∈ [(0x0D, Instr.gather env), (0x0F, .opt env)] → s.runningCtx = some c → s.flowNext c = some (pos, e) → e.op = op →
      (s.ctx c).early.contains pos = true → (∀ g, g ∈ s.tasks.gathers → ¬ (g.ctx = c ∧ g.pos = pos)) →
      Claims.Does i s fun t => ¬ Claims.stillRuns t c pos ∧ Claims.taken s t c ∧ Claims.planFrame s t ∧ t.files = s.files)

/-- R47, R156, R157, R176, R177: the next announced call of an attention queue runs when its turn has come: it is counted and its number passes;
pails stay, and of the churns only the idle clock of its own. A forward call writes no module memory, a backward call none outside its dK and dV; a
rejected call has a record with its status, in its place in the ring where there is room. A call that waits for light is not taken, nor is
one whose turn has not come or whose pass is the other. -/
def Obligations.AttentionCalls : Prop :=
  ∀ (s : State) (region : BitVec 6) (c : Nat) (env : MemEnv),
    let n := region.toNat
    let k := n * 64 + c
    let d := Claims.attnDesc s n c
    let qr := (s.ctx c).attnRec n
    let ran := fun (t : State) => (t.aq k).next = (s.aq k).next + 1 ∧ t.odg 0x2910 0x01 = s.odg 0x2910 0x01 + 1 ∧ t.pails = s.pails
      ∧ (∀ j, j ≠ n → t.churn j = s.churn j) ∧ t.churn n = { s.churn n with idleAt := (t.churn n).idleAt } ∧ t.host = s.host
      ∧ t.pending = s.pending
    let calls := [Instr.attnForward region env, Instr.attnBackward region env]
    s.runningCtx = some c → Claims.calm s env →
    (Claims.attnTurn s n c = true → s.aReject n d = 0 → s.attnWait n d = none →
      (aPass d = 0 → Claims.Does (.attnForward region env) s fun t => ran t ∧ t.hbm.mem = s.hbm.mem)
      ∧ (aPass d = 1 → Claims.Does (.attnBackward region env) s fun t =>
          ran t ∧ ∀ a, (a < aDkv d ∨ aDkv d + 8 * aKeys d * aDim d ≤ a) → t.memByte a = s.memByte a)
      ∧ (aPass d = 0 → Claims.Does (.attnBackward region env) s fun t => t = s)
      ∧ (aPass d = 1 → Claims.Does (.attnForward region env) s fun t => t = s))
    ∧ (∀ u, Claims.attnTurn s n c = true → s.aReject n d = 0 → s.attnWait n d = some u →
      (aPass d = 0 → Claims.Does (.attnForward region env) s fun t => t = u)
      ∧ (aPass d = 1 → Claims.Does (.attnBackward region env) s fun t => t = u)
      ∧ ((s.churn n).st = .dark → u = s.setChurn n { s.churn n with st := .waking }))
    ∧ (Claims.attnTurn s n c = true → s.aReject n d ≠ 0 → ∀ i, i ∈ calls →
      Claims.Does i s fun t => ran t ∧ t.hbm = s.hbm ∧ t.churns = s.churns
        ∧ (s.attnFree qr (s.aq k).next = false → ∃ j r, (t.aq k).items = [j] ∧ j.record = some r ∧ fld r 2 2 = s.aReject n d)
        ∧ (s.attnFree qr (s.aq k).next = true → (t.aq k).items = [] ∧ (t.aq k).written = (s.aq k).next + 1
            ∧ ∀ m o, s.locOf 1 (fld qr 16 8 + 32 * ((s.aq k).next % 2 ^ fld qr 25 1)) 0 = .core m o →
                fld (t.storeBytes m o 32) 2 2 = s.aReject n d))
    ∧ (Claims.attnTurn s n c = false → (s.aq k).items = [] → ∀ i, i ∈ calls → Claims.Does i s fun t => t = s)

/-- R185, R186, R192, R194, R266: milk rounds start, parcels go on, gathered tiles are converted, wait work runs; where nothing may start or go on, and
nothing waits for a buffer or a signal, the state stays. A round with nothing left to do is forgotten. -/
def Obligations.RoutineProgress : Prop :=
  ∀ (s : State) (k : Nat) (env : MemEnv), Claims.calm s env →
    (∀ t, s.milksNow[k]? = some t →
      let d := t.desc
      let x := s.ctx t.ctx
      let r := t.have_
      let starts := t.started < mN d ∧ t.started < t.have_ ∧ x.base + mFirst d + t.started * mRound d ≤ x.slots
      let own := t.started = 0 ∧ mMulti d = true ∧ 1 < mN d
      let rowsGo := fun (free : BitVec 64) => mMulti d = false ∧ t.fwdRows < t.started ∧ t.fwdRows + 1 < mN d ∧ t.fwdRows ≤ free.toNat
      let sectGo := mBack d = true ∧ 1 < mN d ∧ t.fwdSect < t.started ∧ t.fwdSect < mN d
        ∧ s.satisfied (mFreeSync d) (BitVec.ofNat 64 (t.fwdSect + 1)) = true
      let quiet := t.rowsWait = [] ∧ t.sectWait = []
        ∧ (mLast d ≤ r ∨ (t.rows.contains r = false ∧ r ≠ mN d) ∨ (mBack d = true ∧ t.sects ≤ r))
      let kept := fun (u : State) (v : MilkTask) => u.tasks.milks = (if milkOver v then
          s.tasks.milks.filter fun w => decide (¬ (w.ctx = t.ctx ∧ w.pos = t.pos))
        else s.tasks.milks.map fun w => if w.ctx = t.ctx ∧ w.pos = t.pos then v else w)
      let sent := fun (u : State) (n : Nat) => u.odg 0x2920 0x03 = s.odg 0x2920 0x03 + n ∧ ∃ js, u.rt.inject = s.rt.inject ++ js
        ∧ (n ≠ 0 → js ≠ []) ∧ ∀ j, j ∈ js → j.owner = some (t.ctx, t.pos)
      let still := fun (u : State) => u.hbm.mem = s.hbm.mem ∧ u.ctxs = s.ctxs ∧ u.sync = s.sync ∧ u.files = s.files ∧ u.store = s.store
      (starts → Claims.Does (.milkRoundStart k env) s fun u =>
          (∃ v, v.started = t.started + 1 ∧ v.desc = d ∧ v.ctx = t.ctx ∧ v.pos = t.pos ∧ kept u v)
          ∧ (quiet → (¬ own ∨ s.readFail (mBuf d) (mRowsLen d) = none) → still u ∧ kept u { t with started := t.started + 1 })
          ∧ (own → s.readFail (mBuf d) (mRowsLen d) = none → sent u (mRowsLen d))
          ∧ (¬ own → u.rt = s.rt ∧ u.odg 0x2920 0x03 = s.odg 0x2920 0x03))
      ∧ (¬ starts → Claims.Does (.milkRoundStart k env) s fun u => u = s)
      ∧ ∀ free : BitVec 64,
        (rowsGo free → s.readFail (mBufAt d (t.fwdRows % mBufs d)) (mRowsLen d) = none → Claims.Does (.parcelForward k free env) s fun u =>
          (∃ v, v.fwdRows = t.fwdRows + 1 ∧ v.desc = d ∧ v.ctx = t.ctx ∧ v.pos = t.pos ∧ kept u v) ∧ sent u (mRowsLen d)
          ∧ (quiet → still u ∧ kept u { t with fwdRows := t.fwdRows + 1 }))
        ∧ (¬ rowsGo free → sectGo → s.readFail (mBufAt d (t.fwdSect % mBufs d) + mRowsLen d) (mSectLen d) = none →
          Claims.Does (.parcelForward k free env) s fun u =>
          (∃ v, v.fwdSect = t.fwdSect + 1 ∧ v.desc = d ∧ v.ctx = t.ctx ∧ v.pos = t.pos ∧ kept u v) ∧ sent u (mSectLen d)
          ∧ (quiet → still u ∧ kept u { t with fwdSect := t.fwdSect + 1 }))
        ∧ (¬ rowsGo free → ¬ sectGo → quiet → Claims.Does (.parcelForward k free env) s fun u => still u ∧ kept u t ∧ u.rt = s.rt ∧ u.od = s.od))
    ∧ (s.milksNow[k]? = none → Claims.Does (.milkRoundStart k env) s (fun u => u = s)
        ∧ ∀ free, Claims.Does (.parcelForward k free env) s fun u => u = s)
    ∧ (∀ t tile, s.gathersNow[k]? = some t →
      let ready := gForm t.bytes = 2 ∧ gFirst t.bytes ≤ tile ∧ tile < gFirst t.bytes + gCount t.bytes ∧ t.tiles.contains tile = false
        ∧ ∀ n, n < 16 → (Sparse.find t.segs (tileBlock t.bytes tile (n / 4) (n % 4))).isSome = true
      (ready → Claims.Does (.gatherTileConvert k tile) s fun u =>
        if gCount t.bytes ≤ t.tiles.length + 1 then
          u.odg 0x2920 0x04 = s.odg 0x2920 0x04 + 1 ∧ (∀ g, g ∈ u.tasks.gathers → ¬ (g.ctx = t.ctx ∧ g.pos = t.pos))
          ∧ ¬ Claims.stillRuns u t.ctx t.pos
        else u.odg 0x2920 0x04 = s.odg 0x2920 0x04 ∧ ∃ v, u.gathersNow[k]? = some v ∧ v.tiles = tile :: t.tiles ∧ v.segs = t.segs)
      ∧ (¬ ready → Claims.Does (.gatherTileConvert k tile) s fun u => u = s))
    ∧ (∀ c, s.runningCtx = some c →
      (∀ pos e, s.waitWork c = some (pos, e) → Claims.Does (.waitWorkStart env) s fun u =>
        u.odg 0x2920 0x05 = s.odg 0x2920 0x05 + 1 ∧ (u.ctx c).early = pos :: (s.ctx c).early ∧ (u.ctx c).flowPos = (s.ctx c).flowPos)
      ∧ (s.waitWork c = none → Claims.Does (.waitWorkStart env) s fun u => u = s))

/-- R289, R290, R292, R293, R295, R296: what a reduction hop does with a partner's segment, bitmaps and totals. A segment whose exponents fit is
combined block by block, and a block that stays is held at the next stage; one that does not fit is an error that ends the collective. -/
def Obligations.ReductionHops : Prop :=
  (∀ (A B : Bs8) (eOut : Int) (us : List Nat), (A.invalid = true ∨ B.invalid = true) →
    (hopBlock A B eOut us).1.invalid = true ∧ (hopBlock A B eOut us).1.q = List.replicate 32 0)
  ∧ ∀ (s : State) (k : Nat) (env : MemEnv), Claims.calm s env →
    (s.collsNow[k]? = none → ∀ i, Claims.Does (.reductionHop k i env) s fun u => u.tasks = s.tasks ∧ u.od = s.od ∧ u.hbm = s.hbm)
    ∧ ∀ t, s.collsNow[k]? = some t →
    let ended := fun (u : State) => u.odg 0x2702 0x01 = s.odg 0x2702 0x01 + 1 ∧ (∀ v, v ∈ u.tasks.colls → ¬ (v.ctx = t.ctx ∧ v.pos = t.pos))
      ∧ ¬ Claims.stillRuns u t.ctx t.pos
    let goesOn := fun (u : State) => u.odg 0x2702 0x01 = s.odg 0x2702 0x01 ∧ ∃ v, u.collsNow[k]? = some v ∧ v.ctx = t.ctx ∧ v.pos = t.pos
    (∀ i g seg b h, t.buckets[i]? = some b → Sparse.find b.blocks g = some h → t.phase = 0 → t.active.contains i = true →
      seg.length = 1088 → h.seg.isEmpty = false →
      let ring := decide (Nat.log2 t.p ≤ h.stage)
      let hop := if ring then Nat.log2 t.p + t.ringHop g - 1 else h.stage
      let fits := (List.range 32).all (blockOk seg (expAt t.bytes b.entry t.p hop t.attempt))
      let eOut := expAt t.bytes b.entry t.p (hop + 1) t.attempt
      let made := segBytes ((List.range 32).map fun n => (hopBlock (segBlock h.seg n) (segBlock seg n) eOut
        (collDraws (s.ctx t.ctx) (bTid b.entry) t.attempt (hop + 1) g n)).1)
      Claims.Does (.reductionHop k (.segment i g seg) env) s fun u =>
        if fits then
          u.odg 0x2702 0x05 = s.odg 0x2702 0x05 ∧ (goesOn u ∨ ended u)
          ∧ (t.nextOf g (hop + 1) ring = .stay → goesOn u ∧ ∃ v b', u.collsNow[k]? = some v ∧ v.buckets[i]? = some b'
              ∧ Sparse.find b'.blocks g = some { seg := made, stage := hop + 1 } ∧ u.hbm.mem = s.hbm.mem ∧ u.rt = s.rt)
        else u.odg 0x2702 0x05 = s.odg 0x2702 0x05 + 1 ∧ u.odg 0x2702 0x09 = s.odg 0x2702 0x09 + 1 ∧ ended u)
    ∧ (∀ sats bads, t.phase = 1 →
      (t.level + 1 < Nat.log2 t.p + (t.g / t.p - 1) → Claims.Does (.reductionHop k (.agreement sats bads) env) s fun u =>
        ∃ v, u.collsNow[k]? = some v ∧ v.level = t.level + 1 ∧ v.phase = 1
          ∧ ∀ i b, t.buckets[i]? = some b → t.active.contains i = true → ∃ b', v.buckets[i]? = some b'
            ∧ b'.sat = (b.sat || sats.contains i) ∧ b'.bad = (b.bad || bads.contains i))
      ∧ (Nat.log2 t.p + (t.g / t.p - 1) ≤ t.level + 1 → Claims.Does (.reductionHop k (.agreement sats bads) env) s fun u =>
          goesOn u ∨ ended u))
    ∧ (∀ l o : BitVec 64, t.phase = 2 → t.level < Nat.log2 t.p →
      let sum := (f64.addV (f64.decode t.pair.1) (f64.decode l.toNat), f64.addV (f64.decode t.pair.2) (f64.decode o.toNat))
      (¬ (Nat.log2 t.p ≤ t.level + 1 ∧ t.g / t.p ≤ 1) → Claims.Does (.reductionHop k (.trayPair l o) env) s fun u =>
        ∃ v, u.collsNow[k]? = some v ∧ v.level = t.level + 1 ∧ v.pair = sum)
      ∧ (Nat.log2 t.p ≤ t.level + 1 → t.g / t.p ≤ 1 → Claims.Does (.reductionHop k (.trayPair l o) env) s ended))
    ∧ (∀ ps : List (BitVec 64 × BitVec 64), t.phase = 2 → Nat.log2 t.p ≤ t.level → 1 < t.g / t.p → ps.length = t.g / t.p →
      Claims.Does (.reductionHop k (.trayTotals ps) env) s ended)

/-- Table 10-3, R189, R192, R207, R218, R220, R235, R238, R275, R278: the timed entries LANE_PLAN, EPOCH and DEADLINE of a running step, each with its own
SIGNAL. While fabric time is LOST the two changes are not made; that the entry is passed over then is the model's choice (log entry 43). -/
def Obligations.TimedEntries : Prop :=
  ∀ (s : State) (c i pos : Nat) (e : PlanEntry),
    let x := s.ctx c
    let passed := fun (t : State) => (t.ctx c).timedPos = i + 1 ∧ (t.ctx c).step = x.step ∧ t.hbm = s.hbm ∧ t.files = s.files
      ∧ t.tasks = s.tasks ∧ t.pending = s.pending
    let ends := fun (t : State) => Claims.ends s t c pos e (s.objTyp e.sync) (s.objVal e.sync)
    let lost := fun (t : State) => t.planNow = s.planNow ∧ t.opt = s.opt ∧ t.rt = s.rt ∧ t.odg 0x2600 0x04 = s.odg 0x2600 0x04 ∧ t.sync = s.sync
    let k := e.arg % 64
    (Claims.timedTurn s c i pos e 1 = true → Claims.Does .lanePlan s fun t => passed t
      ∧ (s.time.state = .lost → lost t)
      ∧ (s.time.state ≠ .lost → ends t ∧ t.planNow = k ∧ t.odg 0x2600 0x04 = s.odg 0x2600 0x04
        ∧ (k = s.planNow → t.opt = s.opt ∧ t.rt = s.rt)
        ∧ (k ≠ s.planNow → t.opt.oldPlan = s.planNow ∧ t.opt.changeAt = some s.slot
          ∧ ∀ p, p < 48 → t.portState p = (if s.portState p = 2 then 2 else if s.planTx k p = 0 ∧ s.planRx k p = 0 then 0
              else if s.memberPort c p && !s.agreed k p then 3 else 1)
            ∧ t.odg (portIdx p 0) 0x02 = s.planTx k p ∧ t.odg (portIdx p 0) 0x03 = s.planRx k p)))
    ∧ (Claims.timedTurn s c i pos e 2 = true → Claims.Does .epoch s fun t => passed t
      ∧ (s.time.state = .lost → lost t)
      ∧ (s.time.state ≠ .lost → ends t ∧ t.odg 0x2600 0x04 = e.arg % 2 ∧ t.planNow = s.planNow ∧ t.opt = s.opt
        ∧ ∀ p, p < 48 → s.memberPort c p = true → (s.link p).up = true → ∃ a, (t.link p).audit = some a ∧ a.slot = s.time.slotDone))
    ∧ (Claims.timedTurn s c i pos e 3 = true → Claims.Does .deadline s fun t => passed t ∧ ends t ∧ t.rt = s.rt ∧ t.opt = s.opt
      ∧ t.odg 0x2702 0x09 = s.odg 0x2702 0x09 + s.missing c ∧ (t.ctx c).deadlineT = 512 * s.time.slotDone
      ∧ (s.missing c = 0 → (t.ctx c).vote = some (s.voteNow c))
      ∧ (s.missing c ≠ 0 → x.vote = none → (t.ctx c).vote = some { s.voteNow c with done := false })
      ∧ (t.ctx c).combined = (t.ctx c).vote.map (fun v => (s.jobPorts c).foldl (s.heardVote x) v)
      ∧ (t.ctx c).stopWhy = (if x.exhausted then St.CELLAR_EXHAUSTED else if x.refused then St.STEP_PLAN_CAPACITY else St.JOB_STOPPED_PEER)
      ∧ (s.pausing = false → ∀ p, p < 48 → s.memberPort c p = true → s.portTerm p = true →
          Out.beacon p (BitVec.ofNat 64 (t.beaconWord (t.ctx c))) ∈ t.out))

/-- R221-R223, R302-R304: the verdict of a step whose votes are combined: commit, repeat or stop, its report in its place, and what a repeat or a stop
abandons. -/
def Obligations.Verdicts : Prop :=
  ∀ (s : State) (c : Nat) (v : Vote) (d : Nat × Nat × PlanEntry) (env : MemEnv),
    let x := s.ctx c
    let reported := fun (t : State) (r : Verdict) => (t.ctx c).verdict = some r ∧ (t.ctx c).verdicts = x.verdicts + 1
      ∧ (t.ctx c).calm = (if v.stretch then 0 else x.calm + 1)
      ∧ (Claims.writable s (x.reportAt x.verdicts) 256 →
          t.memBytes (x.reportAt x.verdicts) 256 = stepReport x r (512 * s.time.slotDone))
      ∧ (∀ a, (a < x.reportAt x.verdicts ∨ x.reportAt x.verdicts + 256 ≤ a) → t.memByte a = s.memByte a)
    let abandoned := fun (t : State) => (t.ctx c).runs = [] ∧ (c < 64 → ∀ k, (t.file k c).running = false)
      ∧ (∀ m, m ∈ t.tasks.colls → m.ctx ≠ c) ∧ (∀ m, m ∈ t.tasks.milks → m.ctx ≠ c) ∧ (∀ m, m ∈ t.tasks.gathers → m.ctx ≠ c)
      ∧ (∀ j o, j ∈ t.rt.inject → j.owner = some o → o.1 ≠ c) ∧ (∀ ch, ch < 64 → (t.churn ch).work.queue = [])
      ∧ t.odg 0x2702 0x0A = s.odg 0x2702 0x0A + (if x.exhausted then 0 else 1)
    s.runningCtx = some c → x.combined = some v → x.only 3 = some d → x.verdict = none → Claims.calm s env →
    (x.slots < x.base + d.2.2.slot + x.diameter + 1 → Claims.Does (.verdict env) s fun t => t = s)
    ∧ (x.base + d.2.2.slot + x.diameter + 1 ≤ x.slots →
      (v.stop = false → v.done = true → Claims.Does (.verdict env) s fun t => reported t .commit
        ∧ t.odg 0x2803 0x01 = s.odg 0x2803 0x01 + 1 ∧ (t.ctx c).undo = [] ∧ (t.ctx c).st = .running ∧ t.odg 0x2901 0x01 = x.cellar.peak
        ∧ t.odg 0x2901 0x02 = x.cellar.reduced.getD 0xFFFF ∧ t.odg 0x2901 0x03 = x.cellar.peakSpill ∧ t.tasks = s.tasks
        ∧ t.files = s.files ∧ t.sync = s.sync ∧ t.churns = s.churns ∧ t.dmaq = s.dmaq)
      ∧ (v.stop = false → v.done = false → x.repeats < x.maxRepeat → Claims.Does (.verdict env) s fun t => reported t .repeated
        ∧ t.odg 0x2803 0x02 = s.odg 0x2803 0x02 + 1 ∧ abandoned t ∧ ((t.ctx c).restoring = true ↔ x.undo ≠ []) ∧ (t.ctx c).st = .running)
      ∧ ((v.stop = true ∨ (v.done = false ∧ x.maxRepeat ≤ x.repeats)) → Claims.Does (.verdict env) s fun t => reported t .stop
        ∧ t.odg 0x2803 0x03 = s.odg 0x2803 0x03 + 1 ∧ abandoned t
        ∧ (t.ctx c).stopWhy = (if v.stop then x.stopWhy else St.STEP_REPEAT_LIMIT)
        ∧ (if x.undo = [] then (t.ctx c).st = .stopped ∧ (s.ringOn = true → t.host.rspNext = s.host.rspNext + 1)
          else (t.ctx c).restoring = true ∧ (t.ctx c).st = .running)))

/-- R208, R217, R221, R222, R304, R312: STEP_END by the step's verdict, the SWITCH entry behind it, and the restoration of undo blocks: every block whose
undo copy was made has its parameters, whey and moments back, where copies and places are sound and apart. -/
def Obligations.StepEnds : Prop :=
  ∀ (s : State) (c : Nat) (env : MemEnv),
    let x := s.ctx c
    let leaves := match x.only 5 with
      | some w => decide (s.time.state ≠ .lost) && s.resident (w.2.2.arg % 64)
      | none => false
    let rolls := fun (y : Ctx) => if x.verdict = some .commit then y.step = (x.step + 1) % 2 ^ 48 ∧ y.repeats = 0
      else y.step = x.step ∧ y.repeats = x.repeats + 1
    s.runningCtx = some c → Claims.calm s env →
    (∀ i pos e, Claims.timedTurn s c i pos e 4 = true → (x.verdict = some .commit ∨ x.verdict = some .repeated) →
      (leaves = false → (x.stopTag = none ∨ x.verdict = some .repeated) → Claims.Does (.stepEnd env) s fun t =>
        let y := t.ctx c
        rolls y ∧ y.stepOn = true ∧ y.base = x.base + e.slot ∧ y.vote = none ∧ y.combined = none ∧ y.verdict = none ∧ y.timedPos = 0
        ∧ y.flowPos = 0 ∧ y.runs = [] ∧ y.early = [] ∧ y.outcomes = [] ∧ y.st = .running ∧ y.version = x.nextVersion
        ∧ y.startT = 512 * s.time.slotDone)
      ∧ (∀ tag, x.verdict = some .commit → x.stopTag = some tag → Claims.Does (.stepEnd env) s fun t =>
        (t.ctx c).st = .stopped ∧ (t.ctx c).stepOn = false ∧ rolls (t.ctx c) ∧ (s.ringOn = true → t.host.rspNext = s.host.rspNext + 1))
      ∧ (leaves = true → (x.stopTag = none ∨ x.verdict = some .repeated) → Claims.Does (.stepEnd env) s fun t =>
        (t.ctx c).stepOn = false ∧ (t.ctx c).timedPos = i + 1 ∧ (t.ctx c).step = x.step ∧ (t.ctx c).st = .running))
    ∧ ((x.verdict = none ∨ x.verdict = some .stop) → Claims.Does (.stepEnd env) s fun t => t = s)
    ∧ (∀ i pos e, x.timedNext = some (i, pos, e) → e.op = 5 → x.stepOn = false → (x.verdict = some .commit ∨ x.verdict = some .repeated) →
      Claims.Does .switch s fun t => t.switchTo = some (e.arg % 64, s.time.slotDone) ∧ rolls (t.ctx c) ∧ (t.ctx c).base = x.base + e.slot
        ∧ Claims.ends s t c pos e (s.objTyp e.sync) (s.objVal e.sync) ∧ (t.ctx c).st = .running)
    ∧ (x.stepOn = true → Claims.Does .switch s fun t => t = s)
    ∧ (x.restoring = true → Claims.Does (.undoRestore env) s fun t => (t.ctx c).restoring = false ∧ (t.ctx c).undo = []
        ∧ (if x.verdict = some .stop then (t.ctx c).st = .stopped ∧ (s.ringOn = true → t.host.rspNext = s.host.rspNext + 1)
          else (t.ctx c).st = .running ∧ (t.ctx c).verdict = x.verdict)
        ∧ ∀ d, x.undo = [d] →
          let ks := listBelow (fun k => decide (d.getD (128 + k) 0 = 1)) (oBlocks d)
          let places := (ks.map (oPlaces d)).flatten
          ((oUndo d, oU d * oBlocks d) :: places).Pairwise (fun p q => p.1 + p.2 ≤ q.1 ∨ q.1 + q.2 ≤ p.1) →
          (∀ k, k ∈ ks → s.readFail (oUndo d + oU d * k) (oU d) = none) → (∀ q, q ∈ places → Claims.writable s q.1 q.2) →
          (∀ k, k ∈ ks → ((oPlaces d k).map fun q => t.memBytes q.1 q.2).flatten = s.memBytes (oUndo d + oU d * k) (oU d))
          ∧ ∀ a, (∀ q, q ∈ places → a < q.1 ∨ q.1 + q.2 ≤ a) → t.memByte a = s.memByte a)
    ∧ (x.restoring = false → Claims.Does (.undoRestore env) s fun t => t = s)

/-- R205, R208, R218-R220, R224, R231, R236, R276, R362: a slot boundary, and a beacon that arrives. Before the first lock of fabric time no
boundary comes. At one, fabric time has reached it, missing beacons count against a latched vote, requested selections whose slot has come and the
trigger mode take effect, control blocks leave, the running context's slots advance and its beacons leave, or the incoming context of a switch begins. -/
def Obligations.SlotBoundaries : Prop :=
  ∀ (s : State),
    (∀ env, s.time.everLock = false → Claims.Does (.slotBoundary env) s fun t => t = s)
    ∧ (∀ env, s.time.everLock = true → Claims.calm s env →
      let n := s.time.slotDone + 1
      Claims.Does (.slotBoundary env) s fun t =>
        t.time.slotDone = n ∧ t.time.fabric = Nat.max s.time.fabric (512 * n) ∧ t.time.heard = []
        ∧ (∀ p, Sparse.find t.time.words p = if s.time.heard.contains p then Sparse.find s.time.words p else none)
        ∧ t.odg 0x2803 0x06 = s.odg 0x2803 0x06 + b2n s.throttled ∧ t.clk.mode = s.odg 0x2101 0x01
        ∧ (∀ e m, s.rt.epochReq = some (e, m) → m ≤ n → t.odg 0x2600 0x04 = e ∧ t.rt.epochReq = none)
        ∧ (∀ k m, s.opt.planReq = some (k, m) → m ≤ n → t.planNow = k ∧ t.opt.planReq = none)
        ∧ (s.opt.planReq = none → ∀ p lane, p < 48 → s.controlLane p = some lane → ∃ ms no f, Out.control p lane n (512 * n) ms no f ∈ t.out)
        ∧ (∀ c, s.runningCtx = some c →
            let x := s.ctx c
            let gone := (s.jobPorts c).filter fun p => !s.time.heard.contains p
            let y := { x with slots := x.slots + 1 }
            (t.ctx c).slots = x.slots + 1 ∧ t.odg 0x2804 0x02 = s.odg 0x2804 0x02 + gone.length
            ∧ (t.ctx c).combined = (if gone = [] ∨ x.verdict ≠ none then x.combined else x.combined.map fun v => v.meet false false false false)
            ∧ (s.opt.planReq = none → s.rt.epochReq = none → y.stands 3 = false → y.stands 4 = false →
                (∀ w, s.switchTo = some w → n < w.2) → ∀ p, p < 48 → s.memberPort c p = true → s.portTerm p = true →
                Out.beacon p (BitVec.ofNat 64 (t.beaconWord (t.ctx c))) ∈ t.out))
        ∧ (∀ c, s.runningCtx = none → s.current = some c → s.switchBusy ≠ 0 → s.switchBusy ≤ n →
            (s.ctx c).st ∈ [CtxState.paused, .loaded, .started] →
            (t.ctx c).st = .running ∧ (t.ctx c).stepOn = true ∧ t.switchBusy = 0
            ∧ (t.ctx c).slots = (s.ctx c).slots + (if (s.ctx c).st = .paused ∧ (s.ctx c).stepOn = true then 1 else 0)))
    ∧ (∀ (port : BitVec 6) (word : BitVec 64), port.toNat < 48 →
      let w := word.toNat
      Claims.Does (.beaconReceive port word) s fun t => t.time.heard.contains port.toNat = true ∧ t.od = s.od ∧ t.hbm = s.hbm ∧ t.sync = s.sync
        ∧ (∀ p, Sparse.find t.time.words p = if p = port.toNat then some (w + 1) else Sparse.find s.time.words p)
        ∧ (s.runningCtx = none → t.ctxs = s.ctxs)
        ∧ ∀ c, s.runningCtx = some c →
          (((s.ctx c).combined = none ∨ s.memberPort c port.toNat = false ∨ (s.ctx c).verdict ≠ none) → t.ctxs = s.ctxs)
          ∧ ∀ v, (s.ctx c).combined = some v → s.memberPort c port.toNat = true → (s.ctx c).verdict = none →
          let good := decide (bits w 15 0 = (s.ctx c).job ∧ bits w 31 16 = (s.ctx c).step % 65536) && bit w 34
          (t.ctx c).combined = some ⟨v.done && good && bit w 35, v.stretch || !good || bit w 36, v.stop || (good && bit w 37)⟩)

/-- R55, R93, R211, R217, R312: switches of contexts, the first run of a context, and writes of synchronisation objects from outside. A switch waits for
the timed entries due at its boundary; requests and writes that are refused answer their status and change nothing else. -/
def Obligations.ContextSwitches : Prop :=
  ∀ (s : State),
    (∀ env, Claims.calm s env → ∀ inc n, s.switchTo = some (inc, n) → s.time.everLock = true → n ≤ s.time.slotDone →
      (s.timedWaits = true → Claims.Does (.contextSwitch env) s fun t => t = s)
      ∧ (s.timedWaits = false → s.resident inc = false → Claims.Does (.contextSwitch env) s fun t => t = { s with switchTo := none })
      ∧ (s.timedWaits = false → s.resident inc = true →
        Claims.Does (.contextSwitch env) s fun t => t.current = some inc ∧ t.switchTo = none ∧ t.switchBusy = n + 4
          ∧ t.odg 0x2803 0x05 = s.odg 0x2803 0x05 + 1 ∧ t.tasks = s.tasks ∧ t.pails = s.pails
          ∧ ∀ c, s.runningCtx = some c → (t.ctx c).st = .paused ∧ (t.ctx c).step = (s.ctx c).step
              ∧ (c < 64 → ∀ k, (t.file k c).waiting = none ∧ (t.file k c).running = (s.file k c).running ∧ (t.file k c).pc = (s.file k c).pc
                ∧ (t.file k c).regs = (s.file k c).regs)))
    ∧ (∀ env, (s.switchTo = none ∨ s.time.everLock = false ∨ ∃ w, s.switchTo = some w ∧ s.time.slotDone < w.2) →
      Claims.Does (.contextSwitch env) s fun t => t = s)
    ∧ (∀ v : BitVec 64,
      let refused := v.toNat / 256 < s.slot + 2 ∨ s.resident (v.toNat % 64) = false
      (bits v.toNat 7 6 = 0 → ¬ refused → Claims.Does (.switchRequest v) s fun t =>
          t = { s with switchTo := some (v.toNat % 64, v.toNat / 256), out := .odStatus St.OD_OK :: s.out })
      ∧ (bits v.toNat 7 6 ≠ 0 → Claims.Does (.switchRequest v) s fun t => t = s.answered St.OD_RESERVED_NONZERO)
      ∧ (bits v.toNat 7 6 = 0 → refused → Claims.Does (.switchRequest v) s fun t => t = s.answered St.SWITCH_REFUSED))
    ∧ (∀ env, Claims.calm s env → ∀ c, (Sparse.keys s.ctxs).find? (fun c => decide ((s.ctx c).st = .started)) = some c →
      let ready := s.time.everLock = true ∧ (s.ctx c).startSlot ≤ s.time.slotDone ∧ s.ctl.mstate = .run ∧ s.switchBusy = 0
      (ready → Claims.Does (.contextFirstRun env) s fun t => t.current = some c ∧ (t.ctx c).st = .running ∧ (t.ctx c).stepOn = true
        ∧ (t.ctx c).base = (s.ctx c).slots ∧ (t.ctx c).step = (s.ctx c).step ∧ (t.ctx c).startT = 512 * s.time.slotDone)
      ∧ (¬ ready → Claims.Does (.contextFirstRun env) s fun t => t = s))
    ∧ (∀ env, (Sparse.keys s.ctxs).find? (fun c => decide ((s.ctx c).st = .started)) = none →
      Claims.Does (.contextFirstRun env) s fun t => t = s)
    ∧ (∀ (obj : BitVec 16) (typ : BitVec 2) (v : BitVec 64),
      let o := obj.toNat
      let bad := typ = 3 ∨ (typ = 1 ∧ v.toNat / 2 ^ 48 = 0)
      (¬ bad → Claims.Does (.syncObjectWrite obj typ v) s fun t => t.out = .odStatus St.OD_OK :: s.out
        ∧ (Claims.sound s o → t.objTyp o = typ ∧ t.objVal o = (if typ = 1 then barrierTake v (v.toNat / 2 ^ 32 % 2 ^ 16) else v))
        ∧ (¬ Claims.sound s o → t.sync = s.sync)
        ∧ (∀ j, j ≠ o → t.objVal j = s.objVal j ∧ t.objTyp j = s.objTyp j) ∧ t.hbm = s.hbm ∧ t.files = s.files)
      ∧ (bad → Claims.Does (.syncObjectWrite obj typ v) s fun t => t = s.answered St.OD_VALUE_RANGE))

/-- R205, R207, R230, R260-R262, Table 11-12: fabric time from control blocks, the loss of its parent and the end of HOLDOVER; what a good and a bad block do
to a link, and the frames counted; a block on a port without working lanes does nothing. -/
def Obligations.FabricTime : Prop :=
  ∀ (s : State),
    (∀ (port : BitVec 6) (b : CtlBlock), port.toNat < 48 →
      let p := port.toNat
      let block := Instr.controlBlockReceive port b
      let role := s.odg 0x2110 0x03
      let parent := p = s.timePorts.1 ∨ p = s.timePorts.2
      (s.portTerm p = false → Claims.Does block s fun t => t = s)
      ∧ (s.portTerm p = true →
        Claims.Does block s (fun t => t.odg 0x2502 0x07 = s.odg 0x2502 0x07 + (b.errors.filter frameCorrected).length
          ∧ t.odg 0x2502 0x08 = s.odg 0x2502 0x08 + (b.errors.filter frameBad).length
          ∧ ((role = 1 ∨ ¬ parent ∨ b.timeValid = false ∨ b.bad = true) →
              t.time.state = s.time.state ∧ t.time.fabric = s.time.fabric ∧ t.time.slotDone = s.time.slotDone ∧ t.time.everLock = s.time.everLock)
          ∧ (b.bad = false → b.timeValid = true → t.odg (portIdx p 0) 0x06 = b.delayPs.toNat))
        ∧ (b.bad = true → (s.link p).up = true →
          (s.link p).badRun + 1 < 16 → Claims.Does block s fun t => (t.link p).badRun = (s.link p).badRun + 1 ∧ (t.link p).up = true)
        ∧ (b.bad = true → (s.link p).up = true →
          16 ≤ (s.link p).badRun + 1 → Claims.Does block s fun t => (t.link p).up = false)
        ∧ (b.bad = false → b.agree = [] → (readFields b.fields.toNat).nack = none →
          Claims.Does block s fun t => (t.link p).up = true ∧ (t.link p).badRun = 0)
        ∧ (b.bad = false → b.timeValid = true → role ≠ 1 → parent →
          (s.time.everLock = false → Claims.Does block s fun t => t.time.everLock = true ∧ t.time.state = .locked
            ∧ t.time.fabric = b.parentTime.toNat ∧ t.time.slotDone = b.parentTime.toNat / 512)
          ∧ (s.time.everLock = true → s.time.state = .locked → p = s.timePorts.1 → 2000 < b.offsetPs.natAbs →
            Claims.Does block s fun t => t.time.state = .holdover ∧ t.odg 0x2110 0x07 = s.odg 0x2110 0x07 + 1
              ∧ t.time.heldSince = s.ctl.clock ∧ t.time.fabric = s.time.fabric)
          ∧ (s.time.everLock = true → (s.time.state = .holdover ∨ s.time.state = .lost) → b.offsetPs.natAbs ≤ 2000 →
            Claims.Does block s fun t => t.time.state = .locked ∧ t.time.fabric = s.time.fabric))))
    ∧ (let other := s.timePorts.2
      let lit := other < 48 ∧ s.portState other = 1 ∧ s.portTerm other = true
      (s.time.state = .locked → s.odg 0x2110 0x03 ≠ 1 → lit → Claims.Does .parentLoss s fun t =>
          t = { s with time := { s.time with usesAlt := !s.time.usesAlt } } ∧ t.timePorts.1 = other)
      ∧ (s.time.state = .locked → s.odg 0x2110 0x03 ≠ 1 → ¬ lit → Claims.Does .parentLoss s fun t => t.time.state = .holdover
          ∧ t.odg 0x2110 0x07 = s.odg 0x2110 0x07 + 1 ∧ t.time.fabric = s.time.fabric ∧ t.time.heldSince = s.ctl.clock)
      ∧ ((s.time.state ≠ .locked ∨ s.odg 0x2110 0x03 = 1) → Claims.Does .parentLoss s fun t => t = s))
    ∧ (let timeUp := s.time.state = .holdover ∧ s.time.heldSince + 10000000 ≤ s.ctl.clock
      (timeUp → Claims.Does .holdoverTimeout s fun t => t = { s with time := { s.time with state := .lost } })
      ∧ (¬ timeUp → Claims.Does .holdoverTimeout s fun t => t = s))

/-- R232-R238, R241: a lane plan is written whole where its status is 0, its agreement starts afresh, and where it is the plan in effect the ports' masks
follow it; a plan is selected outside a running context; a write and a selection that are refused answer their status and change nothing else. An output or input
element whose path changes is blocked and connected, but not before its light age has passed since the boundary; an output that is to stay dark
stays blocked. -/
def Obligations.LanePlans : Prop :=
  ∀ (s : State),
    (∀ (plan : BitVec 6) (b : List Byte),
      let k := plan.toNat
      let st := s.lanePlanStatus k b
      (st = 0 → Claims.Does (.lanePlanWrite plan b) s fun t => (∀ o, o < 2368 → t.planByte k o = fld b o 1)
        ∧ bit (t.odg 0x2511 0x01) k = true ∧ (∀ j o, j < 64 → o < 2368 → j ≠ k → t.planByte j o = s.planByte j o)
        ∧ (∀ p, p < 48 → t.agreed k p = false ∧ ∀ j, j ≠ k → Sparse.find (t.peers p).masks j = Sparse.find (s.peers p).masks j)
        ∧ t.out.head? = some (.odStatus St.OD_OK) ∧ t.planNow = s.planNow ∧ t.ctxs = s.ctxs ∧ t.hbm = s.hbm
        ∧ (k = s.planNow → s.powered = true → ∀ p, p < 48 → t.odg (portIdx p 0) 0x02 = t.planTx k p ∧ t.odg (portIdx p 0) 0x03 = t.planRx k p)
        ∧ ((k ≠ s.planNow ∨ s.powered = false) → t.rt = s.rt ∧ t.opt = { s.opt with peers := t.opt.peers }))
      ∧ (st ≠ 0 → Claims.Does (.lanePlanWrite plan b) s fun t => t = s.answered st))
    ∧ (∀ v : BitVec 64,
      let n := v.toNat / 256
      let k := v.toNat % 64
      let refused := s.runningCtx ≠ none ∨ (s.time.everLock = true ∧ n < s.slot + 2)
      (bits v.toNat 7 6 ≠ 0 → Claims.Does (.planSelectRequest v) s fun t => t = s.answered St.OD_RESERVED_NONZERO)
      ∧ (bits v.toNat 7 6 = 0 → refused → Claims.Does (.planSelectRequest v) s fun t => t = s.answered St.LANE_SELECT_REFUSED)
      ∧ (bits v.toNat 7 6 = 0 → ¬ refused → s.time.everLock = true → Claims.Does (.planSelectRequest v) s fun t =>
          t = { s with opt := { s.opt with planReq := some (k, n) }, out := .odStatus St.OD_OK :: s.out })
      ∧ (bits v.toNat 7 6 = 0 → ¬ refused → s.time.everLock = false → Claims.Does (.planSelectRequest v) s fun t =>
          t.planNow = k ∧ t.out.head? = some (.odStatus St.OD_OK) ∧ t.ctxs = s.ctxs ∧ t.hbm = s.hbm
          ∧ (k ≠ s.planNow → t.opt.oldPlan = s.planNow ∧ t.opt.changeAt = some s.slot
            ∧ ∀ p, p < 48 → t.odg (portIdx p 0) 0x02 = t.planTx k p ∧ t.odg (portIdx p 0) 0x03 = t.planRx k p)))
    ∧ (∀ (out : Bool) (port : BitVec 6) (channel : BitVec 5) (connect : Bool), port.toNat < 48 →
      let p := port.toNat
      let c := channel.toNat
      let e := elementKey out p c
      let same := if out then s.source s.opt.oldPlan p c = s.source s.planNow p c else s.sink s.opt.oldPlan p c = s.sink s.planNow p c
      let early := fun a => 1000 * s.time.fabric < 512000 * a + s.switchAge out p c connect
      (s.opt.changeAt = none → Claims.Does (.pathSwitch out port channel connect) s fun t => t = s)
      ∧ ∀ a, s.opt.changeAt = some a →
        ((same ∨ early a) → Claims.Does (.pathSwitch out port channel connect) s fun t => t = s)
        ∧ (¬ same → ¬ early a → Claims.Does (.pathSwitch out port channel connect) s fun t =>
          t = { s with opt := { s.opt with blocked := t.opt.blocked } }
          ∧ t.opt.blocked.contains e = !(connect && !s.darkOutputs.contains e)
          ∧ ∀ x, x ≠ e → t.opt.blocked.contains x = s.opt.blocked.contains x))

/-- R228, R239, R242, R244, R245, R353: identity checks, wrong locks, the ends of searches, lost locks, relock attempts and spare lasers, of lanes and of add and
drop rings; each without occasion changes nothing. A link whose port is left without a lit lane in a direction is DOWN; a lane that is lit again waits for the preamble
of the next boundary. -/
def Obligations.LaneLocks : Prop :=
  ∀ (s : State),
    let lost := fun (t : State) => ∀ p, p < 48 → t.portTerm p = false → (t.link p).up = false
    (∀ lane : BitVec 9, lane.toNat < 384 →
      let n := lane.toNat
      let failed := fun (t : State) => Sparse.find t.opt.await n = none ∧ t.opt.refused.contains n = true
        ∧ t.odg 0x2502 0x05 = s.odg 0x2502 0x05 + 1 ∧ ∀ p, s.rxPort s.planNow n = some p → t.odg (portIdx p 0) 0x0B = s.odg (portIdx p 0) 0x0B + 1
      let heard := s.laneState (false, n) = 3 ∧ s.opt.refused.contains n = false
      let overdue := ∃ a, Sparse.find s.opt.await n = some a ∧ s.laneState (false, n) = 3 ∧ s.preambleLate n a ≤ 1000 * s.time.fabric
      (∀ (ch : BitVec 5) (plan : BitVec 6),
        let right := ch.toNat = n % 32 ∧ plan.toNat = s.planNow
        (heard → right → Claims.Does (.preambleCheck lane ch plan) s fun t => t = { s with opt := { s.opt with await := Sparse.del s.opt.await n } })
        ∧ (heard → ¬ right → Claims.Does (.preambleCheck lane ch plan) s failed)
        ∧ (¬ heard → Claims.Does (.preambleCheck lane ch plan) s fun t => t = s))
      ∧ (overdue → Claims.Does (.preambleTimeout lane) s failed)
      ∧ (¬ overdue → Claims.Does (.preambleTimeout lane) s fun t => t = s))
    ∧ (∀ l : LaneRef, l.idx.toNat < 384 →
      let m := l.idx.toNat
      let me := (l.tx, m)
      let k := if l.tx then m else 384 + m
      let others := fun (t : State) => ∀ x : Bool × Nat, x.2 < 384 → x ≠ me → t.laneOwn x = s.laneOwn x
      let locked := fun (t : State) => t.laneOwn me = 2 ∧ others t
        ∧ (t.laneState me = 3 → if l.tx then t.opt.resume.contains m = true else Sparse.find t.opt.await m = some (s.slot + 1))
      (∀ found : BitVec 5,
        (s.laneOwn me = 2 → found.toNat ≠ m % 32 → Claims.Does (.wrongLock (.lane l) found) s fun t =>
          t.laneOwn me = 1 ∧ others t ∧ t.odg 0x2502 0x01 = s.odg 0x2502 0x01 + 1 ∧ lost t)
        ∧ (¬ (s.laneOwn me = 2 ∧ found.toNat ≠ m % 32) → Claims.Does (.wrongLock (.lane l) found) s fun t => t = s))
      ∧ (s.laneOwn me = 2 → Claims.Does (.laneLockLoss (.lane l)) s fun t =>
          t.laneOwn me = 4 ∧ others t ∧ t.tries k = 0 ∧ t.odg 0x2502 0x02 = s.odg 0x2502 0x02 + 1 ∧ lost t)
      ∧ (s.laneOwn me ≠ 2 → Claims.Does (.laneLockLoss (.lane l)) s fun t => t = s)
      ∧ (s.laneOwn me = 1 → s.powered = true → Claims.Does (.laneSearchEnd (.lane l) true) s locked)
      ∧ ((s.laneOwn me ≠ 1 ∨ s.powered = false) → Claims.Does (.laneSearchEnd (.lane l) true) s fun t => t = s)
      ∧ Claims.Does (.laneSearchEnd (.lane l) false) s (fun t => t = s)
      ∧ (∀ ok, (s.laneOwn me ≠ 4 ∨ 3 ≤ s.tries k) → Claims.Does (.laneRelockAttemptEnd (.lane l) ok) s fun t => t = s)
      ∧ (s.laneOwn me = 4 → s.tries k < 3 →
        (∀ ok, s.relockReady (m / 96) = false → Claims.Does (.laneRelockAttemptEnd (.lane l) ok) s fun t => t = s.bump 0x2006 0x08 0)
        ∧ (s.relockReady (m / 96) = true →
          Claims.Does (.laneRelockAttemptEnd (.lane l) true) s (fun t => locked t ∧ t.tries k = 0)
          ∧ Claims.Does (.laneRelockAttemptEnd (.lane l) false) s fun t =>
            if s.tries k < 2 then t = s.setTries k (s.tries k + 1)
            else if l.tx = true ∧ (s.spareOf (m / 96) 0xFE).isSome = true then t = s.setTries k 3
            else t.laneOwn me = 5 ∧ t.tries k = 0 ∧ others t))
      ∧ (let waits := l.tx = true ∧ ((s.laneOwn (true, m) = 4 ∧ s.tries m = 3) ∨ s.laneOwn (true, m) = 2)
        (¬ waits → Claims.Does (.spareSubstitution l) s fun t => t = s)
        ∧ (waits →
          (∀ j, s.spareOf (m / 96) 0xFE = some j → Claims.Does (.spareSubstitution l) s fun t =>
            t.odg 0x2501 0x03 j = m % 96 ∧ (∀ i, s.spareOf (m / 96) (m % 96) = some i → t.odg 0x2501 0x03 i = 0xFF)
            ∧ t.odg 0x2502 0x03 = s.odg 0x2502 0x03 + 1 ∧ t.tries m = 0 ∧ locked t
            ∧ (t.spareOf (m / 96) 0xFE = none → bit (t.odg 0x3001 0x08) 1 = true))
          ∧ (s.spareOf (m / 96) 0xFE = none → Claims.Does (.spareSubstitution l) s fun t => t.laneOwn me = 5 ∧ t.tries m = 0 ∧ others t
            ∧ (∀ i, s.spareOf (m / 96) (m % 96) = some i → t.odg 0x2501 0x03 i = 0xFF) ∧ lost t))))
    ∧ (∀ (drop : Bool) (port : BitVec 6) (ring : BitVec 5), port.toNat < 48 →
      let p := port.toNat
      let e := if drop then OpticRef.dropRing port ring else .addRing port ring
      let key := ringKey drop p ring.toNat
      let c := s.ringChannel (drop, p, ring.toNat)
      let lanes := fun (t : State) => ∀ x : Bool × Nat, x.2 < 384 → t.laneOwn x = s.laneOwn x
      let fed := fun n => n < 384 ∧ s.laneState (!drop, n) = 3 ∧ s.lanePort s.planNow (!drop, n) = some p
        ∧ s.channelRing drop p (n % 32) = some ring.toNat
      (∀ found : BitVec 5,
        let wrong := c ≠ 0xFF ∧ found.toNat ≠ c ∧ s.powered = true ∧ s.opt.searching.contains key = false
        (wrong → Claims.Does (.wrongLock e found) s fun t => t.opt.searching.contains key = true ∧ lanes t
          ∧ t.odg 0x2502 0x01 = s.odg 0x2502 0x01 + 1 ∧ lost t ∧ ∀ n, fed n → t.laneState (!drop, n) = 1)
        ∧ (¬ wrong → Claims.Does (.wrongLock e found) s fun t => t = s))
      ∧ (s.opt.searching.contains key = true → Claims.Does (.laneSearchEnd e true) s fun t => t.opt.searching.contains key = false ∧ t.od = s.od)
      ∧ (s.opt.searching.contains key = false → Claims.Does (.laneSearchEnd e true) s fun t => t = s)
      ∧ Claims.Does (.laneSearchEnd e false) s (fun t => t = s)
      ∧ (let held := c ≠ 0xFF ∧ s.powered = true ∧ s.opt.ringDown.contains key = false ∧ s.opt.searching.contains key = false
        (held → Claims.Does (.laneLockLoss e) s fun t => t.opt.ringDown.contains key = true ∧ t.tries (768 + key) = 0 ∧ lanes t
          ∧ t.odg 0x2502 0x02 = s.odg 0x2502 0x02 + 1 ∧ lost t ∧ ∀ n, fed n → t.laneState (!drop, n) = 4)
        ∧ (¬ held → Claims.Does (.laneLockLoss e) s fun t => t = s))
      ∧ (∀ ok, s.opt.ringDown.contains key = false → Claims.Does (.laneRelockAttemptEnd e ok) s fun t => t = s)
      ∧ (s.opt.ringDown.contains key = true →
        (∀ ok, s.relockReady (homeDie p) = false → Claims.Does (.laneRelockAttemptEnd e ok) s fun t => t = s.bump 0x2006 0x08 0)
        ∧ (s.relockReady (homeDie p) = true →
          Claims.Does (.laneRelockAttemptEnd e true) s (fun t => t.opt.ringDown.contains key = false ∧ t.tries (768 + key) = 0 ∧ t.od = s.od)
          ∧ (s.tries (768 + key) < 2 → Claims.Does (.laneRelockAttemptEnd e false) s fun t =>
            t = s.setTries (768 + key) (s.tries (768 + key) + 1))
          ∧ (2 ≤ s.tries (768 + key) → Claims.Does (.laneRelockAttemptEnd e false) s fun t =>
            t.ringChannel (drop, p, ring.toNat) = 0xFF ∧ t.opt.ringDown.contains key = false ∧ t.tries (768 + key) = 0 ∧ lanes t))))

/-- R234, R241, R246, R248: a lit port that opens is SHUT, its link DOWN, the pass-throughs into it blocked, what its neighbour announced forgotten; a SHUT port probes, a port
answers probes with its own, and once two probes have gone each way the port is lit again at the later proposed slot, its blocked outputs connected, its transmit lanes with a preamble and its
receive lanes awaiting one. Without occasion nothing changes. -/
def Obligations.PortsAndProbes : Prop :=
  ∀ (s : State) (port : BitVec 6), port.toNat < 48 →
    let p := port.toNat
    let x := s.probe p
    (∀ power : BitVec 16, s.portState p = 1 →
      Claims.Does (.portOpen port power) s fun t => t.portState p = 2 ∧ (t.link p).up = false ∧ t.probe p = probeNone ∧ t.peers p = peersNone
        ∧ t.odg 0x2502 0x04 = s.odg 0x2502 0x04 + 1 ∧ t.odg (portIdx p 0) 0x07 = s.odg (portIdx p 0) 0x07 + 1
        ∧ (∀ q, q < 48 → q ≠ p → t.portState q = s.portState q ∧ t.probe q = s.probe q ∧ t.peers q = s.peers q)
        ∧ (∀ c q, c < 32 → s.source s.planNow p c = some q → 384 ≤ q → t.opt.blocked.contains (elementKey true p c) = true)
        ∧ ∀ e, s.opt.blocked.contains e = true → t.opt.blocked.contains e = true)
    ∧ (∀ power : BitVec 16, s.portState p ≠ 1 → Claims.Does (.portOpen port power) s fun t => t = s)
    ∧ (∀ n, s.portState p = 2 → s.probeLane p = some n → Claims.Does (.probeSend port) s fun t =>
        t.probe p = { x with proposed := s.slot + 4096, latest := Nat.max (s.slot + 4096) x.latest }
        ∧ t.out = .probe p n (s.slot + 4096) x.got :: s.out ∧ t.odg (portIdx p 0) 0x08 = s.odg (portIdx p 0) 0x08 + 1 ∧ t.portState p = 2 ∧ t.rt = s.rt)
    ∧ ((s.portState p ≠ 2 ∨ s.probeLane p = none) → Claims.Does (.probeSend port) s fun t => t = s)
    ∧ (∀ (slot : BitVec 64) (seen : BitVec 8), s.portState p ≠ 0 →
      (∀ n, s.probeLane p = some n → Claims.Does (.probeReceive port slot seen) s fun t =>
        t.probe p = { got := x.got + 1, seen := seen.toNat, proposed := s.slot + 4096, latest := Nat.max (s.slot + 4096) slot.toNat }
        ∧ t.out = .probe p n (s.slot + 4096) (x.got + 1) :: s.out ∧ t.portState p = s.portState p ∧ t.rt = s.rt)
      ∧ (s.probeLane p = none → Claims.Does (.probeReceive port slot seen) s fun t =>
        t.probe p = { got := x.got + 1, seen := seen.toNat, proposed := x.proposed, latest := Nat.max x.proposed slot.toNat }
        ∧ t.out = s.out ∧ t.od = s.od ∧ t.rt = s.rt))
    ∧ (∀ (slot : BitVec 64) (seen : BitVec 8), s.portState p = 0 → Claims.Does (.probeReceive port slot seen) s fun t => t = s)
    ∧ (let agreed := s.portState p = 2 ∧ 2 ≤ x.got ∧ 2 ≤ x.seen ∧ x.latest ≤ s.slot
      (agreed → Claims.Does (.portRelight port) s fun t => t.probe p = probeNone
        ∧ t.portState p = (if s.planTx s.planNow p = 0 ∧ s.planRx s.planNow p = 0 then 0 else 1)
        ∧ (∀ q, q < 48 → q ≠ p → t.portState q = s.portState q) ∧ (∀ c, c < 32 → t.opt.blocked.contains (elementKey true p c) = false)
        ∧ (∀ n, n ∈ t.litLanes true p → Out.preamble n s.slot (s.ownAddr s.epochNow) (n % 32) s.planNow ∈ t.out ∧ t.opt.told.contains n = false)
        ∧ ∀ n, n ∈ t.litLanes false p → Sparse.find t.opt.await n = some s.slot ∧ t.opt.refused.contains n = false)
      ∧ (¬ agreed → Claims.Does (.portRelight port) s fun t => t = s))

/-- R252, R273, R280, Table 12-8: routing tables and window resets with the status that answers, and the congestion map. A reset window holds no byte of the
messages it had open, each counted as returned LOST, and keeps open those alone of which packets wait for injection. -/
def Obligations.RoutingRequests : Prop :=
  ∀ (s : State),
    (∀ (v : Bool) (b : List Byte),
      let st := s.routeTableStatus (b2n v) b
      (st = 0 → Claims.Does (.routeTableWrite v b) s fun t => (∀ i, i < 256 → t.rtByte (b2n v) i = fld b i 1)
        ∧ (∀ i, i < 256 → t.rtByte (1 - b2n v) i = s.rtByte (1 - b2n v) i) ∧ bit (t.odg 0x2600 0x03) (b2n v) = true
        ∧ t.epochNow = s.epochNow ∧ t = { s with od := t.od, out := .odStatus St.OD_OK :: s.out })
      ∧ (st ≠ 0 → Claims.Does (.routeTableWrite v b) s fun t => t = s.answered st))
    ∧ (∀ v : BitVec 32, v.toNat / 2 ^ 18 ≠ 0 → Claims.Does (.windowReset v) s fun t => t = s.answered St.OD_RESERVED_NONZERO)
    ∧ (∀ v : BitVec 32, v.toNat / 2 ^ 18 = 0 → (∀ i, i < 3 → 0 < s.axisLen s.epochNow i ∧ s.axisLen s.epochNow i ≤ 64) →
      let dest := s.unlinear s.epochNow (v.toNat % 2 ^ 15)
      let cls := if bit v.toNat 17 then [0, 1, 2, 3] else [bits v.toNat 16 15]
      let msgs := fun c => (s.win (winKey dest c)).msgs
      (∀ c, c ∈ cls → ((msgs c).map fun m => m.id).Nodup) → (∀ c m, c ∈ cls → m ∈ msgs c → m.left < 2 ^ 32 ∧ m.id < 65536) →
      (∀ c, c ∈ cls → s.openMsgs (winKey dest c) (msgs c) = msgs c) →
      Claims.Does (.windowReset v) s fun t => t.out.head? = some (.odStatus St.OD_OK)
        ∧ t.odg 0x2603 0x04 = s.odg 0x2603 0x04 + (cls.map fun c => (msgs c).length).sum
        ∧ ∀ c, c ∈ cls →
          (t.win (winKey dest c)).out = (s.win (winKey dest c)).out - ((msgs c).map fun m => m.left).sum
          ∧ (t.win (winKey dest c)).msgs =
            ((msgs c).filter fun m => s.moreToSend (winKey dest c) m.id).map fun m => { m with left := 0 })
    ∧ (s.rt.congFrom + s.rt.congLen ≤ s.slot →
      Claims.Does .congestionMapLatch s fun t => t.rt.cong = [] ∧ t.rt.congFrom = s.slot ∧ t.rt.congLen = t.odg 0x2620 0x02
        ∧ (∀ j, j < 8 → t.odg 0x2620 0x01 j = fld (leBytes 8 s.rt.congFrom) j 1)
        ∧ (∀ j, j < 4 → t.odg 0x2620 0x01 (8 + j) = fld (leBytes 4 s.rt.congLen) j 1) ∧ t.hbm = s.hbm ∧ t.out = s.out)
    ∧ (s.slot < s.rt.congFrom + s.rt.congLen → Claims.Does .congestionMapLatch s fun t => t = s)

/-- R276: outside any running context the epoch is selected through OD 0x2600:05 by a fabric slot; it is refused where that slot is less than
2 slots ahead or a context runs, takes effect at once while fabric time is unlocked, and otherwise at the boundary of that slot. -/
def Obligations.EpochSelection : Prop :=
  ∀ (s : State) (v : BitVec 64),
    let e := v.toNat % 2
    let n := v.toNat / 256
    let refused := s.runningCtx ≠ none ∨ (s.time.everLock = true ∧ n < s.slot + 2)
    (bits v.toNat 7 1 ≠ 0 → Claims.Does (.epochSelectRequest v) s fun t => t = s.answered St.OD_RESERVED_NONZERO)
    ∧ (bits v.toNat 7 1 = 0 → refused → Claims.Does (.epochSelectRequest v) s fun t => t = s.answered St.EPOCH_SELECT_REFUSED)
    ∧ (bits v.toNat 7 1 = 0 → ¬ refused → s.time.everLock = false → Claims.Does (.epochSelectRequest v) s fun t =>
        t.epochNow = e ∧ t.rt.epochReq = s.rt.epochReq ∧ t.out = .odStatus St.OD_OK :: s.out ∧ t.ctxs = s.ctxs ∧ t.hbm = s.hbm)
    ∧ (bits v.toNat 7 1 = 0 → ¬ refused → s.time.everLock = true → Claims.Does (.epochSelectRequest v) s fun t =>
        t = { s with rt := { s.rt with epochReq := some (e, n) }, out := .odStatus St.OD_OK :: s.out })
    ∧ (∀ r k env, s.rt.epochReq = some (r, k) → s.time.everLock = true → Claims.Does (.slotBoundary env) s fun t =>
      (k ≤ s.time.slotDone + 1 → t.epochNow = r ∧ t.rt.epochReq = none)
      ∧ (s.time.slotDone + 1 < k → t.epochNow = s.epochNow ∧ t.rt.epochReq = some (r, k)))

/-- R256, R260-R263, R265, R270, R272-R274, R279; R185, R186, R192 for the routines' own messages: packets and window returns that are injected, flits that
are received, the truncation of a packet that does not go on, a packet without a usable port, messages that complete, channels repaired. What has no occasion changes
nothing. -/
def Obligations.Packets : Prop :=
  ∀ (s : State),
    (∀ k, s.rt.inject[k]? = none → Claims.Does (.packetInject k) s fun t => t = s)
    ∧ (∀ k x, s.rt.inject[k]? = some x →
      let p := s.stampPkt x.pkt
      let ws := s.pktWins p
      let fits := (ws.all fun w => s.winTakes w p.payLen.toNat p.msgId.toNat) = true
      (fits → Claims.Does (.packetInject k) s fun t => t.rt.inject = s.rt.inject.eraseIdx k ∧ t.odg 0x2603 0x01 = s.odg 0x2603 0x01 + 1
        ∧ (p.typ ≠ 2 → ∀ w, (t.win w).out = (s.win w).out + ws.count w * p.payLen.toNat))
      ∧ (¬ fits → Claims.Does (.packetInject k) s fun t => t = s))
    ∧ (∀ port : BitVec 6, port.toNat < 48 →
      let k := port.toNat
      let l := s.link k
      let take := fun f => Instr.packetReceive port [f]
      Claims.Does (.packetReceive port []) s (fun t => t = s)
      ∧ (∀ f fs t, exec (take f) s = .next t → exec (.packetReceive port (f :: fs)) s = exec (.packetReceive port fs) t)
      ∧ ∀ f : RxFlit,
        let here := (f.pos.toNat, f.slot.toNat)
        let skipEnd := fun (c : RxCur) => c.dead = true ∧ (l.vc c.vc).after ≤ f.slot.toNat ∧ 0 < (l.vc c.vc).after
        let hears := l.up = true ∧ s.laneTakes k f.channel.toNat = true
        let named := fun (t : State) => if l.again = some here then (t.link k).up = false
          else (t.link k).nack = some here ∧ (t.link k).again = some here ∧ (t.link k).up = true ∧ t.rt.held = s.rt.held
            ∧ t.odg 0x2603 0x09 = s.odg 0x2603 0x09 + 1 ∧ t.odg (portIdx k 1) 0x04 = s.odg (portIdx k 1) 0x04 + 1
        (¬ hears → Claims.Does (take f) s fun t => t = s)
        ∧ (hears → ∀ n, l.nack = some n →
          let marks := f.bad = false ∧ markerOf f.bytes = some (n.1, n.2 % 2 ^ 32)
          (marks → Claims.Does (take f) s fun t => t = s.setLink k { l with nack := none })
          ∧ (¬ marks → Claims.Does (take f) s fun t => t = s))
        ∧ (hears → l.nack = none →
          (f.bad = true → Claims.Does (take f) s named)
          ∧ (f.bad = false → (∀ c, l.cur = some c → skipEnd c) →
            let h := readHeader f.bytes
            let vc := pktVc h
            let idle := f.bytes = idleFlit ∨ (markerOf f.bytes).isSome = true
            (idle → Claims.Does (take f) s fun t => t = s.setLink k { l with cur := none })
            ∧ (¬ idle → badHeader f.bytes = true → Claims.Does (take f) s named)
            ∧ (¬ idle → badHeader f.bytes = false → Claims.Does (take f) s fun t => t.rt.seq = s.rt.seq + 1 ∧ (t.link k).up = true
              ∧ (if f.slot.toNat < (l.vc vc).after then (t.link k).vc vc = l.vc vc ∧ t.rt.held = s.rt.held
                 else ((t.link k).vc vc).accepted = ((l.vc vc).accepted + 1) % 2 ^ 32)
              ∧ (pktFlits h = 1 → (t.link k).cur = none)
              ∧ (1 < pktFlits h → ∃ d, (t.link k).cur =
                  some { id := s.rt.seq, vc := vc, left := pktFlits h - 1, lastAt := s.time.fabric, dead := d })))
          ∧ (f.bad = false → ∀ c, l.cur = some c → ¬ skipEnd c → Claims.Does (take f) s fun t =>
            ((t.link k).vc c.vc).accepted = (if f.slot.toNat < (l.vc c.vc).after then (l.vc c.vc).accepted
              else ((l.vc c.vc).accepted + 1) % 2 ^ 32)
            ∧ (c.left = 1 → (t.link k).cur = none)
            ∧ (c.left ≠ 1 → ∃ d, (t.link k).cur = some { c with left := c.left - 1, lastAt := s.time.fabric, dead := d }))))
    ∧ (∀ (port : BitVec 6) (vc : BitVec 3), port.toNat < 48 →
      let k := port.toNat
      (∀ c, (s.link k).cur = some c → c.vc = vc.toNat → c.lastAt + 2048 < s.time.fabric → Claims.Does (.truncation port vc) s fun t =>
        t.odg 0x2603 0x0A = s.odg 0x2603 0x0A + 1 ∧ t.odg (portIdx k 1) 0x05 = s.odg (portIdx k 1) 0x05 + 1
        ∧ (t.link k).cur = none ∧ t.heldOf c.id = none)
      ∧ ((s.link k).cur = none → Claims.Does (.truncation port vc) s fun t => t = s)
      ∧ (∀ c, (s.link k).cur = some c → (c.vc ≠ vc.toNat ∨ s.time.fabric ≤ c.lastAt + 2048) → Claims.Does (.truncation port vc) s fun t => t = s))
    ∧ (∀ (port : BitVec 6) (vc : BitVec 3), port.toNat ≤ 48 →
      let late := s.rt.held.find? fun h => decide (h.port = port.toNat ∧ h.vc = vc.toNat ∧ h.via = none ∧ h.since + 64 ≤ s.slot)
        && (s.usablePorts h.pkt).isEmpty
      (∀ h, late = some h → s.rt.returns.length < 4096 → Claims.Does (.routeTimeout port vc) s fun t =>
        t.heldOf h.id = none ∧ t.odg 0x2603 0x08 = s.odg 0x2603 0x08 + 1
        ∧ (h.pkt.typ = 2 → t.rt.returns = s.rt.returns ++ [h.pkt])
        ∧ (h.pkt.typ ≠ 1 → h.pkt.typ ≠ 2 →
          t.rt.returns = s.rt.returns ++ [returnPkt h.pkt (pktDest h.pkt) h.pkt.payLen.toNat true false false]))
      ∧ ((late = none ∨ 4096 ≤ s.rt.returns.length) → Claims.Does (.routeTimeout port vc) s fun t => t = s))
    ∧ (s.rt.returns = [] → Claims.Does .returnInject s fun t => t = s)
    ∧ (∀ r rest, s.rt.returns = r :: rest → r.typ = 2 →
      let q := rest ++ s.rt.owed.take 1
      let p := { s.stampPkt r with esc := false, hops := 0 }
      let inside := s.inLen (pktVer p) (pktDest p) = true
      (inside → Claims.Does .returnInject s fun t => t.rt.returns = q ∧ t.rt.owed = s.rt.owed.drop 1)
      ∧ (¬ inside → Claims.Does .returnInject s fun t => t.rt.returns = (if q.length < 4096 then q ++ [p] else q) ∧ t.rt.owed = s.rt.owed.drop 1))
    ∧ (∀ p : Packet, p.typ ≠ 2 → Claims.Does (.returnReceive p) s fun t => t = s)
    ∧ (∀ p : Packet, p.typ = 2 →
      let k := winKey (pktSrc p) p.tc.toNat
      let found := (s.win k).msgs.find? fun m => decide (m.id = p.msgId.toNat)
      (found = none → Claims.Does (.returnReceive p) s fun t => t = s.bump 0x2603 0x07 0)
      ∧ (∀ m, found = some m → Claims.Does (.returnReceive p) s fun t =>
          (t.win k).out = (s.win k).out - Nat.min p.msgLen.toNat m.left ∧ (∀ j, j ≠ k → t.win j = s.win j)
          ∧ t.odg 0x2603 0x04 = s.odg 0x2603 0x04 + b2n p.lost ∧ t.odg 0x2603 0x05 = s.odg 0x2603 0x05 + b2n p.refused
          ∧ t.odg 0x2603 0x06 = s.odg 0x2603 0x06 + b2n p.stale
          ∧ ((p.lost = true ∨ p.refused = true) → ∀ c, s.ctxOfJob m.job = some c → t.odg 0x2702 0x09 = s.odg 0x2702 0x09 + 1)))
    ∧ (∀ port : BitVec 6, port.toNat < 48 →
      let k := port.toNat
      let l := s.link k
      let ownDue := ∃ v r a, l.repairOwn = some (v, r, a) ∧ r ≤ s.slot
      let peerDue := ∃ v r, l.repairPeer = some (v, r) ∧ r ≤ s.slot
      (∀ v r, l.repairOwn = some (v, r, true) → r ≤ s.slot → Claims.Does (.repairBoundary port) s fun t =>
        (¬ peerDue → (t.link k).vc v = vcFresh v (r % 2 ^ 32) r)
        ∧ (l.repairMore = [] → (t.link k).repairOwn = none)
        ∧ ∀ w ws, l.repairMore = w :: ws → (t.link k).repairOwn = some (w, s.slot + 16, false) ∧ (t.link k).repairMore = ws)
      ∧ (∀ v r, l.repairOwn = some (v, r, false) → r ≤ s.slot → Claims.Does (.repairBoundary port) s fun t =>
        (t.link k).repairOwn = some (v, s.slot + 16, false) ∧ (¬ peerDue → t.rt.held = s.rt.held))
      ∧ (∀ v r, l.repairPeer = some (v, r) → r ≤ s.slot → Claims.Does (.repairBoundary port) s fun t =>
        (t.link k).vc v = vcFresh v (r % 2 ^ 32) r ∧ (t.link k).repairPeer = none)
      ∧ (¬ ownDue → ¬ peerDue → Claims.Does (.repairBoundary port) s fun t => t = s))
    ∧ (∀ (i : Nat) (env : MemEnv),
      (Sparse.find s.rt.done i = none → Claims.Does (.messageComplete (.entry i) env) s fun t => t = s)
      ∧ ∀ e, Sparse.find s.rt.done i = some e → Claims.Does (.messageComplete (.entry i) env) s fun t =>
        t.odg 0x2603 0x03 = s.odg 0x2603 0x03 + 1 ∧ t.rt.done.length + 1 = s.rt.done.length
        ∧ t.entry i = (if s.entry i = e then reasmNone else s.entry i) ∧ t.hbm.mem = s.hbm.mem
        ∧ (e.rxq ≠ 0xFFFF → ∀ o, fld (s.rxRec e.rxq) 4 2 = o → Claims.sound s o →
            t.objVal o = signalVal (s.objTyp o) (s.objVal o) 1 ∧ ∀ j, j ≠ o → t.objVal j = s.objVal j))
    ∧ (∀ (k : Nat) (sender : BitVec 6) (bytes : List Byte) (g : Nat) (env : MemEnv),
      let rows := Instr.messageComplete (.parcel k sender bytes) env
      let sect := Instr.messageComplete (.dkvSection k bytes) env
      let seg := Instr.messageComplete (.segment k g bytes) env
      (s.milksNow[k]? = none → Claims.Does rows s (fun t => t = s) ∧ Claims.Does sect s fun t => t = s)
      ∧ (s.gathersNow[k]? = none → Claims.Does seg s fun t => t = s)
      ∧ (Claims.calm s env → ∀ u, s.milksNow[k]? = some u →
        let d := u.desc
        let i := s.milkIndex (s.ctx u.ctx) d
        let r := if mDir d = 0 then (i + mN d - sender.toNat % mN d) % mN d else (sender.toNat + mN d - i % mN d) % mN d
        let kept := fun (t : State) (v : MilkTask) => v.ctx = u.ctx ∧ v.pos = u.pos ∧ v.desc = d ∧ v.started = u.started
          ∧ t.tasks.milks = (if milkOver v then s.tasks.milks.filter fun w => decide (¬ (w.ctx = u.ctx ∧ w.pos = u.pos))
            else s.tasks.milks.map fun w => if w.ctx = u.ctx ∧ w.pos = u.pos then v else w)
        let still := fun (t : State) => t.hbm.mem = s.hbm.mem ∧ t.tasks = s.tasks ∧ t.sync = s.sync ∧ t.rt = s.rt
        let comes := bytes.length = mRowsLen d ∧ (if mMulti d = true then u.rows.contains r = false else u.rows.length + u.rowsWait.length < mN d)
        let comesToo := mBack d = true ∧ bytes.length = mSectLen d ∧ u.sects + u.sectWait.length < mLast d
        (comes → Claims.Does rows s fun t => t.rt = s.rt ∧ ∃ v, kept t v
          ∧ v.rows.length + v.rowsWait.length = u.rows.length + u.rowsWait.length + 1
          ∧ (mMulti d = true → v.rows.contains r = true ∧ (u.rowsWait = [] → u.sectWait = [] → Claims.writable s (mBufAt d r) (mRowsLen d) →
              t.memBytes (mBufAt d r) (mRowsLen d) = bytes)))
        ∧ (¬ comes → Claims.Does rows s still)
        ∧ (comesToo → Claims.Does sect s fun t => t.rt = s.rt ∧ ∃ v, kept t v ∧ v.sects + v.sectWait.length = u.sects + u.sectWait.length + 1)
        ∧ (¬ comesToo → Claims.Does sect s still))
      ∧ (Claims.calm s env → ∀ u, s.gathersNow[k]? = some u →
        let d := u.bytes
        let wanted := gDelivers d g = true ∧ Sparse.find u.segs g = none ∧ bytes.length = 1088
        let v := { u with segs := Sparse.ins g bytes u.segs }
        (wanted → Claims.Does seg s fun t =>
          (if gatherFull v then t.odg 0x2920 0x04 = s.odg 0x2920 0x04 + 1 ∧ ¬ Claims.stillRuns t u.ctx u.pos
              ∧ t.tasks.gathers = s.tasks.gathers.filter fun w => decide (¬ (w.ctx = u.ctx ∧ w.pos = u.pos))
            else t.odg 0x2920 0x04 = s.odg 0x2920 0x04 ∧ t.tasks.gathers = s.tasks.gathers.map fun w => if w.ctx = u.ctx ∧ w.pos = u.pos then v else w)
          ∧ (gForm d = 0 → gSpace d = 0 → Claims.writable s (gDst d + (g - gFirst d) * 1088) 1088 →
              t.memBytes (gDst d + (g - gFirst d) * 1088) 1088 = markReserved bytes)
          ∧ (gForm d = 1 → gSpace d = 0 → Claims.writable s (gDst d + (g - gFirst d) * 2048) 2048 →
              t.memBytes (gDst d + (g - gFirst d) * 2048) 2048 = widenSeg bytes)
          ∧ (gForm d = 2 → t.hbm.mem = s.hbm.mem))
        ∧ (¬ wanted → gatherFull u = false → Claims.Does seg s fun t => t.hbm.mem = s.hbm.mem ∧ t.rt = s.rt ∧ t.od = s.od
          ∧ t.tasks.gathers = s.tasks.gathers.map fun w => if w.ctx = u.ctx ∧ w.pos = u.pos then u else w)))

/-- R10, R311-R313, R425: the job ring. An entry is taken in turn and answered with a record of its status: an operation that runs, the refusals in their order, a context
loaded from module memory or the host, unloaded, started, set to stop. An entry whose turn it is not, or of another operation, changes nothing. The head line is read again when it
is snooped; the ring is activated, which reads it, and deactivated. -/
def Obligations.JobRing : Prop :=
  ∀ (s : State) (e : JobEntry),
    let c := jCtx e
    let a := jAddr e
    let x := s.ctx c
    let loads := fun d env => Instr.loadContext e d env
    let idle := fun (i : Instr) => Claims.Does i s fun t => t = s
    let rejected := fun (i : Instr) (st : Nat) => Claims.Does i s fun t => Claims.answered s t e st ∧ t.ctxs = s.ctxs
    (∀ head rspDone : BitVec 64,
      (s.ringOn = true → s.host.linkUp = true → Claims.Does (.headLineSnoop head rspDone) s fun t => t.host.head = head.toNat
        ∧ t.host.headHeld = true ∧ t.host.rspDone = Nat.max s.host.rspDone rspDone.toNat
        ∧ t.odg 0x2806 0x07 = s.odg 0x2806 0x07 + b2n s.host.headHeld)
      ∧ ((s.ringOn = false ∨ s.host.linkUp = false) → idle (.headLineSnoop head rspDone)))
    ∧ ((s.takesEntry = false ∨ (jOp e ≠ 0 ∧ jOp e ≤ 4)) → idle (.jobNop e))
    ∧ ((s.takesEntry = false ∨ jOp e ≠ 1) → ∀ d env, Claims.Does (loads d env) s fun t => t = { s with hbm := { s.hbm with touched := none } })
    ∧ ((s.takesEntry = false ∨ jOp e ≠ 2) → idle (.unloadContext e))
    ∧ ((s.takesEntry = false ∨ jOp e ≠ 3) → idle (.startContext e))
    ∧ ((s.takesEntry = false ∨ jOp e ≠ 4) → idle (.stopContext e))
    ∧ (s.takesEntry = true →
      (4 < jOp e → rejected (.jobNop e) St.HOST_RING_BAD_ENTRY)
      ∧ (jOp e = 0 → jResv e false false false = true → rejected (.jobNop e) St.CMD_RESERVED_NONZERO)
      ∧ (jOp e = 1 → jResv e true true false = true → ∀ d env, rejected (loads d env) St.CMD_RESERVED_NONZERO)
      ∧ (jOp e = 2 → jResv e false false false = true → rejected (.unloadContext e) St.CMD_RESERVED_NONZERO)
      ∧ (jOp e = 3 → jResv e false false true = true → rejected (.startContext e) St.CMD_RESERVED_NONZERO)
      ∧ (jOp e = 4 → jResv e false false false = true → rejected (.stopContext e) St.CMD_RESERVED_NONZERO))
    ∧ (Claims.jobTurn s e 0 false false = true → rejected (.jobNop e) St.HOST_DONE)
    ∧ (Claims.jobTurn s e 1 true false = true →
      let busy := ¬ (s.ctl.mstate = .ready ∨ s.ctl.mstate = .run) ∨ s.ctl.change = some .standby ∨ s.ctl.change = some .service
        ∨ s.resident c = true
      let bad := ¬ (jSpace e = 0 ∨ jSpace e = 3) ∨ a % 64 ≠ 0 ∨ (jSpace e ≠ 3 ∧ 2 ^ 39 < a + 2688)
        ∨ (jSpace e = 3 ∧ s.hostOk a 2688 false = false)
      (busy → ∀ d env, rejected (loads d env) St.CTX_BUSY)
      ∧ (¬ busy → bad → ∀ d env, rejected (loads d env) St.HOST_RING_BAD_ENTRY)
      ∧ (¬ busy → ¬ bad → ∀ d env, Claims.calm s env →
        (jSpace e = 3 → d = none → rejected (loads d env) St.DMA_HOST_ERROR)
        ∧ (∀ f, jSpace e = 0 → s.readFail a 2688 = some f → rejected (loads d env) f.2)
        ∧ ∀ desc, ((jSpace e = 0 ∧ s.readFail a 2688 = none ∧ desc = s.memBytes a 2688)
            ∨ (jSpace e = 3 ∧ ∃ b, d = some b ∧ desc = sliceBytes b 0 2688)) →
          (s.descStatus c desc = 0 → Claims.Does (loads d env) s fun t => Claims.answered s t e St.HOST_DONE ∧ t.ctx c = s.ctxOf desc
            ∧ (∀ k, k / 4 % 64 = c → t.dq k = dqNone) ∧ ∀ j, j ≠ c → t.ctx j = s.ctx j)
          ∧ (s.descStatus c desc ≠ 0 → rejected (loads d env) (s.descStatus c desc))))
    ∧ (Claims.jobTurn s e 2 false false = true →
        ((x.st = .loaded ∨ x.st = .paused ∨ x.st = .stopped) → Claims.Does (.unloadContext e) s fun t =>
          Claims.answered s t e St.HOST_DONE ∧ t.ctx c = ctxNone ∧ ∀ j, j ≠ c → t.ctx j = s.ctx j)
        ∧ ((x.st = .started ∨ x.st = .running) → rejected (.unloadContext e) St.CTX_BUSY)
        ∧ (x.st = .empty → rejected (.unloadContext e) St.CTX_NOT_RESIDENT))
    ∧ (Claims.jobTurn s e 3 false true = true →
        let busy := s.ctl.mstate ≠ .run ∨ s.ctl.change ≠ none ∨ s.time.everLock = false
          ∨ ∃ k, k ∈ Sparse.keys s.ctxs ∧ ((s.ctx k).st = .running ∨ (s.ctx k).st = .started)
        (jSlot e < s.slot + 2 → rejected (.startContext e) St.HOST_RING_BAD_ENTRY)
        ∧ (s.slot + 2 ≤ jSlot e → busy → rejected (.startContext e) St.CTX_BUSY)
        ∧ (s.slot + 2 ≤ jSlot e → ¬ busy →
          ((x.st = .loaded ∨ x.st = .stopped) → Claims.Does (.startContext e) s fun t =>
            Claims.answered s t e St.HOST_DONE ∧ t.ctx c = { x with st := .started, startSlot := jSlot e } ∧ ∀ j, j ≠ c → t.ctx j = s.ctx j)
          ∧ ((x.st = .paused ∨ x.st = .started ∨ x.st = .running) → rejected (.startContext e) St.CTX_BUSY)
          ∧ (x.st = .empty → rejected (.startContext e) St.CTX_NOT_RESIDENT)))
    ∧ (Claims.jobTurn s e 4 false false = true →
        ((x.st = .started ∨ x.st = .running ∨ x.st = .paused) → Claims.Does (.stopContext e) s fun t =>
          Claims.answered s t e St.HOST_DONE ∧ t.ctx c = { x with stopTag := some (x.stopTag.getD (jTag e)) } ∧ ∀ j, j ≠ c → t.ctx j = s.ctx j)
        ∧ ((x.st = .loaded ∨ x.st = .stopped) → rejected (.stopContext e) St.CTX_BUSY)
        ∧ (x.st = .empty → rejected (.stopContext e) St.CTX_NOT_RESIDENT))
    ∧ (∀ (v : BitVec 8) (head rspDone : BitVec 64),
      let act := Instr.ringActivate v head rspDone
      (s.ctl.mstate = .off → idle act)
      ∧ (s.ctl.mstate ≠ .off →
        (1 < v.toNat → Claims.Does act s fun t => t = s.answered St.OD_VALUE_RANGE)
        ∧ (v = 1 → s.ringOn = false → Claims.Does act s fun t => t.ringOn = true ∧ t.host.taken = 0 ∧ t.host.rspNext = 0 ∧ t.host.held = []
          ∧ t.host.headHeld = s.host.linkUp ∧ t.host.head = (if s.host.linkUp then head.toNat else 0)
          ∧ t.host.rspDone = (if s.host.linkUp then rspDone.toNat else 0) ∧ t.out = .odStatus St.OD_OK :: s.out ∧ t.ctxs = s.ctxs)
        ∧ (v = 1 → s.ringOn = true → (s.host.linkUp = false ∨ s.host.headHeld = true) → Claims.Does act s fun t => t = s.answered St.OD_OK)
        ∧ (v = 1 → s.ringOn = true → s.host.linkUp = true → s.host.headHeld = false → Claims.Does act s fun t =>
          t.host.headHeld = true ∧ t.host.head = head.toNat ∧ t.host.taken = s.host.taken ∧ t.host.rspNext = s.host.rspNext)
        ∧ (v = 0 → Claims.Does act s fun t => t.ringOn = false ∧ t = (if s.ringOn then s.ringStop else s).answered St.OD_OK)))

/-- R130, R131, R314-R316, R318: the CXL.mem window, its snoop filter and decoder, timeouts. A read answers with the window's bytes, zeros for retired memory, and says whether one of its
sectors is poisoned or retired; its lines enter the filter. A write reaches sound memory and no other byte, and nothing of retired memory. An access outside the window, or to a line whose snoop is
outstanding, changes nothing; one that finds the filter full sends snoops. -/
def Obligations.HostMemory : Prop :=
  ∀ (s : State),
    (∀ (offset : BitVec 37) (len : BitVec 7) (env : MemEnv),
      let o := offset.toNat
      let n := len.toNat
      let a := s.odg 0x2405 0x01 + o
      let u := s.meets env
      let blocked := s.windowOk o n = false ∨ ∃ l, l ∈ linesOf o n ∧ s.host.snooping.contains l = true
      let full := (linesOf o n).filterMap s.evictFor
      (blocked → Claims.Does (.hostMemRead offset len env) s fun t => t = s)
      ∧ (¬ blocked → full ≠ [] → Claims.Does (.hostMemRead offset len env) s fun t => t.hbm = s.hbm ∧ t.host.filter = s.host.filter
        ∧ ∀ l, l ∈ full → t.host.snooping.contains l = true)
      ∧ (¬ blocked → full = [] → Claims.Does (.hostMemRead offset len env) s fun t =>
        t.out = .hdm ((List.range n).map fun i => if u.memRetired (a + i) then 0 else u.memByte (a + i))
          ((List.range n).any fun i => decide (u.readStatus (a + i) ≠ 0)) :: u.out
        ∧ t.hbm.mem = u.hbm.mem ∧ (∀ l, l ∈ linesOf o n → t.host.filter.contains l = true)
        ∧ ∀ l, u.host.filter.contains l = true → t.host.filter.contains l = true))
    ∧ (∀ (offset : BitVec 37) (bytes : List Byte) (env : MemEnv),
      let o := offset.toNat
      let n := bytes.length
      let a := s.odg 0x2405 0x01 + o
      let u := s.meets env
      let blocked := s.windowOk o n = false ∨ ∃ l, l ∈ linesOf o n ∧ s.host.snooping.contains l = true
      (blocked → Claims.Does (.hostMemWrite offset bytes env) s fun t => t = s)
      ∧ (¬ blocked → Claims.Does (.hostMemWrite offset bytes env) s fun t => t.host = u.host
        ∧ (Claims.writable u a n → ∀ i, i < n → t.memByte (a + i) = bytes.getD i 0)
        ∧ (∀ x, (x < a ∨ a + n ≤ x) → t.memByte x = u.memByte x)
        ∧ ((∀ i, i < n → u.memRetired (a + i) = true) → t.hbm.mem = u.hbm.mem)))
    ∧ (∀ line : BitVec 33,
      let l := line.toNat
      let late := s.host.snooping.contains l = true ∧ Sparse.get (fun _ => 0) s.host.asked l + s.odg 0x2806 0x08 * 10 ^ 6 ≤ s.ctl.clock
      (s.host.snooping.contains l = false → ∀ d, Claims.Does (.biSnoopResponse line d) s fun t => t = s)
      ∧ (s.host.snooping.contains l = true →
        (∀ d, Claims.Does (.biSnoopResponse line d) s fun t => t.host.filter = s.host.filter.filter (· ≠ l) ∧ t.host.snooping.contains l = false)
        ∧ (∀ d : List Byte, d.length = 64 → s.rt.held = [] → Claims.writable s (s.lineMa l) 64 →
          Claims.Does (.biSnoopResponse line (some d)) s fun t => t.memBytes (s.lineMa l) 64 = d
            ∧ ∀ x, (x < s.lineMa l ∨ s.lineMa l + 64 ≤ x) → t.memByte x = s.memByte x)
        ∧ (s.rt.held = [] → Claims.Does (.biSnoopResponse line none) s fun t => t.hbm.mem = s.hbm.mem))
      ∧ (late → Claims.Does (.coherenceTimeout line) s fun t => t.odg 0x2405 0x05 = s.odg 0x2405 0x05 + 1
          ∧ t.odg 0x2806 0x06 = s.odg 0x2806 0x06 + 1 ∧ t.host.linkUp = false ∧ t.host.filter = [] ∧ t.host.snooping = [])
      ∧ (¬ late → Claims.Does (.coherenceTimeout line) s fun t => t = s))
    ∧ (s.host.linkUp = false → ∀ b, Claims.Does (.hdmDecoderCommit b) s fun t => t = s)
    ∧ (s.host.linkUp = true →
      Claims.Does (.hdmDecoderCommit true) s (fun t => t = { s with host := { s.host with committed := true } })
      ∧ Claims.Does (.hdmDecoderCommit false) s fun t => t.host.committed = false ∧ t.host.filter = [] ∧ t.host.snooping = [])
    ∧ (∀ (q : QRef) (i : Nat) (d : Desc), (s.dq (qKey q)).nextItem = some (i, d) →
      let k := qKey q
      let turn := s.mayStart k (s.dq k) d = true ∧ s.heldStatus k d = 0 ∧ dHost d.bytes = true ∧ dEmpty d.bytes = false
      (turn → Claims.Does (.hostCompletionTimeout q) s fun t => Claims.finished t k i St.DMA_HOST_ERROR
        ∧ t.odg 0x2806 0x04 = s.odg 0x2806 0x04 + 1
        ∧ t.odg 0x2806 0x05 = s.odg 0x2806 0x05 + (if (srcSide d.bytes).sp = 3 then 1 else 0))
      ∧ (¬ turn → Claims.Does (.hostCompletionTimeout q) s fun t => t = s))
    ∧ (∀ q : QRef, (s.dq (qKey q)).nextItem = none → Claims.Does (.hostCompletionTimeout q) s fun t => t = s)

/-- R311, R318, R319, R369: the CXL link goes down and comes up; resets of the host interface leave contexts where they are. -/
def Obligations.HostLinkAndResets : Prop :=
  ∀ (s : State),
    (s.host.linkUp = true → Claims.Does .cxlLinkDown s fun t => t.host.linkUp = false ∧ t.host.headHeld = false ∧ t.host.filter = []
      ∧ t.host.snooping = [] ∧ t.odg 0x2806 0x06 = s.odg 0x2806 0x06 + 1 ∧ t.odg 0x2806 0x01 = 0 ∧ t.odg 0x2806 0x02 = 0
      ∧ t.ringOn = s.ringOn ∧ t.host.rspNext = s.host.rspNext)
    ∧ (s.host.linkUp = false → Claims.Does .cxlLinkDown s fun t => t = s)
    ∧ (∀ (w g : BitVec 8) (head rspDone : BitVec 64),
      let trains := (s.powered = true ∨ s.ctl.change = some .ready) ∧ s.ctl.hostReset = false ∧ s.host.linkUp = false
        ∧ w.toNat ∈ [1, 2, 4, 8] ∧ g.toNat ∈ [16, 32, 64]
      (trains → Claims.Does (.cxlLinkUp w g head rspDone) s fun t => t.host.linkUp = true ∧ t.odg 0x2806 0x01 = w.toNat
        ∧ t.odg 0x2806 0x02 = g.toNat ∧ t.host.taken = s.host.taken
        ∧ (s.ringOn = true → t.host.headHeld = true ∧ t.host.head = head.toNat ∧ t.host.rspDone = Nat.max s.host.rspDone rspDone.toNat)
        ∧ (s.ringOn = false → t.host = { s.host with linkUp := true }))
      ∧ (¬ trains → Claims.Does (.cxlLinkUp w g head rspDone) s fun t => t = s))
    ∧ (let cleared := fun (t : State) => t.ringOn = false ∧ t.host.committed = false ∧ t.host.filter = [] ∧ t.host.rspNext = 0
        ∧ t.host.taken = 0 ∧ t.odg 0x2805 0x02 = 4 ∧ t.odg 0x2805 0x06 = 0xFFFF ∧ ∀ c, (t.ctx c).st = (s.ctx c).st
      (s.ctl.hostReset = false → Claims.Does .functionReset s cleared)
      ∧ (s.ctl.hostReset = true → Claims.Does .functionReset s fun t => t = s)
      ∧ (s.ctl.hostReset = false → s.tap.frozen = none → Claims.Does .hostRstNAssert s fun t =>
          cleared t ∧ t.ctl.hostReset = true ∧ t.host.linkUp = false))
    ∧ ((s.ctl.hostReset = true ∨ s.tap.frozen ≠ none) → Claims.Does .hostRstNAssert s fun t => t = s)
    ∧ (s.tap.frozen = none → Claims.Does .hostRstNRelease s fun t => t = { s with ctl := { s.ctl with hostReset := false } })
    ∧ (s.tap.frozen ≠ none → Claims.Does .hostRstNRelease s fun t => t = s)

/-- R322, R325-R329, Table 15-4: Llynmi sessions, their requests in their order and what is answered, for every operation: opened, closed, read whole or by a snapshot, written
by segments and applied by COMMIT, described; no session, no entry, a malformed datagram, a request that comes early, again or too late; timeouts. What does not
reach the protocol, or is another command's, changes nothing. -/
def Obligations.Sessions : Prop :=
  ∀ (s : State) (m : Lly),
    let ops := [(Instr.openSession m, 0x01), (.closeSession m, 0x02), (.ping m, 0x03), (.read m, 0x10), (.write m, 0x11), (.describe m, 0x12)]
    let calm := fun (t : State) => t.svc = s.svc ∧ t.od = s.od
    (∀ i op, (i, op) ∈ ops →
      ((s.llyHears m = false ∨ lOp m ≠ op) → Claims.Does i s fun t => t = s)
      ∧ (s.llyHears m = true → lOp m = op → llyBad m = true → Claims.Does i s fun t => calm t
        ∧ (if m.bytes.length < 12 then t = s else Claims.replied t m (lSession m) St.LLY_BAD_FRAME []))
      ∧ (s.llyHears m = true → lOp m = op → llyBad m = false → op ≠ 0x01 →
        (s.session (lSession m) = none → Claims.Does i s fun t => calm t ∧ Claims.replied t m (lSession m) St.LLY_NO_SESSION [])
        ∧ ∀ x, s.session (lSession m) = some x →
          let u := s.setSession { x with used := s.ctl.clock }
          let d := (lSeq m + 2 ^ 32 - x.next) % 2 ^ 32
          let dropped := fun (t : State) => t = u.bump 0x1030 0x08 0
          let twice := x.held.any (fun h => decide (lSeq h.2 = lSeq m)) = true ∨ 64 ≤ u.heldCount
          (0 < d → d < 16 → twice → Claims.Does i s dropped)
          ∧ (0 < d → d < 16 → ¬ twice → Claims.Does i s fun t =>
            t.session x.num = some { x with used := s.ctl.clock, held := x.held ++ [(s.ctl.clock, m)] } ∧ t.od = s.od ∧ t.out = s.out)
          ∧ (∀ a, 16 ≤ d → x.answers.find? (fun a => decide (a.seq = lSeq m)) = some a → 2 ^ 32 ≤ d + 16 →
            Claims.Does i s fun t => t.od = (u.bump 0x1030 0x09 0).od ∧ t.svc = u.svc
              ∧ t.out = .lly m.lane m.target m.origin m.port.toNat a.bytes :: s.out)
          ∧ (16 ≤ d → (d + 16 < 2 ^ 32 ∨ x.answers.find? (fun a => decide (a.seq = lSeq m)) = none) → Claims.Does i s dropped)
          ∧ (Claims.lyTurn s m op x = true → 0x10 ≤ op → odRow (lIndex m) (lSub m) = none →
            Claims.Does i s fun t => Claims.replied t m x.num St.OD_NO_ENTRY [])))
    ∧ (s.llyHears m = true → lOp m = 0x01 → llyBad m = false →
      (s.svc.sessions.length < 16 → Claims.Does (.openSession m) s fun t =>
        ∃ x : Session, t.svc.sessions = s.svc.sessions ++ [x] ∧ x.num ≠ 0 ∧ s.session x.num = none ∧ x.next = 1 ∧ x.held = []
          ∧ x.used = s.ctl.clock ∧ t.odg 0x1030 0x07 = s.odg 0x1030 0x07 + 1 ∧ Claims.replied t m x.num St.OD_OK [])
      ∧ (16 ≤ s.svc.sessions.length → Claims.Does (.openSession m) s fun t => calm t ∧ Claims.replied t m 0 St.LLY_NO_SESSION []))
    ∧ (∀ x, Claims.lyTurn s m 0x03 x = true → Claims.Does (.ping m) s fun t =>
        Claims.replied t m x.num St.OD_OK [] ∧ t.od = (Claims.lyState s x).od
        ∧ ∃ y, t.session x.num = some y ∧ y.next = (x.next + 1) % 2 ^ 32 ∧ y.used = s.ctl.clock)
    ∧ (∀ x, Claims.lyTurn s m 0x02 x = true → Claims.Does (.closeSession m) s fun t =>
        Claims.replied t m x.num St.OD_OK [] ∧ t.session x.num = none ∧ t.od = (Claims.lyState s x).od)
    ∧ (∀ x row, Claims.lyTurn s m 0x10 x = true → odRow (lIndex m) (lSub m) = some row →
        let live := ((Claims.lyState s x).odRead (lIndex m) (lSub m)).getD []
        let reads := fun (whole : List Byte) => Claims.Does (.read m) s fun t => t.od = (Claims.lyState s x).od
          ∧ (if row.typ.size < lOffset m + lLength m then Claims.replied t m x.num St.OD_SIZE_MISMATCH []
             else Claims.replied t m x.num St.OD_OK ((whole.drop (lOffset m)).take (lLength m)))
        (lOffset m = 0 → reads live)
        ∧ (∀ b, lOffset m ≠ 0 → x.snap = some (lIndex m, lSub m, b) → reads b)
        ∧ (lOffset m ≠ 0 → (∀ b, x.snap ≠ some (lIndex m, lSub m, b)) → reads live))
    ∧ (∀ x row, Claims.lyTurn s m 0x11 x = true → odRow (lIndex m) (lSub m) = some row →
        let u := Claims.lyState s x
        let off := lOffset m
        let n := lLength m
        let stage := fun (t : State) (g : Option Staging) => ∀ y, t.session x.num = some y → y.stage = g
        (segmentOk row off n = false → Claims.Does (.write m) s fun t => t.od = u.od ∧ stage t none
          ∧ Claims.replied t m x.num (if u.mayWrite row.acc then St.OD_SIZE_MISMATCH else St.OD_ACCESS_REFUSED) [])
        ∧ (segmentOk row off n = true → u.stageFor x m row = none → Claims.Does (.write m) s fun t => t.od = u.od ∧ stage t none
          ∧ Claims.replied t m x.num St.LLY_SEGMENT_ORDER [])
        ∧ (∀ g, segmentOk row off n = true → u.stageFor x m row = some g →
          let h := { g with bytes := putBytes g.bytes off ((lData m).take n), next := off + n }
          (lCommit m = false → Claims.Does (.write m) s fun t => t.od = u.od ∧ stage t (some h) ∧ Claims.replied t m x.num St.OD_OK [])
          ∧ (lCommit m = true → (∀ e k, row.typ ≠ .arr e k) →
            let r := u.odWrite (lIndex m) (lSub m) 0 h.bytes
            Claims.Does (.write m) s fun t => t.od = r.1.od ∧ stage t none ∧ Claims.replied t m x.num r.2 [])
          ∧ (∀ e k, lCommit m = true → row.typ = .arr e k →
            let r := u.odWrite (lIndex m) (lSub m) h.first ((h.bytes.drop h.first).take (h.next - h.first))
            Claims.Does (.write m) s fun t => t.od = r.1.od ∧ stage t none ∧ Claims.replied t m x.num r.2 [])))
    ∧ (∀ x row, Claims.lyTurn s m 0x12 x = true → odRow (lIndex m) (lSub m) = some row → Claims.Does (.describe m) s fun t =>
        Claims.replied t m x.num St.OD_OK (describeBytes row) ∧ t.od = (Claims.lyState s x).od)
    ∧ (s.llyHears m = true → llyBad m = true → Claims.Does (.malformedDatagram m) s fun t => calm t
        ∧ (if m.bytes.length < 12 then t = s else Claims.replied t m (lSession m) St.LLY_BAD_FRAME []))
    ∧ ((s.llyHears m = false ∨ llyBad m = false) → Claims.Does (.malformedDatagram m) s fun t => t = s)
    ∧ (∀ n : BitVec 32,
        (s.session n.toNat = none → Claims.Does (.sessionTimeout n) s (fun t => t = s) ∧ ∀ seq, Claims.Does (.heldRequestTimeout n seq) s fun t => t = s)
        ∧ ∀ x, s.session n.toNat = some x →
          (x.used + 10 ^ 10 ≤ s.ctl.clock → Claims.Does (.sessionTimeout n) s fun t => t.session x.num = none ∧ t.od = s.od)
          ∧ (s.ctl.clock < x.used + 10 ^ 10 → Claims.Does (.sessionTimeout n) s fun t => t = s)
          ∧ ∀ seq : BitVec 32,
            let late := fun (h : Nat × Lly) => decide (lSeq h.2 = seq.toNat ∧ h.1 + 10 ^ 9 ≤ s.ctl.clock)
            (x.held.any late = true → Claims.Does (.heldRequestTimeout n seq) s fun t => t.odg 0x1030 0x08 = s.odg 0x1030 0x08 + 1
              ∧ t.session x.num = some { x with held := x.held.filter fun h => !late h })
            ∧ (x.held.any late = false → Claims.Does (.heldRequestTimeout n seq) s fun t => t = s))

/-- R10, R13, R322, R325, R330, R331, R365, R368: writes of the dictionary with their status, whole or not at all; the dictionary window in the host's BAR0 with its selectors, status words and
apertures; echoes and neighbour discovery on a service lane; a lane down and up. -/
def Obligations.DictionaryPaths : Prop :=
  ∀ (s : State),
    (∀ (index off : BitVec 16) (sub : BitVec 8) (bytes : List Byte),
      let e := index.toNat * 256 + sub.toNat
      let st := s.odStatus index.toNat sub.toNat off.toNat bytes
      let plain := e ∉ [0x111002, 0x111004, 0x111201, 0x111202, 0x111203, 0x111204, 0x111301, 0x111302, 0x112001, 0x200004, 0x200102, 0x200104, 0x220001, 0x220005, 0x250005,
        0x260001, 0x260002, 0x260005, 0x260401, 0x280201, 0x280509, 0x310008, 0x320001] ∧ ¬ (0x102001 ≤ e ∧ e ≤ 0x102010) ∧ ¬ (0x251001 ≤ e ∧ e ≤ 0x251040)
      (s.ctl.mstate = .off → Claims.Does (.odWrite index sub off bytes) s fun t => t = s)
      ∧ (s.ctl.mstate ≠ .off → st ≠ 0 → Claims.Does (.odWrite index sub off bytes) s fun t => t = s.answered st)
      ∧ (∀ row, s.ctl.mstate ≠ .off → st = 0 → plain → odRow index.toNat sub.toNat = some row →
        let n := row.typ.shape.2
        Claims.Does (.odWrite index sub off bytes) s fun t =>
          t = (s.odPut index.toNat sub.toNat (off.toNat / n) (elemsOf n bytes)).answered St.OD_OK)
      ∧ (odRow index.toNat sub.toNat = none → st = St.OD_NO_ENTRY)
      ∧ (∀ row, odRow index.toNat sub.toNat = some row →
        (s.mayWrite row.acc = false → st = St.OD_ACCESS_REFUSED)
        ∧ (s.mayWrite row.acc = true → sizeOk row.typ off.toNat bytes.length = false → st = St.OD_SIZE_MISMATCH)
        ∧ (row.acc = .ro → s.mayWrite row.acc = false)))
    ∧ (s.host.linkUp = false → ∀ (k : BitVec 4) (v : BitVec 32) (off : BitVec 21) (len : BitVec 4) (bytes : List Byte), ∀ i,
        i ∈ [Instr.apertureSelect k v, .apertureRead off len, .apertureWrite off bytes] → Claims.Does i s fun t => t = s)
    ∧ (s.host.linkUp = true →
      let status := fun (t : State) (n : Nat) => t.odg 0x1021 (n + 1) % 65536
      let count := fun (t : State) (n : Nat) => t.odg 0x1021 (n + 1) / 65536
      (∀ (k : BitVec 4) (v : BitVec 32),
        let n := k.toNat
        (v.toNat < 2 ^ 24 → Claims.Does (.apertureSelect k v) s fun t =>
          t.selected n = (v.toNat % 65536, v.toNat / 65536) ∧ t.ap n = apNone
          ∧ (odRow (v.toNat % 65536) (v.toNat / 65536) = none → status t n = St.OD_NO_ENTRY)
          ∧ (odRow (v.toNat % 65536) (v.toNat / 65536) ≠ none → status t n = status s n))
        ∧ (2 ^ 24 ≤ v.toNat → Claims.Does (.apertureSelect k v) s fun t =>
          t.selected n = s.selected n ∧ status t n = St.OD_RESERVED_NONZERO ∧ t.svc = s.svc))
      ∧ (∀ (off : BitVec 21) (len : BitVec 4),
        let blk := off.toNat / 65536
        let o := off.toNat % 65536
        let read := Instr.apertureRead off len
        (blk = 0 → Claims.Does read s fun t => t = s)
        ∧ (blk = 1 → Claims.Does read s fun t => t = { s with out := .aperture (sliceBytes s.windowWords o len.toNat) :: s.out })
        ∧ (18 ≤ blk → Claims.Does read s fun t => t = { s with out := .aperture (List.replicate len.toNat 0) :: s.out })
        ∧ (2 ≤ blk → blk < 18 →
          let n := blk - 2
          let live := (s.odRead (s.selected n).1 (s.selected n).2).getD []
          (odRow (s.selected n).1 (s.selected n).2 = none → Claims.Does read s fun t =>
            t.out = .aperture (List.replicate len.toNat 0) :: s.out ∧ status t n = St.OD_NO_ENTRY ∧ t.svc = s.svc)
          ∧ (∀ row, odRow (s.selected n).1 (s.selected n).2 = some row →
            ((row.typ.size ≤ 8 ∨ o = 0 ∨ (s.ap n).snap = none) → Claims.Does read s fun t =>
              t.out = .aperture (sliceBytes live o len.toNat) :: s.out ∧ status t n = St.OD_OK
              ∧ (8 < row.typ.size → o = 0 → len ≠ 0 → (t.ap n).snap = some live))
            ∧ (∀ b, 8 < row.typ.size → o ≠ 0 → (s.ap n).snap = some b → Claims.Does read s fun t =>
              t.out = .aperture (sliceBytes b o len.toNat) :: s.out ∧ status t n = St.OD_OK ∧ t.svc = s.svc))))
      ∧ (∀ (off : BitVec 21) (bytes : List Byte),
        let blk := off.toNat / 65536
        let o := off.toNat % 65536
        let write := Instr.apertureWrite off bytes
        ((blk = 0 ∨ (blk = 1 ∧ 64 ≤ o ∧ o < 128)) → Claims.Does write s fun t => t = s)
        ∧ ((18 ≤ blk ∨ (blk = 1 ∧ 128 ≤ o)) → Claims.Does write s fun t => t = s.bump 0x1020 0x11 0)
        ∧ (blk = 1 → o < 64 → ¬ (o % 4 = 0 ∧ bytes.length = 4) → Claims.Does write s fun t =>
            status t (o / 4) = St.OD_SIZE_MISMATCH ∧ t.selected (o / 4) = s.selected (o / 4) ∧ t.svc = s.svc)
        ∧ (∀ (k : BitVec 4) (v : BitVec 32), blk = 1 → o = 4 * k.toNat → bytes = leBytes 4 v.toNat → exec write s = exec (.apertureSelect k v) s)
        ∧ (2 ≤ blk → blk < 18 →
          let n := blk - 2
          let e := s.selected n
          (odRow e.1 e.2 = none → Claims.Does write s fun t => status t n = St.OD_NO_ENTRY ∧ t.svc = s.svc ∧ t.hbm = s.hbm)
          ∧ (∀ row, odRow e.1 e.2 = some row →
            let scalar := fun (size : Nat) => o % size = 0 ∧ bytes.length = size
            let applies := Claims.Does write s fun t =>
              let r := s.odWrite e.1 e.2 o bytes
              t = r.1.apStatus n r.2 (decide (r.2 = St.OD_OK)) ∧ status t n = r.2 % 65536
              ∧ (r.2 = St.OD_OK → count t n = (count r.1 n + 1) % 65536)
            let mismatch := Claims.Does write s fun t => status t n = St.OD_SIZE_MISMATCH ∧ t.svc = s.svc ∧ t.hbm = s.hbm
            let staged := putBytes ((s.ap n).stage.getD ((s.odRead e.1 e.2).getD [])) o bytes
            (s.mayWrite row.acc = false → Claims.Does write s fun t => status t n = St.OD_ACCESS_REFUSED ∧ t.svc = s.svc ∧ t.hbm = s.hbm)
            ∧ (s.mayWrite row.acc = true →
              (∀ x, row.typ = .one x → (if o = 0 ∧ bytes.length = x.size then applies else mismatch))
              ∧ (∀ x k, row.typ = .arr x k → (if scalar x.size then applies else mismatch))
              ∧ ((∀ x, row.typ ≠ .one x) → (∀ x k, row.typ ≠ .arr x k) →
                ((bytes = [] ∨ row.typ.size < o + bytes.length) → mismatch)
                ∧ (bytes ≠ [] → o + bytes.length < row.typ.size → Claims.Does write s fun t =>
                  (t.ap n).stage = some staged ∧ status t n = St.OD_OK ∧ count t n = count s n % 65536)
                ∧ (bytes ≠ [] → o + bytes.length = row.typ.size → Claims.Does write s fun t =>
                  let r := (s.setAp n { s.ap n with stage := none }).odWrite e.1 e.2 0 staged
                  t = r.1.apStatus n r.2 (decide (r.2 = St.OD_OK)))))))))
    ∧ (∀ (lane : Bool) (origin target : BitVec 128) (payload : List Byte),
      (s.laneHears lane target = true →
        Claims.Does (.icmpv6Echo lane origin target payload) s (fun t => t = { s with out := .echoReply lane target origin payload :: s.out })
        ∧ Claims.Does (.neighbourDiscovery lane origin target) s fun t => t = { s with out := .neighbour lane origin target :: s.out })
      ∧ (s.laneHears lane target = false →
        Claims.Does (.icmpv6Echo lane origin target payload) s (fun t => t = s)
        ∧ Claims.Does (.neighbourDiscovery lane origin target) s fun t => t = s)
      ∧ (s.laneUp lane = true → Claims.Does (.serviceLaneDown lane) s fun t => t.laneUp lane = false ∧ t.laneUp (!lane) = s.laneUp (!lane)
          ∧ t.odg 0x2102 0x02 = s.odg 0x2102 0x02 + 1 ∧ t.svc = s.svc)
      ∧ (s.laneUp lane = false → Claims.Does (.serviceLaneDown lane) s fun t => t = s)
      ∧ (s.ctl.mstate ≠ .off → s.laneUp lane = false → Claims.Does (.serviceLaneUp lane) s fun t =>
          t.laneUp lane = true ∧ t.laneUp (!lane) = s.laneUp (!lane) ∧ t = s.odp 0x1030 0x05 0 (t.odg 0x1030 0x05))
      ∧ ((s.ctl.mstate = .off ∨ s.laneUp lane = true) → Claims.Does (.serviceLaneUp lane) s fun t => t = s))

/-- R205, R332-R334, R372, R395, Table 15-7: state commands with their status in every state, the changes they begin, how a change takes effect at its boundary, how a start-up
ends, performance levels. While the module is off nothing of this has an effect. -/
def Obligations.StateCommands : Prop :=
  ∀ (s : State) (b : Bool),
    let status := fun (t : State) => t.odg 0x2001 0x03
    let all := [(Instr.stateCommandStandby b, ModState.standby), (.stateCommandReady, .ready), (.stateCommandRun, .run),
      (.stateCommandService, .service)]
    let ends := fun (i : Instr) (st : Nat) => Claims.Does i s fun t => t = (s.odp 0x2001 0x03 0 st).answered st
    let refused := fun (i : Instr) => ends i St.STATE_REFUSED
    let begins := fun (i : Instr) (tgt : ModState) => Claims.Does i s fun t => t = ({ s.odp 0x2001 0x03 0 St.OD_OK with
      ctl := { s.ctl with change := some tgt, changeFrom := s.time.slotDone, commanded := true } } : State).answered St.OD_OK
    (∀ i tgt, (i, tgt) ∈ all → s.ctl.mstate = .off → Claims.Does i s fun t => t = s)
    ∧ (∀ i tgt, (i, tgt) ∈ all → s.ctl.mstate ≠ .off → s.ctl.change ≠ none → ends i St.STATE_BUSY)
    ∧ (∀ i tgt, (i, tgt) ∈ all → s.ctl.mstate = tgt → s.ctl.change = none → ends i St.OD_OK)
    ∧ (s.ctl.change = none → s.ctl.mstate = .ready →
      begins .stateCommandRun .run
      ∧ (s.anyResident = false → begins .stateCommandService .service ∧ begins (.stateCommandStandby b) .standby)
      ∧ (s.anyResident = true → refused .stateCommandService ∧ refused (.stateCommandStandby b)))
    ∧ (s.ctl.change = none → s.ctl.mstate = .run →
      (s.anyRunning = false → begins .stateCommandReady .ready) ∧ (s.anyRunning = true → refused .stateCommandReady)
      ∧ refused .stateCommandService ∧ refused (.stateCommandStandby b))
    ∧ (s.ctl.change = none → s.ctl.mstate = .service → begins .stateCommandReady .ready ∧ refused .stateCommandRun
      ∧ (s.anyResident = false → begins (.stateCommandStandby b) .standby) ∧ (s.anyResident = true → refused (.stateCommandStandby b)))
    ∧ (s.ctl.change = none → s.ctl.mstate = .safe →
      (s.causeCleared b = true → begins (.stateCommandStandby b) .standby) ∧ (s.causeCleared b = false → refused (.stateCommandStandby b))
      ∧ refused .stateCommandReady ∧ refused .stateCommandRun ∧ refused .stateCommandService)
    ∧ (s.ctl.change = none → s.ctl.mstate = .standby →
      refused .stateCommandRun ∧ refused .stateCommandService ∧ (s.odg 0x1110 0x06 ≠ 2 → refused .stateCommandReady)
      ∧ (s.odg 0x1110 0x06 = 2 → Claims.Does .stateCommandReady s fun t => t.ctl.mstate = .standby ∧ t.ctxs = s.ctxs
          ∧ t.out.head? = some (.odStatus St.OD_OK)
          ∧ (if s.imageCheck.1 ≠ 0 then status t = s.imageCheck.1 ∧ t.ctl.change = none
            else if s.rowThree.2 ≠ 0 then status t = s.rowThree.2 ∧ t.ctl.change = none
            else status t = St.OD_OK ∧ t.ctl.change = some .ready)))
    ∧ ((s.ctl.change = none ∨ s.ctl.mstate = .standby) → Claims.Does .stateChangeComplete s fun t => t = s)
    ∧ (∀ tgt, s.ctl.change = some tgt → s.ctl.mstate ≠ .standby →
        (tgt = .standby → Claims.Does .stateChangeComplete s fun t => t.ctl.mstate = .standby ∧ t.ctl.change = none ∧ t.svc.sessions = []
          ∧ (s.powered = true → t.hbm.mem = [] ∧ t.files = [] ∧ t.host.linkUp = false))
        ∧ (tgt ≠ .standby → s.atBoundary = true → Claims.Does .stateChangeComplete s fun t =>
          t = { s with ctl := { s.ctl with mstate := tgt, change := none } })
        ∧ (tgt ≠ .standby → s.atBoundary = false → Claims.Does .stateChangeComplete s fun t => t = s))
    ∧ (∀ f : StartFinding,
        let ends := s.ctl.mstate = .standby ∧ s.ctl.change = some .ready
        (ends → Claims.Does (.startUpComplete f) s fun t =>
          t.ctl.mstate = .ready ∧ t.ctl.change = none ∧ t.hbm.mem = [] ∧ t.hbm.poison = [] ∧ status t = St.OD_OK
          ∧ (∀ k, k ∈ f.failed → t.odg 0x2400 0x03 k.toNat = 1)
          ∧ (s.odg 0x2110 0x03 = 1 → t.time.state = .locked ∧ t.time.fabric = 0 ∧ t.time.everLock = true))
        ∧ (¬ ends → Claims.Does (.startUpComplete f) s fun t => t = s))
    ∧ (∀ v : BitVec 8,
        (s.ctl.mstate = .off → Claims.Does (.performanceLevelCommand v) s fun t => t = s)
        ∧ (s.ctl.mstate ≠ .off → v.toNat ≤ 7 → Claims.Does (.performanceLevelCommand v) s fun t => t.odg 0x2001 0x04 = v.toNat
          ∧ t.out = .odStatus St.OD_OK :: s.out
          ∧ (if s.time.everLock then t.ctl.levelDue = some v.toNat ∧ t.odg 0x2001 0x05 = s.odg 0x2001 0x05
             else t.ctl.levelDue = none ∧ t.odg 0x2001 0x05 = v.toNat))
        ∧ (s.ctl.mstate ≠ .off → 7 < v.toNat → Claims.Does (.performanceLevelCommand v) s fun t => t = s.answered St.OD_VALUE_RANGE))

/-- R341-R349, Tables 16-2 and 16-3, 19-8: current limits, the ramp limiter and ballast, droop, sustained stretch, the cap controller, disagreement, and the core clock they
leave. Each acts on powered dies, and without its condition on the clock changes nothing. -/
def Obligations.PowerLimits : Prop :=
  ∀ (s : State) (die : BitVec 2) (rail : BitVec 5) (region : BitVec 6),
    let n := die.toNat
    let r := rail.toNat
    let g := region.toNat
    let stretch := s.odg 0x2003 0x04
    let ilim := fun (t : State) => Sparse.get (fun _ => 1200) t.pow.fIlim n
    let f := ilim s
    let stages := fun (t : State) => (t.pow.fCap, t.pow.pace, t.pow.rate)
    (100 ≤ s.fEff n ∧ s.fEff n % 25 = 0 ∧ ∀ x, x ∈ s.fTerms n → s.fEff n ≤ Nat.max 100 x)
    ∧ (r < 27 → ∀ peak : BitVec 16,
      let starts := (s.powered = true ∨ 25 ≤ r) ∧ s.ctl.mstate ≠ .off ∧ ∀ e, e ∈ s.pow.limited → e.1 ≠ r
      (starts → Claims.Does (.currentLimit rail peak) s fun t =>
        (∃ v, t.pow.limited = s.pow.limited ++ [(r, v, s.ctl.clock)]) ∧ t.odg 0x2006 0x01 r = s.odg 0x2006 0x01 r + 1 ∧ t.throttled = true
        ∧ ∀ k, k < 4 → r ∈ dieRails k → t.pow.ballast.contains k = false)
      ∧ (¬ starts → Claims.Does (.currentLimit rail peak) s fun t => t = s))
    ∧ (r < 27 → Claims.Does (.currentLimitRelease rail) s fun t => t = { s with pow := { s.pow with limited := t.pow.limited } }
      ∧ ∀ e, e ∈ t.pow.limited ↔ e ∈ s.pow.limited ∧ (e.1 ≠ r ∨ s.ctl.clock < e.2.2 + 1000000))
    ∧ (s.powered = false → ∀ i,
        i ∈ [Instr.rampStep die true true, .rampStep die true false, .rampStep die false true, .rampStep die false false, .droopDetect region,
          .sustainedStretchCheck die] → Claims.Does i s fun t => t = s)
    ∧ (s.powered = true →
      (s.fRamp n < s.fOther n → Claims.Does (.rampStep die true false) s fun t => t = s.setRamp n (Nat.min (s.fRamp n + 25) (s.fOther n)))
      ∧ (s.fOther n ≤ s.fRamp n → Claims.Does (.rampStep die true false) s fun t => t = s)
      ∧ Claims.Does (.rampStep die false false) s (fun t => t = s)
      ∧ (s.odg 0x2004 0x05 n = 0 → s.dieLimited n = false → Claims.Does (.rampStep die true true) s fun t => t.pow.ballast.contains n = true)
      ∧ ((s.odg 0x2004 0x05 n ≠ 0 ∨ s.dieLimited n = true) → Claims.Does (.rampStep die true true) s fun t => t.pow.ballast.contains n = false)
      ∧ Claims.Does (.rampStep die false true) s fun t => t.pow.ballast.contains n = false ∧ t.od = s.od)
    ∧ (s.powered = true → bit stretch g = false → Claims.Does (.droopDetect region) s fun t => bit (t.odg 0x2003 0x04) g = true
      ∧ (∀ j, j ≠ g → bit (t.odg 0x2003 0x04) j = bit stretch j) ∧ t.droopStart g = s.ctl.clock
      ∧ t.odg 0x2006 0x02 g = s.odg 0x2006 0x02 g + 1 ∧ t.throttled = true)
    ∧ (bit stretch g = true → Claims.Does (.droopDetect region) s fun t => t = s)
    ∧ (let stretched := bit stretch g = true ∧ 128000 ≤ s.fEff (g / 16) * (s.ctl.clock - s.droopStart g)
      (stretched → Claims.Does (.droopRelease region) s fun t => bit (t.odg 0x2003 0x04) g = false
        ∧ (∀ j, j ≠ g → bit (t.odg 0x2003 0x04) j = bit stretch j) ∧ (g, s.droopStart g, s.ctl.clock) ∈ t.pow.droops)
      ∧ (¬ stretched → Claims.Does (.droopRelease region) s fun t => t = s))
    ∧ (s.powered = true →
      let hit := ∃ k, k < 16 ∧ s.overStretched (16 * n + k) = true
      let ago := s.ctl.clock - Sparse.get (fun _ => 0) s.pow.ilimAt n
      let check := Instr.sustainedStretchCheck die
      (hit → f = 1200 → Claims.Does check s fun t => ilim t = 1100 ∧ t.odg 0x2006 0x03 n = s.odg 0x2006 0x03 n + 1 ∧ t.fRamp n ≤ 1100)
      ∧ (hit → f ≠ 1200 → 1000000 ≤ ago → Claims.Does check s fun t => ilim t = Nat.max 100 (f - 100) ∧ t.od = s.od)
      ∧ (¬ hit → f < 1200 → 10000000 ≤ ago → Claims.Does check s fun t => ilim t = Nat.min 1200 (f + 100) ∧ t.od = s.od)
      ∧ ((hit → f ≠ 1200 ∧ ago < 1000000) → (¬ hit → 1200 ≤ f ∨ ago < 10000000) → Claims.Does check s fun t => t = s))
    ∧ (∀ m : PowerReading, s.powered = false → Claims.Does (.capEvaluation m) s fun t => t = s)
    ∧ (∀ m : PowerReading, s.powered = true →
      let cap := 10 * s.capNow
      let v := s.judged m.mean100us m.estimate
      let above := s.sinceWhen s.pow.overAt (decide (cap < v))
      let under := s.sinceWhen s.pow.underAt (decide (100 * v < 90 * cap))
      let starts := (above ≠ 0 ∧ above + 8000000 ≤ s.ctl.clock + 1) ∨ 99 * cap ≤ 100 * s.judged m.mean1s m.estimate
      let undoes := under ≠ 0 ∧ under + 1000000 ≤ s.ctl.clock + 1 ∧ s.capStages ≠ 0 ∧ s.pow.undoAt + 100000 ≤ s.ctl.clock
      let noted := fun (t : State) => t.pow.overAt = above ∧ t.pow.underAt = under ∧ t.pow.stuck = (decide (cap < v) && s.pow.lower.isNone)
        ∧ t.odg 0x2006 0x06 = s.odg 0x2006 0x06 + b2n (decide (cap < v) && s.pow.lower.isNone && !s.pow.stuck)
      let reduced := fun (t : State) => t.pow.reducing = true ∧ (∀ p, s.pow.lower = some p → stages t = (p.fCap, p.pace, p.rate))
        ∧ (s.pow.lower = none → stages t = stages s)
      (s.pow.reducing = true → 95 * cap < 100 * v → Claims.Does (.capEvaluation m) s fun t => noted t ∧ reduced t)
      ∧ (s.pow.reducing = true → 100 * v ≤ 95 * cap → Claims.Does (.capEvaluation m) s fun t =>
        noted t ∧ t.pow.reducing = false ∧ stages t = stages s)
      ∧ (s.pow.reducing = false → starts → Claims.Does (.capEvaluation m) s fun t =>
        noted t ∧ reduced t ∧ t.odg 0x2006 0x05 = s.odg 0x2006 0x05 + 1)
      ∧ (s.pow.reducing = false → ¬ starts → undoes → Claims.Does (.capEvaluation m) s fun t => noted t ∧ t.pow.reducing = false
        ∧ stages t = (s.pow.higher.fCap, s.pow.higher.pace, s.pow.higher.rate) ∧ t.pow.undoAt = s.ctl.clock)
      ∧ (s.pow.reducing = false → ¬ starts → ¬ undoes → Claims.Does (.capEvaluation m) s fun t =>
        noted t ∧ t.pow.reducing = false ∧ stages t = stages s))
    ∧ (r < 28 →
      let odd := bit (s.odg 0x2002 0x05) r
      let long := 10000 ≤ s.oddMs r
      let told := fun ended => Instr.estimateDisagreement rail ended
      (∀ ended, s.ctl.mstate = .off → Claims.Does (told ended) s fun t => t = s)
      ∧ (s.ctl.mstate ≠ .off →
        (odd = false → Claims.Does (told true) s (fun t => t = s) ∧ Claims.Does (told false) s fun t => bit (t.odg 0x2002 0x05) r = true
          ∧ t.odg 0x2006 0x07 = s.odg 0x2006 0x07 + 1 ∧ t.oddMs r = 0)
        ∧ (odd = true →
          Claims.Does (told true) s (fun t => bit (t.odg 0x2002 0x05) r = false ∧ (long → bit (t.odg 0x3001 0x08) 2 = true))
          ∧ Claims.Does (told false) s fun t => t.odg 0x2002 0x05 = s.odg 0x2002 0x05 ∧ (long → bit (t.odg 0x3001 0x08) 2 = true)
            ∧ (¬ long → t = s))))

/-- R350-R352, R361-R366, R405, Tables 16-4, 17-1 and 17-3: the thermal throttle, trigger lines, clock stops and wakes, crossing resets. -/
def Obligations.HeatAndClocks : Prop :=
  ∀ (s : State),
    (∀ (die : BitVec 2) (temp junction : Int), s.powered = false → Claims.Does (.thermalEvaluation die temp junction) s fun t => t = s)
    ∧ (∀ (die : BitVec 2) (temp junction : Int), s.powered = true →
      let n := die.toNat
      let slope := s.slopeAt n temp
      let step := s.odg 0x2004 0x05 n
      let calls := stepCalled temp slope junction
      let cool := temp ≤ pdEntry step - 32 ∧ slope ≤ 32 ∧ junction ≤ jnEntry step - 32
      let was := fun (t : State) => Sparse.get (fun _ => 0) t.pow.coolOk n
      let since := if was s = 0 then s.ctl.clock + 1 else was s
      let shown := fun (t : State) => t.odg 0x2004 0x01 n = uNat 16 junction ∧ t.odg 0x2004 0x02 n = uNat 16 temp
        ∧ t.odg 0x2004 0x03 n = uNat 16 slope
      let evaluate := Instr.thermalEvaluation die temp junction
      (step < calls → Claims.Does evaluate s fun t => shown t ∧ t.odg 0x2004 0x05 n = calls ∧ t.odg 0x2006 0x04 n = s.odg 0x2006 0x04 n + 1
        ∧ t.throttled = true ∧ t.pow.ballast.contains n = false ∧ was t = 0)
      ∧ (calls ≤ step → step ≠ 0 → cool → since + 1000000 ≤ s.ctl.clock + 1 → Claims.Does evaluate s fun t =>
        shown t ∧ t.odg 0x2004 0x05 n = step - 1 ∧ was t = 0)
      ∧ (calls ≤ step → step ≠ 0 → cool → s.ctl.clock + 1 < since + 1000000 → Claims.Does evaluate s fun t =>
        shown t ∧ t.odg 0x2004 0x05 n = step ∧ was t = since)
      ∧ (calls ≤ step → step ≠ 0 → ¬ cool → Claims.Does evaluate s fun t => shown t ∧ t.odg 0x2004 0x05 n = step ∧ was t = 0)
      ∧ (calls ≤ step → step = 0 → Claims.Does evaluate s fun t => shown t ∧ t.odg 0x2004 0x05 n = 0))
    ∧ (∀ (line : BitVec 2) (rising : Bool),
      let k := line.toNat
      let o := s.odg 0x2101 0x02 k
      let hears := s.ctl.mstate ≠ .off ∧ s.tap.frozen = none
      let low := ∀ a, s.agoOf s.clk.fellAt k = some a → 3 ≤ a
      let event := bit s.clk.mode k = true ∨ (rising = true ∧ low)
      let soon := ∃ a, s.agoOf s.clk.trigAt k = some a ∧ a < 8
      let act := Instr.triggerEvent line rising
      let counted := fun (t : State) => t.odg 0x2101 0x03 k = s.odg 0x2101 0x03 k + 1
      (¬ hears → Claims.Does act s fun t => t = s)
      ∧ (hears → bit s.clk.mode k = false → rising = false → Claims.Does act s fun t =>
        t = { s with clk := { s.clk with fellAt := t.clk.fellAt } } ∧ t.agoOf t.clk.fellAt k = some 0)
      ∧ (hears → bit s.clk.mode k = false → rising = true → ¬ low → Claims.Does act s fun t => t = s)
      ∧ (hears → event → ¬ soon → Claims.Does act s fun t => counted t ∧ t.odg 0x2101 0x05 k = s.odg 0x2101 0x05 k
        ∧ t.odg 0x2101 0x04 k ≤ s.time.fabric + 1 ∧ s.time.fabric ≤ t.odg 0x2101 0x04 k + 1
        ∧ (o ≠ 0xFFFF → s.powered = true → Claims.sound s o → t.objVal o = signalVal (s.objTyp o) (s.objVal o) 1)
        ∧ ((o = 0xFFFF ∨ s.powered = false) → t.sync = s.sync))
      ∧ (hears → event → soon → Claims.Does act s fun t => t.odg 0x2101 0x05 k = s.odg 0x2101 0x05 k + 1
        ∧ (counted t ∨ (t.odg 0x2101 0x03 k = s.odg 0x2101 0x03 k ∧ t.sync = s.sync))))
    ∧ (∀ (domain : BitVec 5) (inst : BitVec 6), inst.toNat < domainInstances domain.toNat →
      let key := clockKey domain.toNat inst.toNat
      let stops := s.mayStop domain.toNat inst.toNat = true ∧ s.clk.stopped.contains key = false
      (stops → Claims.Does (.clockStop domain inst) s fun t => t = { s with clk := { s.clk with stopped := key :: s.clk.stopped } })
      ∧ (¬ stops → Claims.Does (.clockStop domain inst) s fun t => t = s)
      ∧ Claims.Does (.clockWake domain inst) s fun t => t.clk.stopped.contains key = false
        ∧ (∀ j, j ≠ key → t.clk.stopped.contains j = s.clk.stopped.contains j) ∧ t.clk.mode = s.clk.mode ∧ t.hbm = s.hbm)
    ∧ (∀ (group : BitVec 4) (inst : BitVec 6), inst.toNat < groupInstances group.toNat →
      let g := group.toNat
      (s.ctl.mstate = .off → Claims.Does (.crossingReset group inst) s fun t => t = s)
      ∧ (s.ctl.mstate ≠ .off → Claims.Does (.crossingReset group inst) s fun t =>
        t.odg 0x2102 0x02 = s.odg 0x2102 0x02 + (if g = 0 then 0 else 1) ∧ t.hbm = s.hbm ∧ t.ctxs = s.ctxs
        ∧ ∀ k, k ∈ t.clk.stopped ↔ k ∈ s.clk.stopped ∧ ¬ (k / 64 ∈ groupDomains g ∧ groupHits g inst.toNat (k / 64) (k % 64) = true)))

/-- R368, R369, R396, R405, R417: the input appears and is lost, and MOD_RST_N holds the module and lets it go. -/
def Obligations.StartsAndResets : Prop :=
  ∀ (s : State),
    let starts := fun (i : Instr) => Claims.Does i s fun t => t.ctl.mstate = .standby ∧ t.ctl.change = none ∧ t.ctl.inputUp = true
      ∧ t.ctl.resetHeld = false ∧ t.herd.boot = (s.herd.boot + 1) % 65536 ∧ t.sec.fuses = s.sec.fuses ∧ t.hbm.mem = [] ∧ t.ctxs = []
      ∧ t.current = none ∧ t.time = timeReset ∧ t.pending = s.pending ∧ t.host.mem = s.host.mem
    let holds := fun (t : State) => t.ctl.mstate = .off ∧ t.ctxs = [] ∧ t.files = [] ∧ t.hbm.mem = [] ∧ t.svc.sessions = [] ∧ t.host.linkUp = false
      ∧ t.sec.fuses = s.sec.fuses ∧ t.pending = s.pending
    (s.ctl.mstate = .off → s.ctl.inputUp = false → s.ctl.resetHeld = false → starts .coldStart)
    ∧ (s.ctl.mstate = .off → s.ctl.inputUp = false → s.ctl.resetHeld = true → Claims.Does .coldStart s fun t =>
        t = { s with ctl := { s.ctl with inputUp := true } })
    ∧ ((s.ctl.mstate ≠ .off ∨ s.ctl.inputUp = true) → Claims.Does .coldStart s fun t => t = s)
    ∧ Claims.Does .powerLoss s (fun t => t.ctl.inputUp = false ∧ t.herd.recs = [] ∧ t.herd.next = 0 ∧ t.herd.accs = []
        ∧ (s.ctl.mstate ≠ .off → holds t) ∧ (s.ctl.mstate = .off → t.ctl.mstate = .off ∧ t.ctxs = s.ctxs ∧ t.sec = s.sec))
    ∧ (∀ ns,
        let acts := fun (t : State) => t.ctl.resetHeld = true ∧ (s.ctl.mstate ≠ .off → holds t ∧ t.herd.accs = [])
          ∧ (s.ctl.mstate = .off → t.ctl.mstate = .off ∧ t.od = s.od ∧ t.herd = s.herd)
        (ns < 900000 → Claims.Does (.modRstNAssert ns) s fun t => t = s)
        ∧ (1000000 ≤ ns → s.tap.frozen = none → Claims.Does (.modRstNAssert ns) s acts)
        ∧ (1000000 ≤ ns → s.tap.frozen ≠ none → Claims.Does (.modRstNAssert ns) s fun t => t = s)
        ∧ (900000 ≤ ns → ns < 1000000 → Claims.Does (.modRstNAssert ns) s fun t => t = s.drawn ∨ (s.tap.frozen = none ∧ acts t)))
    ∧ (s.ctl.resetHeld = true → s.ctl.mstate = .off → s.ctl.inputUp = true → starts .modRstNRelease)
    ∧ (s.ctl.resetHeld = true → (s.ctl.mstate ≠ .off ∨ s.ctl.inputUp = false) → Claims.Does .modRstNRelease s fun t =>
        t = { s with ctl := { s.ctl with resetHeld := false } })
    ∧ (s.ctl.resetHeld = false → Claims.Does .modRstNRelease s fun t => t = s)

/-- R13, R370, R371, R377-R382, R406: the firmware image, the fuses and the security operations with their outcome, presence, attestation. While
the module is off none of them has an effect. -/
def Obligations.Security : Prop :=
  ∀ (s : State),
    let on := s.ctl.mstate ≠ .off
    let outcome := fun (t : State) => t.odg 0x1112 0x05
    let replies := fun (t : State) (st : Nat) => t.out = .odStatus st :: s.out
    let held := on ∧ s.presenceHeld = true
    let fuse := fun (t : State) => t.sec.fuses = s.sec.fuses
    let logged := fun (t : State) (idx sub : Nat) (bs : List Byte) =>
      t.sec.meas = s.sec.meas.set 3 (extendMeas (s.sec.meas.getD 3 []) (leBytes 2 idx ++ leBytes 1 sub ++ bs))
    let declines := fun (i : Instr) (idx sub : Nat) (bs : List Byte) (st : Nat) => Claims.Does i s fun t =>
      logged t idx sub bs ∧ outcome t = st ∧ replies t St.OD_OK ∧ fuse t ∧ t.od = (s.odp 0x1112 0x05 0 st).od
    let writes := fun (i : Instr) (idx sub : Nat) (bs : List Byte) (P : State → Prop) => Claims.Does i s fun t =>
      logged t idx sub bs ∧ outcome t = St.OD_OK ∧ replies t St.OD_OK ∧ P t
    (s.ctl.mstate = .off → ∀ (b : List Byte) (v : BitVec 8) (env : FuseEnv) (j k : Bool) (i : Instr),
        i ∈ [Instr.imageChunkWrite b, .imageVerify v, .ownerKeyReplace b env, .ownerSlotRevoke v env, .vendorKeyRevoke v env, .svnRaise v env,
          .debugEnable v, .debugDisable v, .presenceSample j k, .attestationRequest b] → Claims.Does i s fun t => t = s)
    ∧ (∀ b : List Byte, on →
      (s.chunkStatus b = 0 → Claims.Does (.imageChunkWrite b) s fun t => t.imageBytes (s.odg 0x1110 0x01) 65536 = b
        ∧ t.odg 0x1110 0x01 = s.odg 0x1110 0x01 + 65536 ∧ t.odg 0x1110 0x06 = 1 ∧ t.sec.verified = none ∧ fuse t ∧ replies t St.OD_OK)
      ∧ (s.chunkStatus b ≠ 0 → Claims.Does (.imageChunkWrite b) s fun t => t = s.answered (s.chunkStatus b)))
    ∧ (s.ctl.mstate = .standby → s.ctl.change = none → Claims.Does (.imageVerify 1) s fun t => t.odg 0x1110 0x05 = s.imageCheck.1
        ∧ replies t St.OD_OK
        ∧ (if s.imageCheck.1 = 0 then t.odg 0x1110 0x06 = 2
            ∧ t.sec.verified = some (fld (s.imageBytes 0 96) 8 4, fld (s.imageBytes 0 96) 12 1, s.imageCheck.2, fld (s.imageBytes 0 96) 13 1 % 4)
            ∧ t.sec.meas = s.sec.meas.set 1 (extendMeas (s.sec.meas.getD 1 []) (s.imageBytes 0 96))
          else t.odg 0x1110 0x06 = 3 ∧ t.sec.verified = none ∧ t.sec.meas = s.sec.meas))
    ∧ (∀ v : BitVec 8, on → s.verifyStatus v.toNat ≠ 0 → Claims.Does (.imageVerify v) s fun t => t = s.answered (s.verifyStatus v.toNat))
    ∧ (on → s.presenceHeld = false → ∀ (b : List Byte) (v : BitVec 8) (env : FuseEnv) (i : Instr),
        i ∈ [Instr.ownerKeyReplace b env, .ownerSlotRevoke v env, .vendorKeyRevoke v env, .svnRaise v env, .debugEnable v] →
        Claims.Does i s fun t => t = s.answered St.OD_ACCESS_REFUSED)
    ∧ (held → ∀ (env : FuseEnv) (b : List Byte),
      let signed := s.validSlots = [] ∨ ∃ o, o ∈ s.validSlots
        ∧ Config.ed448Verify (s.fuseBytes (slotAt o) 57) (s.replaceMsg (sliceBytes b 0 57)) (sliceBytes b 57 114) = true
      (b.length ≠ 176 → Claims.Does (.ownerKeyReplace b env) s fun t => t = s.answered St.OD_SIZE_MISMATCH)
      ∧ (b.length = 176 → fld b 171 5 ≠ 0 → Claims.Does (.ownerKeyReplace b env) s fun t => t = s.answered St.OD_RESERVED_NONZERO)
      ∧ (b.length = 176 → fld b 171 5 = 0 →
        (¬ signed → declines (.ownerKeyReplace b env) 0x1112 0x01 b St.FW_BAD_SIGNATURE)
        ∧ (signed → s.freeSlot = none → declines (.ownerKeyReplace b env) 0x1112 0x01 b St.FUSE_WRITE_FAILED)
        ∧ (∀ k, signed → s.freeSlot = some k → env.failAfter = none → writes (.ownerKeyReplace b env) 0x1112 0x01 b fun t =>
            t.fuseBytes (slotAt k) 57 = sliceBytes b 0 57 ∧ t.slotValid k = true ∧ ∀ o, o ∈ s.validSlots → t.slotValid o = false)))
    ∧ (held → ∀ (env : FuseEnv) (v : BitVec 8),
      let slotOk := v.toNat < 8 ∧ s.slotValid v.toNat = true
      let keyOk := v.toNat < 4 ∧ s.vendorRevoked v.toNat = false ∧ ∃ j, j < 4 ∧ j ≠ v.toNat ∧ s.vendorRevoked j = false
      let svnOk := s.svnCount < v.toNat ∧ v.toNat ≤ 64 ∧ ∃ x, s.sec.verified = some x ∧ v.toNat ≤ x.2.1
      let byte := leBytes 1 v.toNat
      (slotOk →
        (env.failAfter = none → writes (.ownerSlotRevoke v env) 0x1112 0x02 byte fun t =>
          t.slotValid v.toNat = false ∧ ∀ i, i ≠ slotAt v.toNat + 59 → t.fuse i = s.fuse i)
        ∧ (env.failAfter = some 0 → env.cut = false → Claims.Does (.ownerSlotRevoke v env) s fun t =>
          logged t 0x1112 0x02 byte ∧ outcome t = St.FUSE_WRITE_FAILED ∧ replies t St.OD_OK)
        ∧ (env.failAfter = some 0 → env.cut = true → Claims.Does (.ownerSlotRevoke v env) s fun t =>
          logged t 0x1112 0x02 byte ∧ outcome t = outcome s ∧ t.sec.broken = some (0x1112, 0x02, 0)))
      ∧ (¬ slotOk → declines (.ownerSlotRevoke v env) 0x1112 0x02 byte St.OD_VALUE_RANGE)
      ∧ (keyOk → env.failAfter = none → writes (.vendorKeyRevoke v env) 0x1112 0x03 byte fun t =>
          t.vendorRevoked v.toNat = true ∧ ∀ i, i ≠ 251 → t.fuse i = s.fuse i)
      ∧ (¬ keyOk → declines (.vendorKeyRevoke v env) 0x1112 0x03 byte St.OD_VALUE_RANGE)
      ∧ (svnOk → env.failAfter = none → writes (.svnRaise v env) 0x1112 0x04 byte fun t => t.svnCount = v.toNat)
      ∧ (¬ svnOk → declines (.svnRaise v env) 0x1112 0x04 byte St.OD_VALUE_RANGE)
      ∧ (1 < v.toNat → Claims.Does (.debugEnable v) s fun t => t = s.answered St.OD_VALUE_RANGE))
    ∧ (held → writes (.debugEnable 1) 0x1113 0x01 [1] (fun t => t.dbgOn = true ∧ t.sec.everDebug = true ∧ t.files = s.files ∧ fuse t)
      ∧ writes (.debugEnable 0) 0x1113 0x01 [0] fun t => t.dbgOn = s.dbgOn ∧ t.sec.everDebug = s.sec.everDebug ∧ t.files = s.files ∧ fuse t)
    ∧ (on → Claims.Does (.debugDisable 1) s (fun t => t.dbgOn = false ∧ logged t 0x1113 0x02 [1] ∧ replies t St.OD_OK
        ∧ (∀ k c, t.file k c = { s.file k c with halted := false, bpHit := false, stepOne := false, bpPass := false, bps := [] })
        ∧ t.tap.ir = (if s.tap.ir = 0 then 0xFF else s.tap.ir) ∧ t.tap.frozen = none)
      ∧ Claims.Does (.debugDisable 0) s (fun t => t = s.answered St.OD_OK)
      ∧ ∀ v : BitVec 8, 1 < v.toNat → Claims.Does (.debugDisable v) s fun t => t = s.answered St.OD_VALUE_RANGE)
    ∧ (∀ jumper intact : Bool, on →
      let seen := match s.tap.frozen with
        | some pins => !bit pins 2
        | none => jumper
      (s.sec.sampleDue ≤ s.ctl.clock → Claims.Does (.presenceSample jumper intact) s fun t =>
        t.sec.heldMs = (if seen || intact then Nat.min 10 (s.sec.heldMs + 1) else 0) ∧ (t.presenceHeld = true ↔ 10 ≤ t.sec.heldMs)
        ∧ t.sec.sampleDue = s.ctl.clock + 1000000 ∧ (s.sec.sealSeen = true → intact = false → t.sec.sealBroken = true) ∧ fuse t)
      ∧ (s.ctl.clock < s.sec.sampleDue → Claims.Does (.presenceSample jumper intact) s fun t => t = s))
    ∧ (∀ nonce : List Byte, on →
      (nonce.length = 32 → Claims.Does (.attestationRequest nonce) s fun t => t.odg 0x1120 0x04 = s.odg 0x1120 0x04 + 1 ∧ replies t St.OD_OK
        ∧ ∀ (i : Nat) (b : Byte), (s.attestReport nonce)[i]? = some b → i < 512 → t.odg 0x1120 0x02 i = b.toNat)
      ∧ (nonce.length ≠ 32 → Claims.Does (.attestationRequest nonce) s fun t => t = s.answered St.OD_SIZE_MISMATCH))

/-- R126, R354, R393-R395, R397, R402, Tables 19-3 and 19-5: the events that enter SAFE and what is lost there, the monitor's self-check, the herd
book's interval and its clearing. While the module is off none of them has an effect. -/
def Obligations.SafetyEvents : Prop :=
  ∀ (s : State),
    let on := s.ctl.mstate ≠ .off
    let entered := fun (cause inst : Nat) (t : State) =>
      t.ctl.mstate = .safe ∧ t.ctl.change = none ∧ t.ctl.commanded = false
      ∧ t.odg 0x2001 0x06 = cause + inst * 2 ^ 8 + s.recentSafe cause * 2 ^ 16
      ∧ t.odg 0x3000 0x02 cause = s.odg 0x3000 0x02 cause + 1 ∧ t.ctxs = [] ∧ t.current = none ∧ t.svc.sessions = [] ∧ t.files = []
      ∧ t.hbm.mem = [] ∧ t.host.linkUp = false ∧ t.herd.accs = [] ∧ t.sec.fuses = s.sec.fuses ∧ t.pending = s.pending
    let safe := fun (i : Instr) (cause inst : Nat) =>
      (on → Claims.Does i s (entered cause inst)) ∧ (s.ctl.mstate = .off → Claims.Does i s fun t => t = s)
    let stays := fun (i : Instr) => Claims.Does i s fun t => t = s
    safe .inputOvercurrent 1 0 ∧ safe .inputVoltage 2 0 ∧ (∀ rail : BitVec 5, rail.toNat < 27 → safe (.railOutOfRange rail) 3 rail.toNat)
    ∧ safe .coolantLoss 4 0 ∧ safe .heartbeatLoss 7 0
    ∧ (∀ inst : BitVec 4,
        ((inst.toNat < 8 ∨ s.odg 0x2400 0x02 (inst.toNat - 8) = 3) → safe (.runawayTemperature inst) 5 inst.toNat)
        ∧ (8 ≤ inst.toNat → s.odg 0x2400 0x02 (inst.toNat - 8) ≠ 3 → stays (.runawayTemperature inst)))
    ∧ (∀ port : BitVec 6, port.toNat < 48 → safe (.laserSupplyCut port) 6 port.toNat
        ∧ (on → Claims.Does (.laserSupplyCut port) s fun t => t.opt.supplyCut = true))
    ∧ (∀ ok : Bool, (s.ctl.mstate = .off ∨ s.ctl.clock < s.ctl.selfDue) → stays (.monitorSelfCheck ok))
    ∧ (on → s.ctl.selfDue ≤ s.ctl.clock →
      Claims.Does (.monitorSelfCheck false) s (fun t => entered 8 0 t ∧ t.odg 0x3000 0x01 = 2 ∧ bit (t.odg 0x3001 0x08) 6 = true)
      ∧ Claims.Does (.monitorSelfCheck true) s fun t => t.odg 0x3000 0x01 = (if 2 ≤ s.ctl.selfOk then 1 else s.odg 0x3000 0x01)
        ∧ t.ctl = { s.ctl with selfOk := s.ctl.selfOk + 1, selfDue := s.ctl.clock + 10000000 } ∧ t.ctxs = s.ctxs ∧ t.herd = s.herd)
    ∧ ((s.ctl.mstate = .off ∨ s.ctl.clock < (s.herd.interval + 1) * s.herd.ms * 1000000) → stays .herdIntervalEnd)
    ∧ (on → (s.herd.interval + 1) * s.herd.ms * 1000000 ≤ s.ctl.clock → Claims.Does .herdIntervalEnd s fun t => t.herd.accs = []
        ∧ t.herd.spill = none ∧ t.herd.ms = s.odg 0x3100 0x01 ∧ t.herd.interval = s.ctl.clock / (s.odg 0x3100 0x01 * 1000000)
        ∧ t.herd.boot = s.herd.boot ∧ t.ctl = s.ctl ∧ t.ctxs = s.ctxs)
    ∧ (∀ v : BitVec 8,
        let ends := fun (st : Nat) => Claims.Does (.herdBookClear v) s fun t => t = s.answered st
        (s.ctl.mstate = .off → stays (.herdBookClear v))
        ∧ (on → (s.ctl.mstate ≠ .service ∨ s.ctl.change ≠ none) → ends St.OD_ACCESS_REFUSED)
        ∧ (s.ctl.mstate = .service → s.ctl.change = none → v ≠ 1 → ends St.OD_VALUE_RANGE)
        ∧ (s.ctl.mstate = .service → s.ctl.change = none → v = 1 → Claims.Does (.herdBookClear v) s fun t =>
            t = ({ s with herd := { s.herd with recs := [], next := 0 } } : State).answered St.OD_OK))

/-- R315, R406-R411, Tables 20-2 and 20-3: the debug operations; when debug is locked, when a request is discarded, refused or may run, and how an
access waits for a line that the host holds. -/
def Obligations.DebugAccess : Prop :=
  ∀ (s : State) (r : DbgReq) (env : MemEnv),
    let on := s.ctl.mstate ≠ .off
    let core := dbgCore r
    let c := dbgCtx r
    let f := s.file core c
    let d := dbgData r
    let all64 := 2 ^ 64 - 1
    let others := fun (t : State) => t.pails = s.pails ∧ t.store = s.store ∧ t.hbm.mem = s.hbm.mem
      ∧ ∀ j, j ≠ core * 64 + c → Sparse.get (fun _ => fileNone) t.files j = Sparse.get (fun _ => fileNone) s.files j
    let same := fun (t : State) => t.files = s.files ∧ t.pails = s.pails ∧ t.store = s.store ∧ t.hbm.mem = s.hbm.mem
    let ops := [(Instr.debugNop r, 0, all64, true), (.halt r, 1, all64, false), (.resume r, 2, all64, false), (.dbgStep r, 3, all64, false),
      (.setAddr r, 4, 2 ^ 63, true), (.debugRead r env, 5, all64, false), (.debugWrite r env, 6, 0, false), (.setBp r, 7, bpKeep, false),
      (.readReg r, 8, 2 ^ 64 - 2 ^ 16, false), (.writeReg r, 9, 0, false)]
    (∀ i op keep dark, (i, op, keep, dark) ∈ ops →
      ((s.ctl.mstate = .off ∨ (dbgOp r ≠ op ∧ (op ≠ 0 ∨ dbgOp r < 10))) → Claims.Does i s fun t => t = s)
      ∧ (on → dbgOp r = op →
        (s.dbgOn = false → s.tap.busy = none → Claims.Does i s fun t => t.out = .scan 96 St.DBG_LOCKED :: s.out ∧ same t ∧ t.od = s.od
          ∧ t.tap.last = s.tap.last)
        ∧ (s.dbgOn = true → ∀ b a, s.tap.busy = some b → s.dbgPlace = .mem a → s.filtered a 8 ≠ [] → Claims.Does i s fun t =>
          t.out.head? = some (.scan 96 (s.dbgResponse + 2 ^ 16)) ∧ same t ∧ t.tap.busy = some b ∧ t.odg 0x3200 0x08 = s.odg 0x3200 0x08 + 1
          ∧ t.tap.last = s.tap.last)
        ∧ (s.dbgOn = true → s.tap.busy = none → (dbgResv r = true ∨ d &&& keep ≠ 0) → Claims.Does i s fun t =>
          Claims.dbgReply s t r St.CMD_RESERVED_NONZERO 0 ∧ same t ∧ t.out = .scan 96 s.dbgResponse :: s.out)
        ∧ (s.dbgOn = true → s.tap.busy = none → dbgResv r = false → d &&& keep = 0 →
          (s.coreEnabled core = false ∨ (dark = false ∧ s.powered = false)) → Claims.Does i s fun t =>
          Claims.dbgReply s t r St.CMD_BAD_FIELD 0 ∧ same t ∧ t.out = .scan 96 s.dbgResponse :: s.out)))
    ∧ (on → s.dbgOn = true → s.tap.busy = none → 10 ≤ dbgOp r → dbgResv r = false → Claims.Does (.debugNop r) s fun t =>
        Claims.dbgReply s t r St.CMD_BAD_FIELD 0 ∧ same t)
    ∧ (Claims.dbgTurn s r 0 all64 true = true → Claims.Does (.debugNop r) s fun t => Claims.dbgReply s t r St.OD_OK 0 ∧ same t
        ∧ t.out = .scan 96 s.dbgResponse :: s.out)
    ∧ (Claims.dbgTurn s r 1 all64 false = true → Claims.Does (.halt r) s fun t => Claims.dbgReply s t r St.OD_OK f.pc ∧ others t
        ∧ t.file core c = { f with halted := true, stepOne := false, waiting := none })
    ∧ (Claims.dbgTurn s r 2 all64 false = true → Claims.Does (.resume r) s fun t => Claims.dbgReply s t r St.OD_OK 0 ∧ others t
        ∧ t.file core c = { f with halted := false, stepOne := false, bpHit := false, bpPass := f.halted })
    ∧ (Claims.dbgTurn s r 3 all64 false = true → Claims.Does (.dbgStep r) s fun t => Claims.dbgReply s t r St.OD_OK f.pc ∧ others t
        ∧ t.file core c = { f with halted := true, stepOne := true, bpHit := false } ∧ t.tap.stepOf = some (core, c))
    ∧ (Claims.dbgTurn s r 4 (2 ^ 63) true = true →
      let sp := bits d 62 60
      Claims.Does (.setAddr r) s fun t => same t
        ∧ (if sp ≤ 1 then Claims.dbgReply s t r St.OD_OK 0 ∧ t.tap.space = sp ∧ t.tap.addr = d % 2 ^ 60
           else Claims.dbgReply s t r St.CMD_BAD_FIELD 0 ∧ t.tap.space = s.tap.space ∧ t.tap.addr = s.tap.addr))
    ∧ (∀ a, s.dbgPlace = .mem a →
      (Claims.calm s env →
        (Claims.dbgTurn s r 5 all64 false = true → Claims.Does (.debugRead r env) s fun t =>
          Claims.dbgReply s t r (s.readStatus a)
            (if s.readStatus a = 0 ∨ s.readStatus a = St.MEM_UNCORRECTABLE then leNat (s.memBytes a 8) else 0)
          ∧ same t ∧ t.tap.addr = s.tap.addr + 8)
        ∧ (Claims.dbgTurn s r 6 0 false = true → Claims.Does (.debugWrite r env) s fun t =>
          Claims.dbgReply s t r (s.writeStatus a false) 0 ∧ t.tap.addr = s.tap.addr + 8 ∧ t.files = s.files ∧ t.store = s.store
          ∧ (if s.writeStatus a false = 0 then leNat (t.memBytes a 8) = d else t.hbm.mem = s.hbm.mem)
          ∧ ∀ x, (x < a ∨ a + 8 ≤ x) → t.memByte x = s.memByte x))
      ∧ (s.filtered a 8 ≠ [] → ∀ i op keep, (i, op, keep) ∈ [(Instr.debugRead r env, 5, all64), (.debugWrite r env, 6, 0)] →
        Claims.dbgTurn s r op keep false = true → Claims.Does i s fun t => t.tap.busy = some (r, env) ∧ same t
          ∧ t.tap.count = s.tap.count ∧ t.tap.addr = s.tap.addr ∧ ∀ l, l ∈ s.filtered a 8 → l ∈ t.host.snooping))
    ∧ (∀ k o, s.dbgPlace = .core k o →
      (Claims.dbgTurn s r 5 all64 false = true → Claims.Does (.debugRead r env) s fun t =>
        Claims.dbgReply s t r St.OD_OK (leNat (s.storeBytes k o 8)) ∧ same t ∧ t.tap.addr = s.tap.addr + 8)
      ∧ (Claims.dbgTurn s r 6 0 false = true → Claims.Does (.debugWrite r env) s fun t =>
        Claims.dbgReply s t r St.OD_OK 0 ∧ leNat (t.storeBytes k o 8) = d ∧ t.hbm = s.hbm ∧ t.files = s.files ∧ t.pails = s.pails
        ∧ t.tap.addr = s.tap.addr + 8))
    ∧ (((∀ a, s.dbgPlace ≠ .mem a) ∧ ∀ k o, s.dbgPlace ≠ .core k o) →
      ∀ i op keep, (i, op, keep) ∈ [(Instr.debugRead r env, 5, all64), (.debugWrite r env, 6, 0)] →
        Claims.dbgTurn s r op keep false = true → Claims.Does i s fun t => Claims.dbgReply s t r St.DMA_BAD_ADDRESS 0 ∧ same t
          ∧ t.tap.addr = s.tap.addr)
    ∧ (Claims.dbgTurn s r 7 bpKeep false = true →
      let pc := d % 2 ^ 18
      let n := bits d 25 24
      Claims.Does (.setBp r) s fun t => others t
        ∧ (if pc % 8 ≠ 0 then Claims.dbgReply s t r St.CMD_BAD_FIELD 0 ∧ t.files = s.files
           else Claims.dbgReply s t r St.OD_OK 0 ∧ ∀ m, Sparse.find (t.file core c).bps m =
             if m = n then (if bit d 26 then some pc else none) else Sparse.find f.bps m))
    ∧ (Claims.dbgTurn s r 8 (2 ^ 64 - 2 ^ 16) false = true →
      Claims.Does (.readReg r) s fun t => same t ∧ (match f.stopped, s.dbgReg core c (d % 2 ^ 16) with
        | true, some v => Claims.dbgReply s t r St.OD_OK v.toNat ∧ t.tap.sel = d % 2 ^ 16
        | _, _ => Claims.dbgReply s t r St.CMD_BAD_FIELD 0 ∧ t.tap.sel = s.tap.sel))
    ∧ (Claims.dbgTurn s r 9 0 false = true →
      let sel := s.tap.sel
      let w := BitVec.ofNat 64 d
      (f.stopped = false → Claims.Does (.writeReg r) s fun t => Claims.dbgReply s t r St.CMD_BAD_FIELD 0 ∧ same t)
      ∧ (f.stopped = true →
        (sel < 0x20 → Claims.Does (.writeReg r) s fun t => Claims.dbgReply s t r St.OD_OK 0 ∧ others t
          ∧ (∀ i, (t.file core c).reg i = if i = sel ∧ i ≠ 0 then w else f.reg i) ∧ t.file core c = { f with regs := (t.file core c).regs })
        ∧ (0x20 ≤ sel → sel < 0x40 → Claims.Does (.writeReg r) s fun t => Claims.dbgReply s t r St.OD_OK 0 ∧ others t
          ∧ (∀ k b, b < 256 → ((t.file core c).mask k).getLsbD b =
              if k = (sel - 0x20) / 4 ∧ k ≠ 0 ∧ b / 64 = sel % 4 then w.getLsbD (b % 64) else (f.mask k).getLsbD b)
          ∧ t.file core c = { f with masks := (t.file core c).masks })
        ∧ (sel = 0x40 → Claims.Does (.writeReg r) s fun t => Claims.dbgReply s t r St.OD_OK 0 ∧ others t ∧ t.file core c = { f with pc := d })
        ∧ (sel = 0x41 → Claims.Does (.writeReg r) s fun t => Claims.dbgReply s t r St.OD_OK 0 ∧ others t
          ∧ t.file core c = { f with flags := BitVec.ofNat 4 d })
        ∧ (0x1000 ≤ sel → sel < 0x3000 → Claims.Does (.writeReg r) s fun t => Claims.dbgReply s t r St.OD_OK 0 ∧ t.files = s.files
          ∧ t.store = s.store ∧ t.hbm = s.hbm ∧ ∀ p i, p < 64 → i < 256 → t.pail core p i =
              if p = (sel - 0x1000) / 128 ∧ i / 2 = sel % 128 then BitVec.ofNat 32 (d / 2 ^ (32 * (i % 2))) else s.pail core p i)))

/-- R315, R404-R406, R413, R417, R418: the TAP's instructions, and a trace record written to its buffer. While the module is off the TAP's
have no effect. -/
def Obligations.TapAndTrace : Prop :=
  ∀ (s : State),
    (s.ctl.mstate = .off → ∀ (pins cells : BitVec 64) (i : Instr),
      i ∈ [Instr.tapReset, .idcode, .bypass, .samplePreload pins cells, .extest pins cells] → Claims.Does i s fun t => t = s)
    ∧ (s.ctl.mstate ≠ .off →
      Claims.Does .tapReset s (fun t => t.tap.ir = 1 ∧ t.tap.frozen = none ∧ t.odg 0x2102 0x02 = s.odg 0x2102 0x02 + 1 ∧ t.files = s.files)
      ∧ Claims.Does .idcode s (fun t => t.tap = { s.tap with ir := 1, frozen := none } ∧ t.out = .scan 32 0x1C74298F :: s.out ∧ t.od = s.od)
      ∧ Claims.Does .bypass s (fun t => t.tap = { s.tap with ir := 0xFF, frozen := none } ∧ t.out = .scan 1 0 :: s.out ∧ t.od = s.od)
      ∧ (∀ pins cells : BitVec 64, Claims.Does (.samplePreload pins cells) s fun t =>
          t.tap = { s.tap with ir := 2, frozen := none, cells := cells.toNat }
          ∧ t.out = .scan 64 (pins.toNat % 2 ^ 10 + s.outputPins) :: s.out ∧ t.od = s.od)
      ∧ (∀ pins cells : BitVec 64,
        let seen := pins.toNat % 2 ^ 10
        (s.dbgOn = true → (s.ctl.mstate = .standby ∨ s.ctl.mstate = .safe) → Claims.Does (.extest pins cells) s fun t =>
          t.tap = { s.tap with ir := 0, frozen := some (s.tap.frozen.getD seen), cells := cells.toNat }
          ∧ t.out = .scan 64 (seen + 2 ^ 10 * (s.tap.cells / 2 ^ 10 % 4)) :: s.out ∧ t.od = s.od)
        ∧ ((s.dbgOn = false ∨ (s.ctl.mstate ≠ .standby ∧ s.ctl.mstate ≠ .safe)) → Claims.Does (.extest pins cells) s fun t =>
          t.tap = { s.tap with ir := 0xFF, frozen := none } ∧ t.out = .scan 1 0 :: s.out ∧ t.od = s.od)))
    ∧ (let size := s.odg 0x3200 0x04
      let full := s.odg 0x3200 0x05 = 1 ∧ size ≤ 32 * s.trace.written
      let a := s.odg 0x3200 0x03 + 32 * (s.trace.written % (size / 32))
      ((s.trace.queue = [] ∨ s.powered = false ∨ size = 0 ∨ full) → Claims.Does .traceRecordWrite s fun t => t = s)
      ∧ (∀ rec_ rest, s.trace.queue = rec_ :: rest → s.powered = true → size ≠ 0 → ¬ full →
        (s.filtered a 32 ≠ [] → Claims.Does .traceRecordWrite s fun t => t.trace = s.trace ∧ t.hbm = s.hbm
          ∧ ∀ l, l ∈ s.filtered a 32 → l ∈ t.host.snooping)
        ∧ (s.filtered a 32 = [] → rec_.length = 32 → a % 32 = 0 → a < 2 ^ 39 → Claims.Does .traceRecordWrite s fun t =>
          t.trace = { s.trace with queue := rest, written := s.trace.written + 1 }
          ∧ (if s.writeStatus a true = 0 then t.memBytes a 32 = rec_ else t.hbm.mem = s.hbm.mem)
          ∧ ∀ x, (x < a ∨ a + 32 ≤ x) → t.memByte x = s.memByte x)))

/-- Table 00-1, R12: a command whose operand names a unit that the module does not have stops with noSuchUnit, whatever the state. -/
def Obligations.UnitFaults : Prop :=
  ∀ (s : State),
    let stops := fun (i : Instr) => exec i s = .fault .noSuchUnit
    (∀ port : BitVec 6, 48 ≤ port.toNat → (∀ w, stops (.beaconReceive port w)) ∧ (∀ b, stops (.controlBlockReceive port b))
      ∧ (∀ out ch b, stops (.pathSwitch out port ch b)) ∧ (∀ w, stops (.portOpen port w)) ∧ stops (.probeSend port)
      ∧ (∀ a b, stops (.probeReceive port a b)) ∧ stops (.portRelight port) ∧ (∀ fs, stops (.packetReceive port fs))
      ∧ (∀ vc, stops (.truncation port vc)) ∧ stops (.repairBoundary port) ∧ stops (.laserSupplyCut port)
      ∧ (∀ k e, e ∈ [OpticRef.addRing port k, .dropRing port k] → (∀ x, stops (.wrongLock e x)) ∧ stops (.laneLockLoss e)
        ∧ (∀ b, stops (.laneRelockAttemptEnd e b) ∧ stops (.laneSearchEnd e b))))
    ∧ (∀ (port : BitVec 6) (vc : BitVec 3), 49 ≤ port.toNat → stops (.routeTimeout port vc))
    ∧ (∀ lane : BitVec 9, 384 ≤ lane.toNat → (∀ ch p, stops (.preambleCheck lane ch p)) ∧ stops (.preambleTimeout lane)
      ∧ ∀ tx, stops (.spareSubstitution ⟨tx, lane⟩) ∧ (∀ x, stops (.wrongLock (.lane ⟨tx, lane⟩) x)) ∧ stops (.laneLockLoss (.lane ⟨tx, lane⟩))
        ∧ ∀ b, stops (.laneRelockAttemptEnd (.lane ⟨tx, lane⟩) b) ∧ stops (.laneSearchEnd (.lane ⟨tx, lane⟩) b))
    ∧ (∀ rail : BitVec 5, 27 ≤ rail.toNat → (∀ w, stops (.currentLimit rail w)) ∧ stops (.currentLimitRelease rail)
      ∧ stops (.railOutOfRange rail) ∧ (28 ≤ rail.toNat → ∀ b, stops (.estimateDisagreement rail b)))
    ∧ (∀ (d : BitVec 5) (i : BitVec 6), domainInstances d.toNat ≤ i.toNat → stops (.clockStop d i) ∧ stops (.clockWake d i))
    ∧ (∀ (g : BitVec 4) (i : BitVec 6), groupInstances g.toNat ≤ i.toNat → stops (.crossingReset g i))

/-- A step runs the command at the front of the queue on the state with the queue's rest; on an empty queue a nanosecond passes, in which
fabric time counts once it has locked (R205); that is the model's choice (log entries 18 and 19). -/
def Obligations.StepRunsFrontCommand : Prop :=
  (∀ (s : State) (i : Instr) (rest : List Instr), s.pending = i :: rest → step s = exec i { s with pending := rest })
  ∧ ∀ s : State, s.pending = [] → step s = .next { s with
      ctl := { s.ctl with clock := s.ctl.clock + 1 }
      time := { s.time with fabric := if s.time.everLock then s.time.fabric + 1 else s.time.fabric } }

/-- The state after reset (R205, R211, R217, R321, R332, Table 18-1): STANDBY with everything dark, registers of the dictionary at the defaults
of its tables, fabric time unlocked, nothing resident, slices empty, memory canonical and reading as zeros (the zeros are the model's choice, log
entry 13). -/
def Obligations.ResetState : Prop :=
  let s := State.reset
  s.pending = [] ∧ s.ctl.mstate = .standby ∧ s.ctl.change = none ∧ s.time.state = .unlocked ∧ s.time.everLock = false ∧ s.ctxs = []
  ∧ s.current = none ∧ s.host.linkUp = false ∧ s.memOk ∧ (∀ a, s.memByte a = 0) ∧ (∀ a, s.inSlice a = false)
  ∧ (∀ o, s.objVal o = 0 ∧ s.objTyp o = 0)
  ∧ s.odg 0x2000 0x04 = 2200 ∧ s.odg 0x2701 0x01 = 0x7F ∧ s.odg 0x2101 0x02 3 = 0xFFFF ∧ s.odg 0x2511 0x01 = 1 ∧ s.odg 0x2805 0x06 = 0xFFFF
  ∧ (∀ k, k < 64 → (s.churn k).st = .dark) ∧ s.throttled = false

/-- No command changes the commands that wait behind it: a command's effect is on everything but the queue. -/
def Obligations.CommandsLeaveTheQueue : Prop :=
  ∀ (i : Instr) (s t : State), exec i s = .next t → t.pending = s.pending

/-- Every step keeps module memory in its canonical form: addresses rising, no entry for a byte that is 0, whatever the command. -/
def Obligations.StepsKeepMemory : Prop :=
  ∀ s t : State, s.memOk → step s = .next t → t.memOk
end

