-- ==== Sys2Proof/Laws/Sparse.lean ====
section
/-! SUPPORT. Laws of the sparse tables: a read after a write, and that every operation keeps the canonical form. -/

namespace Sys2Proof.Machine

variable {α : Type}

@[simp] theorem Sparse.find_nil (k : Nat) : Sparse.find ([] : Sparse α) k = none := rfl

theorem Sparse.find_del (m : Sparse α) (k j : Nat) :
    Sparse.find (Sparse.del m k) j = if j = k then none else Sparse.find m j := by
  induction m with
  | nil => simp [Sparse.del, Sparse.find]
  | cons e t ih =>
    obtain ⟨a, b⟩ := e
    simp only [Sparse.del, Sparse.find]
    by_cases h : k = a
    · subst h
      simp only [if_true, ih]
      by_cases hj : j = k <;> simp [hj]
    · simp only [h, if_false, Sparse.find, ih]
      by_cases hj : j = k
      · subst hj; simp [h]
      · simp [hj]

theorem Sparse.find_ins (m : Sparse α) (k : Nat) (v : α) (j : Nat) :
    Sparse.find (Sparse.ins k v m) j = if j = k then some v else Sparse.find m j := by
  induction m with
  | nil => by_cases hj : j = k <;> simp [Sparse.ins, Sparse.find, hj]
  | cons e t ih =>
    obtain ⟨a, b⟩ := e
    simp only [Sparse.ins]
    by_cases h1 : k < a
    · simp only [h1, if_true, Sparse.find]
    · by_cases h2 : k = a
      · subst h2
        simp only [Nat.lt_irrefl, if_false, if_true, Sparse.find]
        by_cases hj : j = k <;> simp [hj]
      · simp only [h1, h2, if_false, Sparse.find, ih]
        by_cases hj : j = k
        · subst hj; simp [h2]
        · simp [hj]

/-- A read after a write: the value written at its key, every other key as before. -/
theorem Sparse.get_set [DecidableEq α] (d : Nat → α) (m : Sparse α) (k : Nat) (v : α) (j : Nat) :
    Sparse.get d (Sparse.set d m k v) j = if j = k then v else Sparse.get d m j := by
  unfold Sparse.set Sparse.get
  by_cases hv : v = d k
  · by_cases hj : j = k
    · subst hj; simp [hv, Sparse.find_del]
    · simp [hv, hj, Sparse.find_del]
  · by_cases hj : j = k
    · subst hj; simp [hv, Sparse.find_ins]
    · simp [hv, hj, Sparse.find_ins]

@[simp] theorem Sparse.get_set_same [DecidableEq α] (d : Nat → α) (m : Sparse α) (k : Nat) (v : α) :
    Sparse.get d (Sparse.set d m k v) k = v := by simp [Sparse.get_set]

theorem Sparse.get_set_other [DecidableEq α] (d : Nat → α) (m : Sparse α) (k : Nat) (v : α) (j : Nat) (h : j ≠ k) :
    Sparse.get d (Sparse.set d m k v) j = Sparse.get d m j := by simp [Sparse.get_set, h]

theorem Sparse.okFrom_mono [DecidableEq α] (d : Nat → α) (m : Sparse α) {lo lo' : Nat} (h : lo' ≤ lo)
    (ok : Sparse.okFrom d lo m = true) : Sparse.okFrom d lo' m = true := by
  cases m with
  | nil => rfl
  | cons e t =>
    obtain ⟨a, b⟩ := e
    simp only [Sparse.okFrom, Bool.and_eq_true, decide_eq_true_eq] at ok ⊢
    exact ⟨Nat.le_trans h ok.1, ok.2⟩

theorem Sparse.okFrom_del [DecidableEq α] (d : Nat → α) (m : Sparse α) (k : Nat) {lo : Nat}
    (ok : Sparse.okFrom d lo m = true) : Sparse.okFrom d lo (Sparse.del m k) = true := by
  induction m generalizing lo with
  | nil => rfl
  | cons e t ih =>
    obtain ⟨a, b⟩ := e
    simp only [Sparse.okFrom, Bool.and_eq_true, decide_eq_true_eq] at ok
    simp only [Sparse.del]
    by_cases h : k = a
    · simp only [h, if_true]
      exact Sparse.okFrom_mono d _ (by omega) (h ▸ ih ok.2.2)
    · simp only [h, if_false, Sparse.okFrom, Bool.and_eq_true, decide_eq_true_eq]
      exact ⟨ok.1, ok.2.1, ih ok.2.2⟩

theorem Sparse.okFrom_ins [DecidableEq α] (d : Nat → α) (m : Sparse α) (k : Nat) (v : α) {lo : Nat} (hk : lo ≤ k)
    (hv : v ≠ d k) (ok : Sparse.okFrom d lo m = true) : Sparse.okFrom d lo (Sparse.ins k v m) = true := by
  induction m generalizing lo with
  | nil => simp [Sparse.ins, Sparse.okFrom, hk, hv]
  | cons e t ih =>
    obtain ⟨a, b⟩ := e
    simp only [Sparse.okFrom, Bool.and_eq_true, decide_eq_true_eq] at ok
    simp only [Sparse.ins]
    by_cases h1 : k < a
    · simp only [h1, if_true, Sparse.okFrom, Bool.and_eq_true, decide_eq_true_eq]
      exact ⟨hk, by simp [hv], by omega, ok.2.1, ok.2.2⟩
    · by_cases h2 : k = a
      · subst h2
        simp only [Nat.lt_irrefl, if_false, if_true, Sparse.okFrom, Bool.and_eq_true, decide_eq_true_eq]
        exact ⟨hk, by simp [hv], ok.2.2⟩
      · simp only [h1, h2, if_false, Sparse.okFrom, Bool.and_eq_true, decide_eq_true_eq]
        exact ⟨ok.1, ok.2.1, ih (by omega) ok.2.2⟩

/-- A write keeps the canonical form. -/
theorem Sparse.wf_set [DecidableEq α] (d : Nat → α) (m : Sparse α) (k : Nat) (v : α) (ok : Sparse.wf d m = true) :
    Sparse.wf d (Sparse.set d m k v) = true := by
  unfold Sparse.wf Sparse.set at *
  split
  · exact Sparse.okFrom_del d m k ok
  · exact Sparse.okFrom_ins d m k v (Nat.zero_le _) ‹_› ok

/-- Removing entries keeps the canonical form. -/
theorem Sparse.okFrom_dropKeys [DecidableEq α] (d : Nat → α) (p : Nat → Bool) (m : Sparse α) {lo : Nat}
    (ok : Sparse.okFrom d lo m = true) : Sparse.okFrom d lo (Sparse.dropKeys p m) = true := by
  induction m generalizing lo with
  | nil => rfl
  | cons e t ih =>
    obtain ⟨a, b⟩ := e
    simp only [Sparse.okFrom, Bool.and_eq_true, decide_eq_true_eq] at ok
    simp only [Sparse.dropKeys]
    split
    · exact Sparse.okFrom_mono d _ (by omega) (ih ok.2.2)
    · simp only [Sparse.okFrom, Bool.and_eq_true, decide_eq_true_eq]
      exact ⟨ok.1, ok.2.1, ih ok.2.2⟩

theorem Sparse.wf_dropKeys [DecidableEq α] (d : Nat → α) (p : Nat → Bool) (m : Sparse α) (ok : Sparse.wf d m = true) :
    Sparse.wf d (Sparse.dropKeys p m) = true := Sparse.okFrom_dropKeys d p m ok

/-- Two canonical tables that read alike at every key are equal. -/
theorem Sparse.okFrom_find_lt [DecidableEq α] (d : Nat → α) (m : Sparse α) {lo k : Nat} (h : k < lo)
    (ok : Sparse.okFrom d lo m = true) : Sparse.find m k = none := by
  induction m generalizing lo with
  | nil => rfl
  | cons e t ih =>
    obtain ⟨a, b⟩ := e
    simp only [Sparse.okFrom, Bool.and_eq_true, decide_eq_true_eq] at ok
    have : k ≠ a := by omega
    simp only [Sparse.find, this, if_false]
    exact ih (by omega) ok.2.2

/-- What passing every listed value through a function does: one read, where the function keeps what an unlisted key holds. -/
theorem Sparse.get_mapAll [DecidableEq α] (d : Nat → α) (f : Nat → α → α) (m : Sparse α) (j : Nat) (h : f j (d j) = d j) :
    Sparse.get d (Sparse.mapAll d f m) j = f j (Sparse.get d m j) := by
  have step : ∀ (l : List Nat) (t : Sparse α),
      Sparse.get d (l.foldl (fun t k => Sparse.set d t k (f k (Sparse.get d m k))) t) j =
        if j ∈ l then f j (Sparse.get d m j) else Sparse.get d t j := by
    intro l
    induction l with
    | nil => intro t; simp
    | cons k l ih =>
      intro t
      rw [List.foldl_cons, ih]
      by_cases hj : j = k
      · subst hj; simp
      · simp [hj, Sparse.get_set]
  have none_ : ∀ m : Sparse α, j ∉ Sparse.keys m → Sparse.get d m j = d j := by
    intro m hm
    induction m with
    | nil => rfl
    | cons e t ih =>
      obtain ⟨a, b⟩ := e
      simp only [Sparse.keys, List.map_cons, List.mem_cons, not_or] at hm
      simpa [Sparse.get, Sparse.find, hm.1] using ih hm.2
  unfold Sparse.mapAll
  rw [step]
  by_cases hm : j ∈ Sparse.keys m
  · simp [hm]
  · simp [hm, none_ m hm, h]

end Sys2Proof.Machine
end

