-- ==== Sys2Proof/Laws/State.lean ====
section
/-! SUPPORT. What each named update of the state leaves as it was, one lemma per field, and what it writes. -/

namespace Sys2Proof.Machine

variable (s : State)

@[simp] theorem State.odp_pending (idx sub k v : Nat) : (s.odp idx sub k v).pending = s.pending := rfl
@[simp] theorem State.odp_ctl (idx sub k v : Nat) : (s.odp idx sub k v).ctl = s.ctl := rfl
@[simp] theorem State.odp_time (idx sub k v : Nat) : (s.odp idx sub k v).time = s.time := rfl
@[simp] theorem State.odp_files (idx sub k v : Nat) : (s.odp idx sub k v).files = s.files := rfl
@[simp] theorem State.odp_pails (idx sub k v : Nat) : (s.odp idx sub k v).pails = s.pails := rfl
@[simp] theorem State.odp_store (idx sub k v : Nat) : (s.odp idx sub k v).store = s.store := rfl
@[simp] theorem State.odp_churns (idx sub k v : Nat) : (s.odp idx sub k v).churns = s.churns := rfl
@[simp] theorem State.odp_saved (idx sub k v : Nat) : (s.odp idx sub k v).saved = s.saved := rfl
@[simp] theorem State.odp_hbm (idx sub k v : Nat) : (s.odp idx sub k v).hbm = s.hbm := rfl
@[simp] theorem State.odp_dmaq (idx sub k v : Nat) : (s.odp idx sub k v).dmaq = s.dmaq := rfl
@[simp] theorem State.odp_attnq (idx sub k v : Nat) : (s.odp idx sub k v).attnq = s.attnq := rfl
@[simp] theorem State.odp_sync (idx sub k v : Nat) : (s.odp idx sub k v).sync = s.sync := rfl
@[simp] theorem State.odp_ctxs (idx sub k v : Nat) : (s.odp idx sub k v).ctxs = s.ctxs := rfl
@[simp] theorem State.odp_current (idx sub k v : Nat) : (s.odp idx sub k v).current = s.current := rfl
@[simp] theorem State.odp_switchTo (idx sub k v : Nat) : (s.odp idx sub k v).switchTo = s.switchTo := rfl
@[simp] theorem State.odp_switchBusy (idx sub k v : Nat) : (s.odp idx sub k v).switchBusy = s.switchBusy := rfl
@[simp] theorem State.odp_host (idx sub k v : Nat) : (s.odp idx sub k v).host = s.host := rfl
@[simp] theorem State.odp_rt (idx sub k v : Nat) : (s.odp idx sub k v).rt = s.rt := rfl
@[simp] theorem State.odp_tasks (idx sub k v : Nat) : (s.odp idx sub k v).tasks = s.tasks := rfl
@[simp] theorem State.odp_opt (idx sub k v : Nat) : (s.odp idx sub k v).opt = s.opt := rfl
@[simp] theorem State.odp_svc (idx sub k v : Nat) : (s.odp idx sub k v).svc = s.svc := rfl
@[simp] theorem State.odp_pow (idx sub k v : Nat) : (s.odp idx sub k v).pow = s.pow := rfl
@[simp] theorem State.odp_clk (idx sub k v : Nat) : (s.odp idx sub k v).clk = s.clk := rfl
@[simp] theorem State.odp_sec (idx sub k v : Nat) : (s.odp idx sub k v).sec = s.sec := rfl
@[simp] theorem State.odp_tap (idx sub k v : Nat) : (s.odp idx sub k v).tap = s.tap := rfl
@[simp] theorem State.odp_herd (idx sub k v : Nat) : (s.odp idx sub k v).herd = s.herd := rfl
@[simp] theorem State.odp_trace (idx sub k v : Nat) : (s.odp idx sub k v).trace = s.trace := rfl
@[simp] theorem State.odp_out (idx sub k v : Nat) : (s.odp idx sub k v).out = s.out := rfl
@[simp] theorem State.odp_free (idx sub k v : Nat) : (s.odp idx sub k v).free = s.free := rfl

@[simp] theorem State.bump_pending (idx sub k n : Nat) : (s.bump idx sub k n).pending = s.pending := rfl
@[simp] theorem State.bump_ctl (idx sub k n : Nat) : (s.bump idx sub k n).ctl = s.ctl := rfl
@[simp] theorem State.bump_time (idx sub k n : Nat) : (s.bump idx sub k n).time = s.time := rfl
@[simp] theorem State.bump_files (idx sub k n : Nat) : (s.bump idx sub k n).files = s.files := rfl
@[simp] theorem State.bump_pails (idx sub k n : Nat) : (s.bump idx sub k n).pails = s.pails := rfl
@[simp] theorem State.bump_store (idx sub k n : Nat) : (s.bump idx sub k n).store = s.store := rfl
@[simp] theorem State.bump_churns (idx sub k n : Nat) : (s.bump idx sub k n).churns = s.churns := rfl
@[simp] theorem State.bump_saved (idx sub k n : Nat) : (s.bump idx sub k n).saved = s.saved := rfl
@[simp] theorem State.bump_hbm (idx sub k n : Nat) : (s.bump idx sub k n).hbm = s.hbm := rfl
@[simp] theorem State.bump_dmaq (idx sub k n : Nat) : (s.bump idx sub k n).dmaq = s.dmaq := rfl
@[simp] theorem State.bump_attnq (idx sub k n : Nat) : (s.bump idx sub k n).attnq = s.attnq := rfl
@[simp] theorem State.bump_sync (idx sub k n : Nat) : (s.bump idx sub k n).sync = s.sync := rfl
@[simp] theorem State.bump_ctxs (idx sub k n : Nat) : (s.bump idx sub k n).ctxs = s.ctxs := rfl
@[simp] theorem State.bump_current (idx sub k n : Nat) : (s.bump idx sub k n).current = s.current := rfl
@[simp] theorem State.bump_switchTo (idx sub k n : Nat) : (s.bump idx sub k n).switchTo = s.switchTo := rfl
@[simp] theorem State.bump_switchBusy (idx sub k n : Nat) : (s.bump idx sub k n).switchBusy = s.switchBusy := rfl
@[simp] theorem State.bump_host (idx sub k n : Nat) : (s.bump idx sub k n).host = s.host := rfl
@[simp] theorem State.bump_rt (idx sub k n : Nat) : (s.bump idx sub k n).rt = s.rt := rfl
@[simp] theorem State.bump_tasks (idx sub k n : Nat) : (s.bump idx sub k n).tasks = s.tasks := rfl
@[simp] theorem State.bump_opt (idx sub k n : Nat) : (s.bump idx sub k n).opt = s.opt := rfl
@[simp] theorem State.bump_svc (idx sub k n : Nat) : (s.bump idx sub k n).svc = s.svc := rfl
@[simp] theorem State.bump_pow (idx sub k n : Nat) : (s.bump idx sub k n).pow = s.pow := rfl
@[simp] theorem State.bump_clk (idx sub k n : Nat) : (s.bump idx sub k n).clk = s.clk := rfl
@[simp] theorem State.bump_sec (idx sub k n : Nat) : (s.bump idx sub k n).sec = s.sec := rfl
@[simp] theorem State.bump_tap (idx sub k n : Nat) : (s.bump idx sub k n).tap = s.tap := rfl
@[simp] theorem State.bump_herd (idx sub k n : Nat) : (s.bump idx sub k n).herd = s.herd := rfl
@[simp] theorem State.bump_trace (idx sub k n : Nat) : (s.bump idx sub k n).trace = s.trace := rfl
@[simp] theorem State.bump_out (idx sub k n : Nat) : (s.bump idx sub k n).out = s.out := rfl
@[simp] theorem State.bump_free (idx sub k n : Nat) : (s.bump idx sub k n).free = s.free := rfl

@[simp] theorem State.drawn_pending : (s.drawn).pending = s.pending := rfl
@[simp] theorem State.drawn_ctl : (s.drawn).ctl = s.ctl := rfl
@[simp] theorem State.drawn_time : (s.drawn).time = s.time := rfl
@[simp] theorem State.drawn_od : (s.drawn).od = s.od := rfl
@[simp] theorem State.drawn_files : (s.drawn).files = s.files := rfl
@[simp] theorem State.drawn_pails : (s.drawn).pails = s.pails := rfl
@[simp] theorem State.drawn_store : (s.drawn).store = s.store := rfl
@[simp] theorem State.drawn_churns : (s.drawn).churns = s.churns := rfl
@[simp] theorem State.drawn_saved : (s.drawn).saved = s.saved := rfl
@[simp] theorem State.drawn_hbm : (s.drawn).hbm = s.hbm := rfl
@[simp] theorem State.drawn_dmaq : (s.drawn).dmaq = s.dmaq := rfl
@[simp] theorem State.drawn_attnq : (s.drawn).attnq = s.attnq := rfl
@[simp] theorem State.drawn_sync : (s.drawn).sync = s.sync := rfl
@[simp] theorem State.drawn_ctxs : (s.drawn).ctxs = s.ctxs := rfl
@[simp] theorem State.drawn_current : (s.drawn).current = s.current := rfl
@[simp] theorem State.drawn_switchTo : (s.drawn).switchTo = s.switchTo := rfl
@[simp] theorem State.drawn_switchBusy : (s.drawn).switchBusy = s.switchBusy := rfl
@[simp] theorem State.drawn_host : (s.drawn).host = s.host := rfl
@[simp] theorem State.drawn_rt : (s.drawn).rt = s.rt := rfl
@[simp] theorem State.drawn_tasks : (s.drawn).tasks = s.tasks := rfl
@[simp] theorem State.drawn_opt : (s.drawn).opt = s.opt := rfl
@[simp] theorem State.drawn_svc : (s.drawn).svc = s.svc := rfl
@[simp] theorem State.drawn_pow : (s.drawn).pow = s.pow := rfl
@[simp] theorem State.drawn_clk : (s.drawn).clk = s.clk := rfl
@[simp] theorem State.drawn_sec : (s.drawn).sec = s.sec := rfl
@[simp] theorem State.drawn_tap : (s.drawn).tap = s.tap := rfl
@[simp] theorem State.drawn_herd : (s.drawn).herd = s.herd := rfl
@[simp] theorem State.drawn_trace : (s.drawn).trace = s.trace := rfl
@[simp] theorem State.drawn_out : (s.drawn).out = s.out := rfl

@[simp] theorem State.stamped_pending (inst : Nat) : (s.stamped inst).pending = s.pending := rfl
@[simp] theorem State.stamped_ctl (inst : Nat) : (s.stamped inst).ctl = s.ctl := rfl
@[simp] theorem State.stamped_od (inst : Nat) : (s.stamped inst).od = s.od := rfl
@[simp] theorem State.stamped_files (inst : Nat) : (s.stamped inst).files = s.files := rfl
@[simp] theorem State.stamped_pails (inst : Nat) : (s.stamped inst).pails = s.pails := rfl
@[simp] theorem State.stamped_store (inst : Nat) : (s.stamped inst).store = s.store := rfl
@[simp] theorem State.stamped_churns (inst : Nat) : (s.stamped inst).churns = s.churns := rfl
@[simp] theorem State.stamped_saved (inst : Nat) : (s.stamped inst).saved = s.saved := rfl
@[simp] theorem State.stamped_hbm (inst : Nat) : (s.stamped inst).hbm = s.hbm := rfl
@[simp] theorem State.stamped_dmaq (inst : Nat) : (s.stamped inst).dmaq = s.dmaq := rfl
@[simp] theorem State.stamped_attnq (inst : Nat) : (s.stamped inst).attnq = s.attnq := rfl
@[simp] theorem State.stamped_sync (inst : Nat) : (s.stamped inst).sync = s.sync := rfl
@[simp] theorem State.stamped_ctxs (inst : Nat) : (s.stamped inst).ctxs = s.ctxs := rfl
@[simp] theorem State.stamped_current (inst : Nat) : (s.stamped inst).current = s.current := rfl
@[simp] theorem State.stamped_switchTo (inst : Nat) : (s.stamped inst).switchTo = s.switchTo := rfl
@[simp] theorem State.stamped_switchBusy (inst : Nat) : (s.stamped inst).switchBusy = s.switchBusy := rfl
@[simp] theorem State.stamped_host (inst : Nat) : (s.stamped inst).host = s.host := rfl
@[simp] theorem State.stamped_rt (inst : Nat) : (s.stamped inst).rt = s.rt := rfl
@[simp] theorem State.stamped_tasks (inst : Nat) : (s.stamped inst).tasks = s.tasks := rfl
@[simp] theorem State.stamped_opt (inst : Nat) : (s.stamped inst).opt = s.opt := rfl
@[simp] theorem State.stamped_svc (inst : Nat) : (s.stamped inst).svc = s.svc := rfl
@[simp] theorem State.stamped_pow (inst : Nat) : (s.stamped inst).pow = s.pow := rfl
@[simp] theorem State.stamped_clk (inst : Nat) : (s.stamped inst).clk = s.clk := rfl
@[simp] theorem State.stamped_sec (inst : Nat) : (s.stamped inst).sec = s.sec := rfl
@[simp] theorem State.stamped_tap (inst : Nat) : (s.stamped inst).tap = s.tap := rfl
@[simp] theorem State.stamped_herd (inst : Nat) : (s.stamped inst).herd = s.herd := rfl
@[simp] theorem State.stamped_trace (inst : Nat) : (s.stamped inst).trace = s.trace := rfl
@[simp] theorem State.stamped_out (inst : Nat) : (s.stamped inst).out = s.out := rfl

@[simp] theorem State.setCtx_pending (c : Nat) (x : Ctx) : (s.setCtx c x).pending = s.pending := rfl
@[simp] theorem State.setCtx_ctl (c : Nat) (x : Ctx) : (s.setCtx c x).ctl = s.ctl := rfl
@[simp] theorem State.setCtx_time (c : Nat) (x : Ctx) : (s.setCtx c x).time = s.time := rfl
@[simp] theorem State.setCtx_od (c : Nat) (x : Ctx) : (s.setCtx c x).od = s.od := rfl
@[simp] theorem State.setCtx_files (c : Nat) (x : Ctx) : (s.setCtx c x).files = s.files := rfl
@[simp] theorem State.setCtx_pails (c : Nat) (x : Ctx) : (s.setCtx c x).pails = s.pails := rfl
@[simp] theorem State.setCtx_store (c : Nat) (x : Ctx) : (s.setCtx c x).store = s.store := rfl
@[simp] theorem State.setCtx_churns (c : Nat) (x : Ctx) : (s.setCtx c x).churns = s.churns := rfl
@[simp] theorem State.setCtx_saved (c : Nat) (x : Ctx) : (s.setCtx c x).saved = s.saved := rfl
@[simp] theorem State.setCtx_hbm (c : Nat) (x : Ctx) : (s.setCtx c x).hbm = s.hbm := rfl
@[simp] theorem State.setCtx_dmaq (c : Nat) (x : Ctx) : (s.setCtx c x).dmaq = s.dmaq := rfl
@[simp] theorem State.setCtx_attnq (c : Nat) (x : Ctx) : (s.setCtx c x).attnq = s.attnq := rfl
@[simp] theorem State.setCtx_sync (c : Nat) (x : Ctx) : (s.setCtx c x).sync = s.sync := rfl
@[simp] theorem State.setCtx_current (c : Nat) (x : Ctx) : (s.setCtx c x).current = s.current := rfl
@[simp] theorem State.setCtx_switchTo (c : Nat) (x : Ctx) : (s.setCtx c x).switchTo = s.switchTo := rfl
@[simp] theorem State.setCtx_switchBusy (c : Nat) (x : Ctx) : (s.setCtx c x).switchBusy = s.switchBusy := rfl
@[simp] theorem State.setCtx_host (c : Nat) (x : Ctx) : (s.setCtx c x).host = s.host := rfl
@[simp] theorem State.setCtx_rt (c : Nat) (x : Ctx) : (s.setCtx c x).rt = s.rt := rfl
@[simp] theorem State.setCtx_tasks (c : Nat) (x : Ctx) : (s.setCtx c x).tasks = s.tasks := rfl
@[simp] theorem State.setCtx_opt (c : Nat) (x : Ctx) : (s.setCtx c x).opt = s.opt := rfl
@[simp] theorem State.setCtx_svc (c : Nat) (x : Ctx) : (s.setCtx c x).svc = s.svc := rfl
@[simp] theorem State.setCtx_pow (c : Nat) (x : Ctx) : (s.setCtx c x).pow = s.pow := rfl
@[simp] theorem State.setCtx_clk (c : Nat) (x : Ctx) : (s.setCtx c x).clk = s.clk := rfl
@[simp] theorem State.setCtx_sec (c : Nat) (x : Ctx) : (s.setCtx c x).sec = s.sec := rfl
@[simp] theorem State.setCtx_tap (c : Nat) (x : Ctx) : (s.setCtx c x).tap = s.tap := rfl
@[simp] theorem State.setCtx_herd (c : Nat) (x : Ctx) : (s.setCtx c x).herd = s.herd := rfl
@[simp] theorem State.setCtx_trace (c : Nat) (x : Ctx) : (s.setCtx c x).trace = s.trace := rfl
@[simp] theorem State.setCtx_out (c : Nat) (x : Ctx) : (s.setCtx c x).out = s.out := rfl
@[simp] theorem State.setCtx_free (c : Nat) (x : Ctx) : (s.setCtx c x).free = s.free := rfl

@[simp] theorem State.putByte_pending (a : Nat) (b : Byte) : (s.putByte a b).pending = s.pending := rfl
@[simp] theorem State.putByte_ctl (a : Nat) (b : Byte) : (s.putByte a b).ctl = s.ctl := rfl
@[simp] theorem State.putByte_time (a : Nat) (b : Byte) : (s.putByte a b).time = s.time := rfl
@[simp] theorem State.putByte_od (a : Nat) (b : Byte) : (s.putByte a b).od = s.od := rfl
@[simp] theorem State.putByte_files (a : Nat) (b : Byte) : (s.putByte a b).files = s.files := rfl
@[simp] theorem State.putByte_pails (a : Nat) (b : Byte) : (s.putByte a b).pails = s.pails := rfl
@[simp] theorem State.putByte_store (a : Nat) (b : Byte) : (s.putByte a b).store = s.store := rfl
@[simp] theorem State.putByte_churns (a : Nat) (b : Byte) : (s.putByte a b).churns = s.churns := rfl
@[simp] theorem State.putByte_saved (a : Nat) (b : Byte) : (s.putByte a b).saved = s.saved := rfl
@[simp] theorem State.putByte_dmaq (a : Nat) (b : Byte) : (s.putByte a b).dmaq = s.dmaq := rfl
@[simp] theorem State.putByte_attnq (a : Nat) (b : Byte) : (s.putByte a b).attnq = s.attnq := rfl
@[simp] theorem State.putByte_sync (a : Nat) (b : Byte) : (s.putByte a b).sync = s.sync := rfl
@[simp] theorem State.putByte_ctxs (a : Nat) (b : Byte) : (s.putByte a b).ctxs = s.ctxs := rfl
@[simp] theorem State.putByte_current (a : Nat) (b : Byte) : (s.putByte a b).current = s.current := rfl
@[simp] theorem State.putByte_switchTo (a : Nat) (b : Byte) : (s.putByte a b).switchTo = s.switchTo := rfl
@[simp] theorem State.putByte_switchBusy (a : Nat) (b : Byte) : (s.putByte a b).switchBusy = s.switchBusy := rfl
@[simp] theorem State.putByte_host (a : Nat) (b : Byte) : (s.putByte a b).host = s.host := rfl
@[simp] theorem State.putByte_rt (a : Nat) (b : Byte) : (s.putByte a b).rt = s.rt := rfl
@[simp] theorem State.putByte_tasks (a : Nat) (b : Byte) : (s.putByte a b).tasks = s.tasks := rfl
@[simp] theorem State.putByte_opt (a : Nat) (b : Byte) : (s.putByte a b).opt = s.opt := rfl
@[simp] theorem State.putByte_svc (a : Nat) (b : Byte) : (s.putByte a b).svc = s.svc := rfl
@[simp] theorem State.putByte_pow (a : Nat) (b : Byte) : (s.putByte a b).pow = s.pow := rfl
@[simp] theorem State.putByte_clk (a : Nat) (b : Byte) : (s.putByte a b).clk = s.clk := rfl
@[simp] theorem State.putByte_sec (a : Nat) (b : Byte) : (s.putByte a b).sec = s.sec := rfl
@[simp] theorem State.putByte_tap (a : Nat) (b : Byte) : (s.putByte a b).tap = s.tap := rfl
@[simp] theorem State.putByte_herd (a : Nat) (b : Byte) : (s.putByte a b).herd = s.herd := rfl
@[simp] theorem State.putByte_trace (a : Nat) (b : Byte) : (s.putByte a b).trace = s.trace := rfl
@[simp] theorem State.putByte_out (a : Nat) (b : Byte) : (s.putByte a b).out = s.out := rfl
@[simp] theorem State.putByte_free (a : Nat) (b : Byte) : (s.putByte a b).free = s.free := rfl

@[simp] theorem State.setPoison_pending (a : Nat) (p : Bool) : (s.setPoison a p).pending = s.pending := rfl
@[simp] theorem State.setPoison_ctl (a : Nat) (p : Bool) : (s.setPoison a p).ctl = s.ctl := rfl
@[simp] theorem State.setPoison_time (a : Nat) (p : Bool) : (s.setPoison a p).time = s.time := rfl
@[simp] theorem State.setPoison_od (a : Nat) (p : Bool) : (s.setPoison a p).od = s.od := rfl
@[simp] theorem State.setPoison_files (a : Nat) (p : Bool) : (s.setPoison a p).files = s.files := rfl
@[simp] theorem State.setPoison_pails (a : Nat) (p : Bool) : (s.setPoison a p).pails = s.pails := rfl
@[simp] theorem State.setPoison_store (a : Nat) (p : Bool) : (s.setPoison a p).store = s.store := rfl
@[simp] theorem State.setPoison_churns (a : Nat) (p : Bool) : (s.setPoison a p).churns = s.churns := rfl
@[simp] theorem State.setPoison_saved (a : Nat) (p : Bool) : (s.setPoison a p).saved = s.saved := rfl
@[simp] theorem State.setPoison_dmaq (a : Nat) (p : Bool) : (s.setPoison a p).dmaq = s.dmaq := rfl
@[simp] theorem State.setPoison_attnq (a : Nat) (p : Bool) : (s.setPoison a p).attnq = s.attnq := rfl
@[simp] theorem State.setPoison_sync (a : Nat) (p : Bool) : (s.setPoison a p).sync = s.sync := rfl
@[simp] theorem State.setPoison_ctxs (a : Nat) (p : Bool) : (s.setPoison a p).ctxs = s.ctxs := rfl
@[simp] theorem State.setPoison_current (a : Nat) (p : Bool) : (s.setPoison a p).current = s.current := rfl
@[simp] theorem State.setPoison_switchTo (a : Nat) (p : Bool) : (s.setPoison a p).switchTo = s.switchTo := rfl
@[simp] theorem State.setPoison_switchBusy (a : Nat) (p : Bool) : (s.setPoison a p).switchBusy = s.switchBusy := rfl
@[simp] theorem State.setPoison_host (a : Nat) (p : Bool) : (s.setPoison a p).host = s.host := rfl
@[simp] theorem State.setPoison_rt (a : Nat) (p : Bool) : (s.setPoison a p).rt = s.rt := rfl
@[simp] theorem State.setPoison_tasks (a : Nat) (p : Bool) : (s.setPoison a p).tasks = s.tasks := rfl
@[simp] theorem State.setPoison_opt (a : Nat) (p : Bool) : (s.setPoison a p).opt = s.opt := rfl
@[simp] theorem State.setPoison_svc (a : Nat) (p : Bool) : (s.setPoison a p).svc = s.svc := rfl
@[simp] theorem State.setPoison_pow (a : Nat) (p : Bool) : (s.setPoison a p).pow = s.pow := rfl
@[simp] theorem State.setPoison_clk (a : Nat) (p : Bool) : (s.setPoison a p).clk = s.clk := rfl
@[simp] theorem State.setPoison_sec (a : Nat) (p : Bool) : (s.setPoison a p).sec = s.sec := rfl
@[simp] theorem State.setPoison_tap (a : Nat) (p : Bool) : (s.setPoison a p).tap = s.tap := rfl
@[simp] theorem State.setPoison_herd (a : Nat) (p : Bool) : (s.setPoison a p).herd = s.herd := rfl
@[simp] theorem State.setPoison_trace (a : Nat) (p : Bool) : (s.setPoison a p).trace = s.trace := rfl
@[simp] theorem State.setPoison_out (a : Nat) (p : Bool) : (s.setPoison a p).out = s.out := rfl
@[simp] theorem State.setPoison_free (a : Nat) (p : Bool) : (s.setPoison a p).free = s.free := rfl

@[simp] theorem State.putStore_pending (core off : Nat) (b : Byte) : (s.putStore core off b).pending = s.pending := rfl
@[simp] theorem State.putStore_ctl (core off : Nat) (b : Byte) : (s.putStore core off b).ctl = s.ctl := rfl
@[simp] theorem State.putStore_time (core off : Nat) (b : Byte) : (s.putStore core off b).time = s.time := rfl
@[simp] theorem State.putStore_od (core off : Nat) (b : Byte) : (s.putStore core off b).od = s.od := rfl
@[simp] theorem State.putStore_files (core off : Nat) (b : Byte) : (s.putStore core off b).files = s.files := rfl
@[simp] theorem State.putStore_pails (core off : Nat) (b : Byte) : (s.putStore core off b).pails = s.pails := rfl
@[simp] theorem State.putStore_churns (core off : Nat) (b : Byte) : (s.putStore core off b).churns = s.churns := rfl
@[simp] theorem State.putStore_saved (core off : Nat) (b : Byte) : (s.putStore core off b).saved = s.saved := rfl
@[simp] theorem State.putStore_hbm (core off : Nat) (b : Byte) : (s.putStore core off b).hbm = s.hbm := rfl
@[simp] theorem State.putStore_dmaq (core off : Nat) (b : Byte) : (s.putStore core off b).dmaq = s.dmaq := rfl
@[simp] theorem State.putStore_attnq (core off : Nat) (b : Byte) : (s.putStore core off b).attnq = s.attnq := rfl
@[simp] theorem State.putStore_sync (core off : Nat) (b : Byte) : (s.putStore core off b).sync = s.sync := rfl
@[simp] theorem State.putStore_ctxs (core off : Nat) (b : Byte) : (s.putStore core off b).ctxs = s.ctxs := rfl
@[simp] theorem State.putStore_current (core off : Nat) (b : Byte) : (s.putStore core off b).current = s.current := rfl
@[simp] theorem State.putStore_switchTo (core off : Nat) (b : Byte) : (s.putStore core off b).switchTo = s.switchTo := rfl
@[simp] theorem State.putStore_switchBusy (core off : Nat) (b : Byte) : (s.putStore core off b).switchBusy = s.switchBusy := rfl
@[simp] theorem State.putStore_host (core off : Nat) (b : Byte) : (s.putStore core off b).host = s.host := rfl
@[simp] theorem State.putStore_rt (core off : Nat) (b : Byte) : (s.putStore core off b).rt = s.rt := rfl
@[simp] theorem State.putStore_tasks (core off : Nat) (b : Byte) : (s.putStore core off b).tasks = s.tasks := rfl
@[simp] theorem State.putStore_opt (core off : Nat) (b : Byte) : (s.putStore core off b).opt = s.opt := rfl
@[simp] theorem State.putStore_svc (core off : Nat) (b : Byte) : (s.putStore core off b).svc = s.svc := rfl
@[simp] theorem State.putStore_pow (core off : Nat) (b : Byte) : (s.putStore core off b).pow = s.pow := rfl
@[simp] theorem State.putStore_clk (core off : Nat) (b : Byte) : (s.putStore core off b).clk = s.clk := rfl
@[simp] theorem State.putStore_sec (core off : Nat) (b : Byte) : (s.putStore core off b).sec = s.sec := rfl
@[simp] theorem State.putStore_tap (core off : Nat) (b : Byte) : (s.putStore core off b).tap = s.tap := rfl
@[simp] theorem State.putStore_herd (core off : Nat) (b : Byte) : (s.putStore core off b).herd = s.herd := rfl
@[simp] theorem State.putStore_trace (core off : Nat) (b : Byte) : (s.putStore core off b).trace = s.trace := rfl
@[simp] theorem State.putStore_out (core off : Nat) (b : Byte) : (s.putStore core off b).out = s.out := rfl
@[simp] theorem State.putStore_free (core off : Nat) (b : Byte) : (s.putStore core off b).free = s.free := rfl

@[simp] theorem State.setPail_pending (core p i : Nat) (w : Word) : (s.setPail core p i w).pending = s.pending := rfl
@[simp] theorem State.setPail_ctl (core p i : Nat) (w : Word) : (s.setPail core p i w).ctl = s.ctl := rfl
@[simp] theorem State.setPail_time (core p i : Nat) (w : Word) : (s.setPail core p i w).time = s.time := rfl
@[simp] theorem State.setPail_od (core p i : Nat) (w : Word) : (s.setPail core p i w).od = s.od := rfl
@[simp] theorem State.setPail_files (core p i : Nat) (w : Word) : (s.setPail core p i w).files = s.files := rfl
@[simp] theorem State.setPail_store (core p i : Nat) (w : Word) : (s.setPail core p i w).store = s.store := rfl
@[simp] theorem State.setPail_churns (core p i : Nat) (w : Word) : (s.setPail core p i w).churns = s.churns := rfl
@[simp] theorem State.setPail_saved (core p i : Nat) (w : Word) : (s.setPail core p i w).saved = s.saved := rfl
@[simp] theorem State.setPail_hbm (core p i : Nat) (w : Word) : (s.setPail core p i w).hbm = s.hbm := rfl
@[simp] theorem State.setPail_dmaq (core p i : Nat) (w : Word) : (s.setPail core p i w).dmaq = s.dmaq := rfl
@[simp] theorem State.setPail_attnq (core p i : Nat) (w : Word) : (s.setPail core p i w).attnq = s.attnq := rfl
@[simp] theorem State.setPail_sync (core p i : Nat) (w : Word) : (s.setPail core p i w).sync = s.sync := rfl
@[simp] theorem State.setPail_ctxs (core p i : Nat) (w : Word) : (s.setPail core p i w).ctxs = s.ctxs := rfl
@[simp] theorem State.setPail_current (core p i : Nat) (w : Word) : (s.setPail core p i w).current = s.current := rfl
@[simp] theorem State.setPail_switchTo (core p i : Nat) (w : Word) : (s.setPail core p i w).switchTo = s.switchTo := rfl
@[simp] theorem State.setPail_switchBusy (core p i : Nat) (w : Word) : (s.setPail core p i w).switchBusy = s.switchBusy := rfl
@[simp] theorem State.setPail_host (core p i : Nat) (w : Word) : (s.setPail core p i w).host = s.host := rfl
@[simp] theorem State.setPail_rt (core p i : Nat) (w : Word) : (s.setPail core p i w).rt = s.rt := rfl
@[simp] theorem State.setPail_tasks (core p i : Nat) (w : Word) : (s.setPail core p i w).tasks = s.tasks := rfl
@[simp] theorem State.setPail_opt (core p i : Nat) (w : Word) : (s.setPail core p i w).opt = s.opt := rfl
@[simp] theorem State.setPail_svc (core p i : Nat) (w : Word) : (s.setPail core p i w).svc = s.svc := rfl
@[simp] theorem State.setPail_pow (core p i : Nat) (w : Word) : (s.setPail core p i w).pow = s.pow := rfl
@[simp] theorem State.setPail_clk (core p i : Nat) (w : Word) : (s.setPail core p i w).clk = s.clk := rfl
@[simp] theorem State.setPail_sec (core p i : Nat) (w : Word) : (s.setPail core p i w).sec = s.sec := rfl
@[simp] theorem State.setPail_tap (core p i : Nat) (w : Word) : (s.setPail core p i w).tap = s.tap := rfl
@[simp] theorem State.setPail_herd (core p i : Nat) (w : Word) : (s.setPail core p i w).herd = s.herd := rfl
@[simp] theorem State.setPail_trace (core p i : Nat) (w : Word) : (s.setPail core p i w).trace = s.trace := rfl
@[simp] theorem State.setPail_out (core p i : Nat) (w : Word) : (s.setPail core p i w).out = s.out := rfl
@[simp] theorem State.setPail_free (core p i : Nat) (w : Word) : (s.setPail core p i w).free = s.free := rfl

@[simp] theorem State.setFile_pending (core ctx : Nat) (f : CoreFile) : (s.setFile core ctx f).pending = s.pending := rfl
@[simp] theorem State.setFile_ctl (core ctx : Nat) (f : CoreFile) : (s.setFile core ctx f).ctl = s.ctl := rfl
@[simp] theorem State.setFile_time (core ctx : Nat) (f : CoreFile) : (s.setFile core ctx f).time = s.time := rfl
@[simp] theorem State.setFile_od (core ctx : Nat) (f : CoreFile) : (s.setFile core ctx f).od = s.od := rfl
@[simp] theorem State.setFile_pails (core ctx : Nat) (f : CoreFile) : (s.setFile core ctx f).pails = s.pails := rfl
@[simp] theorem State.setFile_store (core ctx : Nat) (f : CoreFile) : (s.setFile core ctx f).store = s.store := rfl
@[simp] theorem State.setFile_churns (core ctx : Nat) (f : CoreFile) : (s.setFile core ctx f).churns = s.churns := rfl
@[simp] theorem State.setFile_saved (core ctx : Nat) (f : CoreFile) : (s.setFile core ctx f).saved = s.saved := rfl
@[simp] theorem State.setFile_hbm (core ctx : Nat) (f : CoreFile) : (s.setFile core ctx f).hbm = s.hbm := rfl
@[simp] theorem State.setFile_dmaq (core ctx : Nat) (f : CoreFile) : (s.setFile core ctx f).dmaq = s.dmaq := rfl
@[simp] theorem State.setFile_attnq (core ctx : Nat) (f : CoreFile) : (s.setFile core ctx f).attnq = s.attnq := rfl
@[simp] theorem State.setFile_sync (core ctx : Nat) (f : CoreFile) : (s.setFile core ctx f).sync = s.sync := rfl
@[simp] theorem State.setFile_ctxs (core ctx : Nat) (f : CoreFile) : (s.setFile core ctx f).ctxs = s.ctxs := rfl
@[simp] theorem State.setFile_current (core ctx : Nat) (f : CoreFile) : (s.setFile core ctx f).current = s.current := rfl
@[simp] theorem State.setFile_switchTo (core ctx : Nat) (f : CoreFile) : (s.setFile core ctx f).switchTo = s.switchTo := rfl
@[simp] theorem State.setFile_switchBusy (core ctx : Nat) (f : CoreFile) : (s.setFile core ctx f).switchBusy = s.switchBusy := rfl
@[simp] theorem State.setFile_host (core ctx : Nat) (f : CoreFile) : (s.setFile core ctx f).host = s.host := rfl
@[simp] theorem State.setFile_rt (core ctx : Nat) (f : CoreFile) : (s.setFile core ctx f).rt = s.rt := rfl
@[simp] theorem State.setFile_tasks (core ctx : Nat) (f : CoreFile) : (s.setFile core ctx f).tasks = s.tasks := rfl
@[simp] theorem State.setFile_opt (core ctx : Nat) (f : CoreFile) : (s.setFile core ctx f).opt = s.opt := rfl
@[simp] theorem State.setFile_svc (core ctx : Nat) (f : CoreFile) : (s.setFile core ctx f).svc = s.svc := rfl
@[simp] theorem State.setFile_pow (core ctx : Nat) (f : CoreFile) : (s.setFile core ctx f).pow = s.pow := rfl
@[simp] theorem State.setFile_clk (core ctx : Nat) (f : CoreFile) : (s.setFile core ctx f).clk = s.clk := rfl
@[simp] theorem State.setFile_sec (core ctx : Nat) (f : CoreFile) : (s.setFile core ctx f).sec = s.sec := rfl
@[simp] theorem State.setFile_tap (core ctx : Nat) (f : CoreFile) : (s.setFile core ctx f).tap = s.tap := rfl
@[simp] theorem State.setFile_herd (core ctx : Nat) (f : CoreFile) : (s.setFile core ctx f).herd = s.herd := rfl
@[simp] theorem State.setFile_trace (core ctx : Nat) (f : CoreFile) : (s.setFile core ctx f).trace = s.trace := rfl
@[simp] theorem State.setFile_out (core ctx : Nat) (f : CoreFile) : (s.setFile core ctx f).out = s.out := rfl
@[simp] theorem State.setFile_free (core ctx : Nat) (f : CoreFile) : (s.setFile core ctx f).free = s.free := rfl

@[simp] theorem State.setChurn_pending (ch : Nat) (x : Churn) : (s.setChurn ch x).pending = s.pending := rfl
@[simp] theorem State.setChurn_ctl (ch : Nat) (x : Churn) : (s.setChurn ch x).ctl = s.ctl := rfl
@[simp] theorem State.setChurn_time (ch : Nat) (x : Churn) : (s.setChurn ch x).time = s.time := rfl
@[simp] theorem State.setChurn_od (ch : Nat) (x : Churn) : (s.setChurn ch x).od = s.od := rfl
@[simp] theorem State.setChurn_files (ch : Nat) (x : Churn) : (s.setChurn ch x).files = s.files := rfl
@[simp] theorem State.setChurn_pails (ch : Nat) (x : Churn) : (s.setChurn ch x).pails = s.pails := rfl
@[simp] theorem State.setChurn_store (ch : Nat) (x : Churn) : (s.setChurn ch x).store = s.store := rfl
@[simp] theorem State.setChurn_saved (ch : Nat) (x : Churn) : (s.setChurn ch x).saved = s.saved := rfl
@[simp] theorem State.setChurn_hbm (ch : Nat) (x : Churn) : (s.setChurn ch x).hbm = s.hbm := rfl
@[simp] theorem State.setChurn_dmaq (ch : Nat) (x : Churn) : (s.setChurn ch x).dmaq = s.dmaq := rfl
@[simp] theorem State.setChurn_attnq (ch : Nat) (x : Churn) : (s.setChurn ch x).attnq = s.attnq := rfl
@[simp] theorem State.setChurn_sync (ch : Nat) (x : Churn) : (s.setChurn ch x).sync = s.sync := rfl
@[simp] theorem State.setChurn_ctxs (ch : Nat) (x : Churn) : (s.setChurn ch x).ctxs = s.ctxs := rfl
@[simp] theorem State.setChurn_current (ch : Nat) (x : Churn) : (s.setChurn ch x).current = s.current := rfl
@[simp] theorem State.setChurn_switchTo (ch : Nat) (x : Churn) : (s.setChurn ch x).switchTo = s.switchTo := rfl
@[simp] theorem State.setChurn_switchBusy (ch : Nat) (x : Churn) : (s.setChurn ch x).switchBusy = s.switchBusy := rfl
@[simp] theorem State.setChurn_host (ch : Nat) (x : Churn) : (s.setChurn ch x).host = s.host := rfl
@[simp] theorem State.setChurn_rt (ch : Nat) (x : Churn) : (s.setChurn ch x).rt = s.rt := rfl
@[simp] theorem State.setChurn_tasks (ch : Nat) (x : Churn) : (s.setChurn ch x).tasks = s.tasks := rfl
@[simp] theorem State.setChurn_opt (ch : Nat) (x : Churn) : (s.setChurn ch x).opt = s.opt := rfl
@[simp] theorem State.setChurn_svc (ch : Nat) (x : Churn) : (s.setChurn ch x).svc = s.svc := rfl
@[simp] theorem State.setChurn_pow (ch : Nat) (x : Churn) : (s.setChurn ch x).pow = s.pow := rfl
@[simp] theorem State.setChurn_clk (ch : Nat) (x : Churn) : (s.setChurn ch x).clk = s.clk := rfl
@[simp] theorem State.setChurn_sec (ch : Nat) (x : Churn) : (s.setChurn ch x).sec = s.sec := rfl
@[simp] theorem State.setChurn_tap (ch : Nat) (x : Churn) : (s.setChurn ch x).tap = s.tap := rfl
@[simp] theorem State.setChurn_herd (ch : Nat) (x : Churn) : (s.setChurn ch x).herd = s.herd := rfl
@[simp] theorem State.setChurn_trace (ch : Nat) (x : Churn) : (s.setChurn ch x).trace = s.trace := rfl
@[simp] theorem State.setChurn_out (ch : Nat) (x : Churn) : (s.setChurn ch x).out = s.out := rfl
@[simp] theorem State.setChurn_free (ch : Nat) (x : Churn) : (s.setChurn ch x).free = s.free := rfl

@[simp] theorem State.emit_pending (o : Out) : (s.emit o).pending = s.pending := rfl
@[simp] theorem State.emit_ctl (o : Out) : (s.emit o).ctl = s.ctl := rfl
@[simp] theorem State.emit_time (o : Out) : (s.emit o).time = s.time := rfl
@[simp] theorem State.emit_od (o : Out) : (s.emit o).od = s.od := rfl
@[simp] theorem State.emit_files (o : Out) : (s.emit o).files = s.files := rfl
@[simp] theorem State.emit_pails (o : Out) : (s.emit o).pails = s.pails := rfl
@[simp] theorem State.emit_store (o : Out) : (s.emit o).store = s.store := rfl
@[simp] theorem State.emit_churns (o : Out) : (s.emit o).churns = s.churns := rfl
@[simp] theorem State.emit_saved (o : Out) : (s.emit o).saved = s.saved := rfl
@[simp] theorem State.emit_hbm (o : Out) : (s.emit o).hbm = s.hbm := rfl
@[simp] theorem State.emit_dmaq (o : Out) : (s.emit o).dmaq = s.dmaq := rfl
@[simp] theorem State.emit_attnq (o : Out) : (s.emit o).attnq = s.attnq := rfl
@[simp] theorem State.emit_sync (o : Out) : (s.emit o).sync = s.sync := rfl
@[simp] theorem State.emit_ctxs (o : Out) : (s.emit o).ctxs = s.ctxs := rfl
@[simp] theorem State.emit_current (o : Out) : (s.emit o).current = s.current := rfl
@[simp] theorem State.emit_switchTo (o : Out) : (s.emit o).switchTo = s.switchTo := rfl
@[simp] theorem State.emit_switchBusy (o : Out) : (s.emit o).switchBusy = s.switchBusy := rfl
@[simp] theorem State.emit_host (o : Out) : (s.emit o).host = s.host := rfl
@[simp] theorem State.emit_rt (o : Out) : (s.emit o).rt = s.rt := rfl
@[simp] theorem State.emit_tasks (o : Out) : (s.emit o).tasks = s.tasks := rfl
@[simp] theorem State.emit_opt (o : Out) : (s.emit o).opt = s.opt := rfl
@[simp] theorem State.emit_svc (o : Out) : (s.emit o).svc = s.svc := rfl
@[simp] theorem State.emit_pow (o : Out) : (s.emit o).pow = s.pow := rfl
@[simp] theorem State.emit_clk (o : Out) : (s.emit o).clk = s.clk := rfl
@[simp] theorem State.emit_sec (o : Out) : (s.emit o).sec = s.sec := rfl
@[simp] theorem State.emit_tap (o : Out) : (s.emit o).tap = s.tap := rfl
@[simp] theorem State.emit_herd (o : Out) : (s.emit o).herd = s.herd := rfl
@[simp] theorem State.emit_trace (o : Out) : (s.emit o).trace = s.trace := rfl
@[simp] theorem State.emit_free (o : Out) : (s.emit o).free = s.free := rfl

@[simp] theorem State.selectIr_pending (ir : Nat) : (s.selectIr ir).pending = s.pending := rfl
@[simp] theorem State.selectIr_ctl (ir : Nat) : (s.selectIr ir).ctl = s.ctl := rfl
@[simp] theorem State.selectIr_time (ir : Nat) : (s.selectIr ir).time = s.time := rfl
@[simp] theorem State.selectIr_od (ir : Nat) : (s.selectIr ir).od = s.od := rfl
@[simp] theorem State.selectIr_files (ir : Nat) : (s.selectIr ir).files = s.files := rfl
@[simp] theorem State.selectIr_pails (ir : Nat) : (s.selectIr ir).pails = s.pails := rfl
@[simp] theorem State.selectIr_store (ir : Nat) : (s.selectIr ir).store = s.store := rfl
@[simp] theorem State.selectIr_churns (ir : Nat) : (s.selectIr ir).churns = s.churns := rfl
@[simp] theorem State.selectIr_saved (ir : Nat) : (s.selectIr ir).saved = s.saved := rfl
@[simp] theorem State.selectIr_hbm (ir : Nat) : (s.selectIr ir).hbm = s.hbm := rfl
@[simp] theorem State.selectIr_dmaq (ir : Nat) : (s.selectIr ir).dmaq = s.dmaq := rfl
@[simp] theorem State.selectIr_attnq (ir : Nat) : (s.selectIr ir).attnq = s.attnq := rfl
@[simp] theorem State.selectIr_sync (ir : Nat) : (s.selectIr ir).sync = s.sync := rfl
@[simp] theorem State.selectIr_ctxs (ir : Nat) : (s.selectIr ir).ctxs = s.ctxs := rfl
@[simp] theorem State.selectIr_current (ir : Nat) : (s.selectIr ir).current = s.current := rfl
@[simp] theorem State.selectIr_switchTo (ir : Nat) : (s.selectIr ir).switchTo = s.switchTo := rfl
@[simp] theorem State.selectIr_switchBusy (ir : Nat) : (s.selectIr ir).switchBusy = s.switchBusy := rfl
@[simp] theorem State.selectIr_host (ir : Nat) : (s.selectIr ir).host = s.host := rfl
@[simp] theorem State.selectIr_rt (ir : Nat) : (s.selectIr ir).rt = s.rt := rfl
@[simp] theorem State.selectIr_tasks (ir : Nat) : (s.selectIr ir).tasks = s.tasks := rfl
@[simp] theorem State.selectIr_opt (ir : Nat) : (s.selectIr ir).opt = s.opt := rfl
@[simp] theorem State.selectIr_svc (ir : Nat) : (s.selectIr ir).svc = s.svc := rfl
@[simp] theorem State.selectIr_pow (ir : Nat) : (s.selectIr ir).pow = s.pow := rfl
@[simp] theorem State.selectIr_clk (ir : Nat) : (s.selectIr ir).clk = s.clk := rfl
@[simp] theorem State.selectIr_sec (ir : Nat) : (s.selectIr ir).sec = s.sec := rfl
@[simp] theorem State.selectIr_herd (ir : Nat) : (s.selectIr ir).herd = s.herd := rfl
@[simp] theorem State.selectIr_trace (ir : Nat) : (s.selectIr ir).trace = s.trace := rfl
@[simp] theorem State.selectIr_out (ir : Nat) : (s.selectIr ir).out = s.out := rfl
@[simp] theorem State.selectIr_free (ir : Nat) : (s.selectIr ir).free = s.free := rfl

@[simp] theorem State.advance_pending (n : Nat) : (s.advance n).pending = s.pending := rfl
@[simp] theorem State.advance_od (n : Nat) : (s.advance n).od = s.od := rfl
@[simp] theorem State.advance_files (n : Nat) : (s.advance n).files = s.files := rfl
@[simp] theorem State.advance_pails (n : Nat) : (s.advance n).pails = s.pails := rfl
@[simp] theorem State.advance_store (n : Nat) : (s.advance n).store = s.store := rfl
@[simp] theorem State.advance_churns (n : Nat) : (s.advance n).churns = s.churns := rfl
@[simp] theorem State.advance_saved (n : Nat) : (s.advance n).saved = s.saved := rfl
@[simp] theorem State.advance_hbm (n : Nat) : (s.advance n).hbm = s.hbm := rfl
@[simp] theorem State.advance_dmaq (n : Nat) : (s.advance n).dmaq = s.dmaq := rfl
@[simp] theorem State.advance_attnq (n : Nat) : (s.advance n).attnq = s.attnq := rfl
@[simp] theorem State.advance_sync (n : Nat) : (s.advance n).sync = s.sync := rfl
@[simp] theorem State.advance_ctxs (n : Nat) : (s.advance n).ctxs = s.ctxs := rfl
@[simp] theorem State.advance_current (n : Nat) : (s.advance n).current = s.current := rfl
@[simp] theorem State.advance_switchTo (n : Nat) : (s.advance n).switchTo = s.switchTo := rfl
@[simp] theorem State.advance_switchBusy (n : Nat) : (s.advance n).switchBusy = s.switchBusy := rfl
@[simp] theorem State.advance_host (n : Nat) : (s.advance n).host = s.host := rfl
@[simp] theorem State.advance_rt (n : Nat) : (s.advance n).rt = s.rt := rfl
@[simp] theorem State.advance_tasks (n : Nat) : (s.advance n).tasks = s.tasks := rfl
@[simp] theorem State.advance_opt (n : Nat) : (s.advance n).opt = s.opt := rfl
@[simp] theorem State.advance_svc (n : Nat) : (s.advance n).svc = s.svc := rfl
@[simp] theorem State.advance_pow (n : Nat) : (s.advance n).pow = s.pow := rfl
@[simp] theorem State.advance_clk (n : Nat) : (s.advance n).clk = s.clk := rfl
@[simp] theorem State.advance_sec (n : Nat) : (s.advance n).sec = s.sec := rfl
@[simp] theorem State.advance_tap (n : Nat) : (s.advance n).tap = s.tap := rfl
@[simp] theorem State.advance_herd (n : Nat) : (s.advance n).herd = s.herd := rfl
@[simp] theorem State.advance_trace (n : Nat) : (s.advance n).trace = s.trace := rfl
@[simp] theorem State.advance_out (n : Nat) : (s.advance n).out = s.out := rfl
@[simp] theorem State.advance_free (n : Nat) : (s.advance n).free = s.free := rfl

@[simp] theorem State.traced_pending (src fin unit status tag arg : Nat) : (s.traced src fin unit status tag arg).pending = s.pending := by
  unfold State.traced; split
  · split <;> rfl
  · rfl
@[simp] theorem State.traced_ctl (src fin unit status tag arg : Nat) : (s.traced src fin unit status tag arg).ctl = s.ctl := by
  unfold State.traced; split
  · split <;> rfl
  · rfl
@[simp] theorem State.traced_files (src fin unit status tag arg : Nat) : (s.traced src fin unit status tag arg).files = s.files := by
  unfold State.traced; split
  · split <;> rfl
  · rfl
@[simp] theorem State.traced_pails (src fin unit status tag arg : Nat) : (s.traced src fin unit status tag arg).pails = s.pails := by
  unfold State.traced; split
  · split <;> rfl
  · rfl
@[simp] theorem State.traced_store (src fin unit status tag arg : Nat) : (s.traced src fin unit status tag arg).store = s.store := by
  unfold State.traced; split
  · split <;> rfl
  · rfl
@[simp] theorem State.traced_churns (src fin unit status tag arg : Nat) : (s.traced src fin unit status tag arg).churns = s.churns := by
  unfold State.traced; split
  · split <;> rfl
  · rfl
@[simp] theorem State.traced_saved (src fin unit status tag arg : Nat) : (s.traced src fin unit status tag arg).saved = s.saved := by
  unfold State.traced; split
  · split <;> rfl
  · rfl
@[simp] theorem State.traced_hbm (src fin unit status tag arg : Nat) : (s.traced src fin unit status tag arg).hbm = s.hbm := by
  unfold State.traced; split
  · split <;> rfl
  · rfl
@[simp] theorem State.traced_dmaq (src fin unit status tag arg : Nat) : (s.traced src fin unit status tag arg).dmaq = s.dmaq := by
  unfold State.traced; split
  · split <;> rfl
  · rfl
@[simp] theorem State.traced_attnq (src fin unit status tag arg : Nat) : (s.traced src fin unit status tag arg).attnq = s.attnq := by
  unfold State.traced; split
  · split <;> rfl
  · rfl
@[simp] theorem State.traced_sync (src fin unit status tag arg : Nat) : (s.traced src fin unit status tag arg).sync = s.sync := by
  unfold State.traced; split
  · split <;> rfl
  · rfl
@[simp] theorem State.traced_ctxs (src fin unit status tag arg : Nat) : (s.traced src fin unit status tag arg).ctxs = s.ctxs := by
  unfold State.traced; split
  · split <;> rfl
  · rfl
@[simp] theorem State.traced_current (src fin unit status tag arg : Nat) : (s.traced src fin unit status tag arg).current = s.current := by
  unfold State.traced; split
  · split <;> rfl
  · rfl
@[simp] theorem State.traced_switchTo (src fin unit status tag arg : Nat) : (s.traced src fin unit status tag arg).switchTo = s.switchTo := by
  unfold State.traced; split
  · split <;> rfl
  · rfl
@[simp] theorem State.traced_switchBusy (src fin unit status tag arg : Nat) : (s.traced src fin unit status tag arg).switchBusy = s.switchBusy := by
  unfold State.traced; split
  · split <;> rfl
  · rfl
@[simp] theorem State.traced_host (src fin unit status tag arg : Nat) : (s.traced src fin unit status tag arg).host = s.host := by
  unfold State.traced; split
  · split <;> rfl
  · rfl
@[simp] theorem State.traced_rt (src fin unit status tag arg : Nat) : (s.traced src fin unit status tag arg).rt = s.rt := by
  unfold State.traced; split
  · split <;> rfl
  · rfl
@[simp] theorem State.traced_tasks (src fin unit status tag arg : Nat) : (s.traced src fin unit status tag arg).tasks = s.tasks := by
  unfold State.traced; split
  · split <;> rfl
  · rfl
@[simp] theorem State.traced_opt (src fin unit status tag arg : Nat) : (s.traced src fin unit status tag arg).opt = s.opt := by
  unfold State.traced; split
  · split <;> rfl
  · rfl
@[simp] theorem State.traced_svc (src fin unit status tag arg : Nat) : (s.traced src fin unit status tag arg).svc = s.svc := by
  unfold State.traced; split
  · split <;> rfl
  · rfl
@[simp] theorem State.traced_pow (src fin unit status tag arg : Nat) : (s.traced src fin unit status tag arg).pow = s.pow := by
  unfold State.traced; split
  · split <;> rfl
  · rfl
@[simp] theorem State.traced_clk (src fin unit status tag arg : Nat) : (s.traced src fin unit status tag arg).clk = s.clk := by
  unfold State.traced; split
  · split <;> rfl
  · rfl
@[simp] theorem State.traced_sec (src fin unit status tag arg : Nat) : (s.traced src fin unit status tag arg).sec = s.sec := by
  unfold State.traced; split
  · split <;> rfl
  · rfl
@[simp] theorem State.traced_tap (src fin unit status tag arg : Nat) : (s.traced src fin unit status tag arg).tap = s.tap := by
  unfold State.traced; split
  · split <;> rfl
  · rfl
@[simp] theorem State.traced_herd (src fin unit status tag arg : Nat) : (s.traced src fin unit status tag arg).herd = s.herd := by
  unfold State.traced; split
  · split <;> rfl
  · rfl
@[simp] theorem State.traced_out (src fin unit status tag arg : Nat) : (s.traced src fin unit status tag arg).out = s.out := by
  unfold State.traced; split
  · split <;> rfl
  · rfl

@[simp] theorem State.herdEvent_pending (kind inst : Nat) (q : Int) (arg : Nat) : (s.herdEvent kind inst q arg).pending = s.pending := by
  unfold State.herdEvent; split
  · rfl
  · split <;> rfl
@[simp] theorem State.herdEvent_ctl (kind inst : Nat) (q : Int) (arg : Nat) : (s.herdEvent kind inst q arg).ctl = s.ctl := by
  unfold State.herdEvent; split
  · rfl
  · split <;> rfl
@[simp] theorem State.herdEvent_time (kind inst : Nat) (q : Int) (arg : Nat) : (s.herdEvent kind inst q arg).time = s.time := by
  unfold State.herdEvent; split
  · rfl
  · split <;> rfl
@[simp] theorem State.herdEvent_files (kind inst : Nat) (q : Int) (arg : Nat) : (s.herdEvent kind inst q arg).files = s.files := by
  unfold State.herdEvent; split
  · rfl
  · split <;> rfl
@[simp] theorem State.herdEvent_pails (kind inst : Nat) (q : Int) (arg : Nat) : (s.herdEvent kind inst q arg).pails = s.pails := by
  unfold State.herdEvent; split
  · rfl
  · split <;> rfl
@[simp] theorem State.herdEvent_store (kind inst : Nat) (q : Int) (arg : Nat) : (s.herdEvent kind inst q arg).store = s.store := by
  unfold State.herdEvent; split
  · rfl
  · split <;> rfl
@[simp] theorem State.herdEvent_churns (kind inst : Nat) (q : Int) (arg : Nat) : (s.herdEvent kind inst q arg).churns = s.churns := by
  unfold State.herdEvent; split
  · rfl
  · split <;> rfl
@[simp] theorem State.herdEvent_saved (kind inst : Nat) (q : Int) (arg : Nat) : (s.herdEvent kind inst q arg).saved = s.saved := by
  unfold State.herdEvent; split
  · rfl
  · split <;> rfl
@[simp] theorem State.herdEvent_hbm (kind inst : Nat) (q : Int) (arg : Nat) : (s.herdEvent kind inst q arg).hbm = s.hbm := by
  unfold State.herdEvent; split
  · rfl
  · split <;> rfl
@[simp] theorem State.herdEvent_dmaq (kind inst : Nat) (q : Int) (arg : Nat) : (s.herdEvent kind inst q arg).dmaq = s.dmaq := by
  unfold State.herdEvent; split
  · rfl
  · split <;> rfl
@[simp] theorem State.herdEvent_attnq (kind inst : Nat) (q : Int) (arg : Nat) : (s.herdEvent kind inst q arg).attnq = s.attnq := by
  unfold State.herdEvent; split
  · rfl
  · split <;> rfl
@[simp] theorem State.herdEvent_sync (kind inst : Nat) (q : Int) (arg : Nat) : (s.herdEvent kind inst q arg).sync = s.sync := by
  unfold State.herdEvent; split
  · rfl
  · split <;> rfl
@[simp] theorem State.herdEvent_ctxs (kind inst : Nat) (q : Int) (arg : Nat) : (s.herdEvent kind inst q arg).ctxs = s.ctxs := by
  unfold State.herdEvent; split
  · rfl
  · split <;> rfl
@[simp] theorem State.herdEvent_current (kind inst : Nat) (q : Int) (arg : Nat) : (s.herdEvent kind inst q arg).current = s.current := by
  unfold State.herdEvent; split
  · rfl
  · split <;> rfl
@[simp] theorem State.herdEvent_switchTo (kind inst : Nat) (q : Int) (arg : Nat) : (s.herdEvent kind inst q arg).switchTo = s.switchTo := by
  unfold State.herdEvent; split
  · rfl
  · split <;> rfl
@[simp] theorem State.herdEvent_switchBusy (kind inst : Nat) (q : Int) (arg : Nat) : (s.herdEvent kind inst q arg).switchBusy = s.switchBusy := by
  unfold State.herdEvent; split
  · rfl
  · split <;> rfl
@[simp] theorem State.herdEvent_host (kind inst : Nat) (q : Int) (arg : Nat) : (s.herdEvent kind inst q arg).host = s.host := by
  unfold State.herdEvent; split
  · rfl
  · split <;> rfl
@[simp] theorem State.herdEvent_rt (kind inst : Nat) (q : Int) (arg : Nat) : (s.herdEvent kind inst q arg).rt = s.rt := by
  unfold State.herdEvent; split
  · rfl
  · split <;> rfl
@[simp] theorem State.herdEvent_tasks (kind inst : Nat) (q : Int) (arg : Nat) : (s.herdEvent kind inst q arg).tasks = s.tasks := by
  unfold State.herdEvent; split
  · rfl
  · split <;> rfl
@[simp] theorem State.herdEvent_opt (kind inst : Nat) (q : Int) (arg : Nat) : (s.herdEvent kind inst q arg).opt = s.opt := by
  unfold State.herdEvent; split
  · rfl
  · split <;> rfl
@[simp] theorem State.herdEvent_svc (kind inst : Nat) (q : Int) (arg : Nat) : (s.herdEvent kind inst q arg).svc = s.svc := by
  unfold State.herdEvent; split
  · rfl
  · split <;> rfl
@[simp] theorem State.herdEvent_pow (kind inst : Nat) (q : Int) (arg : Nat) : (s.herdEvent kind inst q arg).pow = s.pow := by
  unfold State.herdEvent; split
  · rfl
  · split <;> rfl
@[simp] theorem State.herdEvent_clk (kind inst : Nat) (q : Int) (arg : Nat) : (s.herdEvent kind inst q arg).clk = s.clk := by
  unfold State.herdEvent; split
  · rfl
  · split <;> rfl
@[simp] theorem State.herdEvent_sec (kind inst : Nat) (q : Int) (arg : Nat) : (s.herdEvent kind inst q arg).sec = s.sec := by
  unfold State.herdEvent; split
  · rfl
  · split <;> rfl
@[simp] theorem State.herdEvent_tap (kind inst : Nat) (q : Int) (arg : Nat) : (s.herdEvent kind inst q arg).tap = s.tap := by
  unfold State.herdEvent; split
  · rfl
  · split <;> rfl
@[simp] theorem State.herdEvent_trace (kind inst : Nat) (q : Int) (arg : Nat) : (s.herdEvent kind inst q arg).trace = s.trace := by
  unfold State.herdEvent; split
  · rfl
  · split <;> rfl
@[simp] theorem State.herdEvent_out (kind inst : Nat) (q : Int) (arg : Nat) : (s.herdEvent kind inst q arg).out = s.out := by
  unfold State.herdEvent; split
  · rfl
  · split <;> rfl
@[simp] theorem State.herdEvent_free (kind inst : Nat) (q : Int) (arg : Nat) : (s.herdEvent kind inst q arg).free = s.free := by
  unfold State.herdEvent; split
  · rfl
  · split <;> rfl

@[simp] theorem State.request_pending (n : Nat) : (s.request n).pending = s.pending := by
  unfold State.request; split <;> rfl
@[simp] theorem State.request_ctl (n : Nat) : (s.request n).ctl = s.ctl := by
  unfold State.request; split <;> rfl
@[simp] theorem State.request_time (n : Nat) : (s.request n).time = s.time := by
  unfold State.request; split <;> rfl
@[simp] theorem State.request_files (n : Nat) : (s.request n).files = s.files := by
  unfold State.request; split <;> rfl
@[simp] theorem State.request_pails (n : Nat) : (s.request n).pails = s.pails := by
  unfold State.request; split <;> rfl
@[simp] theorem State.request_store (n : Nat) : (s.request n).store = s.store := by
  unfold State.request; split <;> rfl
@[simp] theorem State.request_churns (n : Nat) : (s.request n).churns = s.churns := by
  unfold State.request; split <;> rfl
@[simp] theorem State.request_saved (n : Nat) : (s.request n).saved = s.saved := by
  unfold State.request; split <;> rfl
@[simp] theorem State.request_hbm (n : Nat) : (s.request n).hbm = s.hbm := by
  unfold State.request; split <;> rfl
@[simp] theorem State.request_dmaq (n : Nat) : (s.request n).dmaq = s.dmaq := by
  unfold State.request; split <;> rfl
@[simp] theorem State.request_attnq (n : Nat) : (s.request n).attnq = s.attnq := by
  unfold State.request; split <;> rfl
@[simp] theorem State.request_sync (n : Nat) : (s.request n).sync = s.sync := by
  unfold State.request; split <;> rfl
@[simp] theorem State.request_ctxs (n : Nat) : (s.request n).ctxs = s.ctxs := by
  unfold State.request; split <;> rfl
@[simp] theorem State.request_current (n : Nat) : (s.request n).current = s.current := by
  unfold State.request; split <;> rfl
@[simp] theorem State.request_switchTo (n : Nat) : (s.request n).switchTo = s.switchTo := by
  unfold State.request; split <;> rfl
@[simp] theorem State.request_switchBusy (n : Nat) : (s.request n).switchBusy = s.switchBusy := by
  unfold State.request; split <;> rfl
@[simp] theorem State.request_host (n : Nat) : (s.request n).host = s.host := by
  unfold State.request; split <;> rfl
@[simp] theorem State.request_rt (n : Nat) : (s.request n).rt = s.rt := by
  unfold State.request; split <;> rfl
@[simp] theorem State.request_tasks (n : Nat) : (s.request n).tasks = s.tasks := by
  unfold State.request; split <;> rfl
@[simp] theorem State.request_opt (n : Nat) : (s.request n).opt = s.opt := by
  unfold State.request; split <;> rfl
@[simp] theorem State.request_svc (n : Nat) : (s.request n).svc = s.svc := by
  unfold State.request; split <;> rfl
@[simp] theorem State.request_pow (n : Nat) : (s.request n).pow = s.pow := by
  unfold State.request; split <;> rfl
@[simp] theorem State.request_clk (n : Nat) : (s.request n).clk = s.clk := by
  unfold State.request; split <;> rfl
@[simp] theorem State.request_sec (n : Nat) : (s.request n).sec = s.sec := by
  unfold State.request; split <;> rfl
@[simp] theorem State.request_tap (n : Nat) : (s.request n).tap = s.tap := by
  unfold State.request; split <;> rfl
@[simp] theorem State.request_herd (n : Nat) : (s.request n).herd = s.herd := by
  unfold State.request; split <;> rfl
@[simp] theorem State.request_trace (n : Nat) : (s.request n).trace = s.trace := by
  unfold State.request; split <;> rfl
@[simp] theorem State.request_out (n : Nat) : (s.request n).out = s.out := by
  unfold State.request; split <;> rfl
@[simp] theorem State.request_free (n : Nat) : (s.request n).free = s.free := by
  unfold State.request; split <;> rfl

@[simp] theorem State.putMem_pending (a : Nat) (bs : List Byte) : (s.putMem a bs).pending = s.pending := by
  induction bs generalizing s a with
  | nil => rfl
  | cons b t ih => simp [State.putMem, ih]
@[simp] theorem State.putMem_ctl (a : Nat) (bs : List Byte) : (s.putMem a bs).ctl = s.ctl := by
  induction bs generalizing s a with
  | nil => rfl
  | cons b t ih => simp [State.putMem, ih]
@[simp] theorem State.putMem_time (a : Nat) (bs : List Byte) : (s.putMem a bs).time = s.time := by
  induction bs generalizing s a with
  | nil => rfl
  | cons b t ih => simp [State.putMem, ih]
@[simp] theorem State.putMem_od (a : Nat) (bs : List Byte) : (s.putMem a bs).od = s.od := by
  induction bs generalizing s a with
  | nil => rfl
  | cons b t ih => simp [State.putMem, ih]
@[simp] theorem State.putMem_files (a : Nat) (bs : List Byte) : (s.putMem a bs).files = s.files := by
  induction bs generalizing s a with
  | nil => rfl
  | cons b t ih => simp [State.putMem, ih]
@[simp] theorem State.putMem_pails (a : Nat) (bs : List Byte) : (s.putMem a bs).pails = s.pails := by
  induction bs generalizing s a with
  | nil => rfl
  | cons b t ih => simp [State.putMem, ih]
@[simp] theorem State.putMem_store (a : Nat) (bs : List Byte) : (s.putMem a bs).store = s.store := by
  induction bs generalizing s a with
  | nil => rfl
  | cons b t ih => simp [State.putMem, ih]
@[simp] theorem State.putMem_churns (a : Nat) (bs : List Byte) : (s.putMem a bs).churns = s.churns := by
  induction bs generalizing s a with
  | nil => rfl
  | cons b t ih => simp [State.putMem, ih]
@[simp] theorem State.putMem_saved (a : Nat) (bs : List Byte) : (s.putMem a bs).saved = s.saved := by
  induction bs generalizing s a with
  | nil => rfl
  | cons b t ih => simp [State.putMem, ih]
@[simp] theorem State.putMem_dmaq (a : Nat) (bs : List Byte) : (s.putMem a bs).dmaq = s.dmaq := by
  induction bs generalizing s a with
  | nil => rfl
  | cons b t ih => simp [State.putMem, ih]
@[simp] theorem State.putMem_attnq (a : Nat) (bs : List Byte) : (s.putMem a bs).attnq = s.attnq := by
  induction bs generalizing s a with
  | nil => rfl
  | cons b t ih => simp [State.putMem, ih]
@[simp] theorem State.putMem_sync (a : Nat) (bs : List Byte) : (s.putMem a bs).sync = s.sync := by
  induction bs generalizing s a with
  | nil => rfl
  | cons b t ih => simp [State.putMem, ih]
@[simp] theorem State.putMem_ctxs (a : Nat) (bs : List Byte) : (s.putMem a bs).ctxs = s.ctxs := by
  induction bs generalizing s a with
  | nil => rfl
  | cons b t ih => simp [State.putMem, ih]
@[simp] theorem State.putMem_current (a : Nat) (bs : List Byte) : (s.putMem a bs).current = s.current := by
  induction bs generalizing s a with
  | nil => rfl
  | cons b t ih => simp [State.putMem, ih]
@[simp] theorem State.putMem_switchTo (a : Nat) (bs : List Byte) : (s.putMem a bs).switchTo = s.switchTo := by
  induction bs generalizing s a with
  | nil => rfl
  | cons b t ih => simp [State.putMem, ih]
@[simp] theorem State.putMem_switchBusy (a : Nat) (bs : List Byte) : (s.putMem a bs).switchBusy = s.switchBusy := by
  induction bs generalizing s a with
  | nil => rfl
  | cons b t ih => simp [State.putMem, ih]
@[simp] theorem State.putMem_host (a : Nat) (bs : List Byte) : (s.putMem a bs).host = s.host := by
  induction bs generalizing s a with
  | nil => rfl
  | cons b t ih => simp [State.putMem, ih]
@[simp] theorem State.putMem_rt (a : Nat) (bs : List Byte) : (s.putMem a bs).rt = s.rt := by
  induction bs generalizing s a with
  | nil => rfl
  | cons b t ih => simp [State.putMem, ih]
@[simp] theorem State.putMem_tasks (a : Nat) (bs : List Byte) : (s.putMem a bs).tasks = s.tasks := by
  induction bs generalizing s a with
  | nil => rfl
  | cons b t ih => simp [State.putMem, ih]
@[simp] theorem State.putMem_opt (a : Nat) (bs : List Byte) : (s.putMem a bs).opt = s.opt := by
  induction bs generalizing s a with
  | nil => rfl
  | cons b t ih => simp [State.putMem, ih]
@[simp] theorem State.putMem_svc (a : Nat) (bs : List Byte) : (s.putMem a bs).svc = s.svc := by
  induction bs generalizing s a with
  | nil => rfl
  | cons b t ih => simp [State.putMem, ih]
@[simp] theorem State.putMem_pow (a : Nat) (bs : List Byte) : (s.putMem a bs).pow = s.pow := by
  induction bs generalizing s a with
  | nil => rfl
  | cons b t ih => simp [State.putMem, ih]
@[simp] theorem State.putMem_clk (a : Nat) (bs : List Byte) : (s.putMem a bs).clk = s.clk := by
  induction bs generalizing s a with
  | nil => rfl
  | cons b t ih => simp [State.putMem, ih]
@[simp] theorem State.putMem_sec (a : Nat) (bs : List Byte) : (s.putMem a bs).sec = s.sec := by
  induction bs generalizing s a with
  | nil => rfl
  | cons b t ih => simp [State.putMem, ih]
@[simp] theorem State.putMem_tap (a : Nat) (bs : List Byte) : (s.putMem a bs).tap = s.tap := by
  induction bs generalizing s a with
  | nil => rfl
  | cons b t ih => simp [State.putMem, ih]
@[simp] theorem State.putMem_herd (a : Nat) (bs : List Byte) : (s.putMem a bs).herd = s.herd := by
  induction bs generalizing s a with
  | nil => rfl
  | cons b t ih => simp [State.putMem, ih]
@[simp] theorem State.putMem_trace (a : Nat) (bs : List Byte) : (s.putMem a bs).trace = s.trace := by
  induction bs generalizing s a with
  | nil => rfl
  | cons b t ih => simp [State.putMem, ih]
@[simp] theorem State.putMem_out (a : Nat) (bs : List Byte) : (s.putMem a bs).out = s.out := by
  induction bs generalizing s a with
  | nil => rfl
  | cons b t ih => simp [State.putMem, ih]
@[simp] theorem State.putMem_free (a : Nat) (bs : List Byte) : (s.putMem a bs).free = s.free := by
  induction bs generalizing s a with
  | nil => rfl
  | cons b t ih => simp [State.putMem, ih]

@[simp] theorem State.putStoreRun_pending (core off : Nat) (bs : List Byte) : (s.putStoreRun core off bs).pending = s.pending := by
  induction bs generalizing s off with
  | nil => rfl
  | cons b t ih => simp [State.putStoreRun, ih]
@[simp] theorem State.putStoreRun_ctl (core off : Nat) (bs : List Byte) : (s.putStoreRun core off bs).ctl = s.ctl := by
  induction bs generalizing s off with
  | nil => rfl
  | cons b t ih => simp [State.putStoreRun, ih]
@[simp] theorem State.putStoreRun_time (core off : Nat) (bs : List Byte) : (s.putStoreRun core off bs).time = s.time := by
  induction bs generalizing s off with
  | nil => rfl
  | cons b t ih => simp [State.putStoreRun, ih]
@[simp] theorem State.putStoreRun_od (core off : Nat) (bs : List Byte) : (s.putStoreRun core off bs).od = s.od := by
  induction bs generalizing s off with
  | nil => rfl
  | cons b t ih => simp [State.putStoreRun, ih]
@[simp] theorem State.putStoreRun_files (core off : Nat) (bs : List Byte) : (s.putStoreRun core off bs).files = s.files := by
  induction bs generalizing s off with
  | nil => rfl
  | cons b t ih => simp [State.putStoreRun, ih]
@[simp] theorem State.putStoreRun_pails (core off : Nat) (bs : List Byte) : (s.putStoreRun core off bs).pails = s.pails := by
  induction bs generalizing s off with
  | nil => rfl
  | cons b t ih => simp [State.putStoreRun, ih]
@[simp] theorem State.putStoreRun_churns (core off : Nat) (bs : List Byte) : (s.putStoreRun core off bs).churns = s.churns := by
  induction bs generalizing s off with
  | nil => rfl
  | cons b t ih => simp [State.putStoreRun, ih]
@[simp] theorem State.putStoreRun_saved (core off : Nat) (bs : List Byte) : (s.putStoreRun core off bs).saved = s.saved := by
  induction bs generalizing s off with
  | nil => rfl
  | cons b t ih => simp [State.putStoreRun, ih]
@[simp] theorem State.putStoreRun_hbm (core off : Nat) (bs : List Byte) : (s.putStoreRun core off bs).hbm = s.hbm := by
  induction bs generalizing s off with
  | nil => rfl
  | cons b t ih => simp [State.putStoreRun, ih]
@[simp] theorem State.putStoreRun_dmaq (core off : Nat) (bs : List Byte) : (s.putStoreRun core off bs).dmaq = s.dmaq := by
  induction bs generalizing s off with
  | nil => rfl
  | cons b t ih => simp [State.putStoreRun, ih]
@[simp] theorem State.putStoreRun_attnq (core off : Nat) (bs : List Byte) : (s.putStoreRun core off bs).attnq = s.attnq := by
  induction bs generalizing s off with
  | nil => rfl
  | cons b t ih => simp [State.putStoreRun, ih]
@[simp] theorem State.putStoreRun_sync (core off : Nat) (bs : List Byte) : (s.putStoreRun core off bs).sync = s.sync := by
  induction bs generalizing s off with
  | nil => rfl
  | cons b t ih => simp [State.putStoreRun, ih]
@[simp] theorem State.putStoreRun_ctxs (core off : Nat) (bs : List Byte) : (s.putStoreRun core off bs).ctxs = s.ctxs := by
  induction bs generalizing s off with
  | nil => rfl
  | cons b t ih => simp [State.putStoreRun, ih]
@[simp] theorem State.putStoreRun_current (core off : Nat) (bs : List Byte) : (s.putStoreRun core off bs).current = s.current := by
  induction bs generalizing s off with
  | nil => rfl
  | cons b t ih => simp [State.putStoreRun, ih]
@[simp] theorem State.putStoreRun_switchTo (core off : Nat) (bs : List Byte) : (s.putStoreRun core off bs).switchTo = s.switchTo := by
  induction bs generalizing s off with
  | nil => rfl
  | cons b t ih => simp [State.putStoreRun, ih]
@[simp] theorem State.putStoreRun_switchBusy (core off : Nat) (bs : List Byte) : (s.putStoreRun core off bs).switchBusy = s.switchBusy := by
  induction bs generalizing s off with
  | nil => rfl
  | cons b t ih => simp [State.putStoreRun, ih]
@[simp] theorem State.putStoreRun_host (core off : Nat) (bs : List Byte) : (s.putStoreRun core off bs).host = s.host := by
  induction bs generalizing s off with
  | nil => rfl
  | cons b t ih => simp [State.putStoreRun, ih]
@[simp] theorem State.putStoreRun_rt (core off : Nat) (bs : List Byte) : (s.putStoreRun core off bs).rt = s.rt := by
  induction bs generalizing s off with
  | nil => rfl
  | cons b t ih => simp [State.putStoreRun, ih]
@[simp] theorem State.putStoreRun_tasks (core off : Nat) (bs : List Byte) : (s.putStoreRun core off bs).tasks = s.tasks := by
  induction bs generalizing s off with
  | nil => rfl
  | cons b t ih => simp [State.putStoreRun, ih]
@[simp] theorem State.putStoreRun_opt (core off : Nat) (bs : List Byte) : (s.putStoreRun core off bs).opt = s.opt := by
  induction bs generalizing s off with
  | nil => rfl
  | cons b t ih => simp [State.putStoreRun, ih]
@[simp] theorem State.putStoreRun_svc (core off : Nat) (bs : List Byte) : (s.putStoreRun core off bs).svc = s.svc := by
  induction bs generalizing s off with
  | nil => rfl
  | cons b t ih => simp [State.putStoreRun, ih]
@[simp] theorem State.putStoreRun_pow (core off : Nat) (bs : List Byte) : (s.putStoreRun core off bs).pow = s.pow := by
  induction bs generalizing s off with
  | nil => rfl
  | cons b t ih => simp [State.putStoreRun, ih]
@[simp] theorem State.putStoreRun_clk (core off : Nat) (bs : List Byte) : (s.putStoreRun core off bs).clk = s.clk := by
  induction bs generalizing s off with
  | nil => rfl
  | cons b t ih => simp [State.putStoreRun, ih]
@[simp] theorem State.putStoreRun_sec (core off : Nat) (bs : List Byte) : (s.putStoreRun core off bs).sec = s.sec := by
  induction bs generalizing s off with
  | nil => rfl
  | cons b t ih => simp [State.putStoreRun, ih]
@[simp] theorem State.putStoreRun_tap (core off : Nat) (bs : List Byte) : (s.putStoreRun core off bs).tap = s.tap := by
  induction bs generalizing s off with
  | nil => rfl
  | cons b t ih => simp [State.putStoreRun, ih]
@[simp] theorem State.putStoreRun_herd (core off : Nat) (bs : List Byte) : (s.putStoreRun core off bs).herd = s.herd := by
  induction bs generalizing s off with
  | nil => rfl
  | cons b t ih => simp [State.putStoreRun, ih]
@[simp] theorem State.putStoreRun_trace (core off : Nat) (bs : List Byte) : (s.putStoreRun core off bs).trace = s.trace := by
  induction bs generalizing s off with
  | nil => rfl
  | cons b t ih => simp [State.putStoreRun, ih]
@[simp] theorem State.putStoreRun_out (core off : Nat) (bs : List Byte) : (s.putStoreRun core off bs).out = s.out := by
  induction bs generalizing s off with
  | nil => rfl
  | cons b t ih => simp [State.putStoreRun, ih]
@[simp] theorem State.putStoreRun_free (core off : Nat) (bs : List Byte) : (s.putStoreRun core off bs).free = s.free := by
  induction bs generalizing s off with
  | nil => rfl
  | cons b t ih => simp [State.putStoreRun, ih]

/-! ### Reads after writes -/

theorem State.odg_odp (idx sub k v idx' sub' k' : Nat) :
    (s.odp idx sub k v).odg idx' sub' k' = if odKey idx' sub' k' = odKey idx sub k then v else s.odg idx' sub' k' := by
  simp [State.odg, State.odp, Sparse.get_set]

@[simp] theorem State.odg_odp_same (idx sub k v : Nat) : (s.odp idx sub k v).odg idx sub k = v := by simp [State.odg_odp]

theorem State.file_setFile (core c : Nat) (f : CoreFile) (core' c' : Nat) :
    (s.setFile core c f).file core' c' = if core' * 64 + c' = core * 64 + c then f else s.file core' c' := by
  simp [State.file, State.setFile, Sparse.get_set]

@[simp] theorem State.file_setFile_same (core c : Nat) (f : CoreFile) : (s.setFile core c f).file core c = f := by
  simp [State.file_setFile]

theorem State.ctx_setCtx (c : Nat) (x : Ctx) (c' : Nat) : (s.setCtx c x).ctx c' = if c' = c then x else s.ctx c' := by
  simp [State.ctx, State.setCtx, Sparse.get_set]

@[simp] theorem State.ctx_setCtx_same (c : Nat) (x : Ctx) : (s.setCtx c x).ctx c = x := by simp [State.ctx_setCtx]

theorem State.churn_setChurn (ch : Nat) (x : Churn) (ch' : Nat) :
    (s.setChurn ch x).churn ch' = if ch' = ch then x else s.churn ch' := by
  simp [State.churn, State.setChurn, Sparse.get_set]

@[simp] theorem State.churn_setChurn_same (ch : Nat) (x : Churn) : (s.setChurn ch x).churn ch = x := by
  simp [State.churn_setChurn]

theorem State.memByte_putByte (a : Nat) (b : Byte) (a' : Nat) :
    (s.putByte a b).memByte a' = if a' = a then b else s.memByte a' := by
  simp [State.memByte, State.putByte, Sparse.get_set]

theorem State.storeByte_putStore (core off : Nat) (b : Byte) (core' off' : Nat) :
    (s.putStore core off b).storeByte core' off' =
      if storeKey core' off' = storeKey core off then b else s.storeByte core' off' := by
  simp [State.storeByte, State.putStore, Sparse.get_set]

theorem State.pail_setPail (core p i : Nat) (w : Word) (core' p' i' : Nat) :
    (s.setPail core p i w).pail core' p' i' =
      if core' * 16384 + p' * 256 + i' = core * 16384 + p * 256 + i then w else s.pail core' p' i' := by
  simp [State.pail, State.setPail, Sparse.get_set]

theorem CoreFile.reg_setReg (f : CoreFile) (i : Nat) (v : Dword) (j : Nat) :
    (f.setReg i v).reg j = if j = i ∧ i ≠ 0 then v else f.reg j := by
  unfold CoreFile.setReg CoreFile.reg
  by_cases hi : i = 0
  · subst hi
    simp
  · by_cases hj : j = 0
    · subst hj
      have : ¬ (0 = i) := fun h => hi h.symm
      simp [hi, this]
    · by_cases h : j = i
      · subst h; simp [hi]
      · simp [hi, hj, h, Sparse.get_set]

@[simp] theorem CoreFile.setReg_pc (f : CoreFile) (i : Nat) (v : Dword) : (f.setReg i v).pc = f.pc := by
  unfold CoreFile.setReg; split <;> rfl

@[simp] theorem CoreFile.setReg_masks (f : CoreFile) (i : Nat) (v : Dword) : (f.setReg i v).masks = f.masks := by
  unfold CoreFile.setReg; split <;> rfl

@[simp] theorem CoreFile.setReg_flags (f : CoreFile) (i : Nat) (v : Dword) : (f.setReg i v).flags = f.flags := by
  unfold CoreFile.setReg; split <;> rfl

@[simp] theorem CoreFile.setReg_stepOne (f : CoreFile) (i : Nat) (v : Dword) : (f.setReg i v).stepOne = f.stepOne := by
  unfold CoreFile.setReg; split <;> rfl

@[simp] theorem CoreFile.setReg_waiting (f : CoreFile) (i : Nat) (v : Dword) : (f.setReg i v).waiting = f.waiting := by
  unfold CoreFile.setReg; split <;> rfl

theorem CoreFile.mask_setMask (f : CoreFile) (i : Nat) (v : BitVec 256) (j : Nat) :
    (f.setMask i v).mask j = if j = i ∧ i ≠ 0 then v else f.mask j := by
  unfold CoreFile.setMask CoreFile.mask
  by_cases hi : i = 0
  · subst hi
    simp
  · by_cases hj : j = 0
    · subst hj
      have : ¬ (0 = i) := fun h => hi h.symm
      simp [hi, this]
    · by_cases h : j = i
      · subst h; simp [hi]
      · simp [hi, hj, h, Sparse.get_set]

/-! ### Module memory keeps its canonical form -/

theorem State.wf_putByte (a : Nat) (b : Byte) (h : Sparse.wf memZero s.hbm.mem = true) :
    Sparse.wf memZero (s.putByte a b).hbm.mem = true := Sparse.wf_set _ _ _ _ h

theorem State.wf_putMem (a : Nat) (bs : List Byte) (h : Sparse.wf memZero s.hbm.mem = true) :
    Sparse.wf memZero (s.putMem a bs).hbm.mem = true := by
  induction bs generalizing s a with
  | nil => exact h
  | cons b t ih => exact ih (s.putByte a b) (a + 1) (s.wf_putByte a b h)

@[simp] theorem State.setPoison_mem (a : Nat) (p : Bool) : (s.setPoison a p).hbm.mem = s.hbm.mem := rfl

end Sys2Proof.Machine
end

