-- ==== Sys2Proof/Laws/Core.lean ====
section
/-! SUPPORT. How a core issues an instruction: what `State.issue` answers for a word that issues, what follows it, and what writing a pail
does. -/

namespace Sys2Proof.Machine

@[simp] theorem State.replayed_zero (s : State) (wh : Nat) (e : Bool) : s.replayed 0 wh e = s := rfl

/-- A word that issues runs its effect. -/
theorem State.issue_of (s : State) (i : Issue) (c w : Nat) (ops : List Nat) (word : Nat → CoreFile → Nat → Nat)
    (body : State → Nat → Nat → Nat → State) (h : Claims.issues s i c w = true) (ho : ops.contains (opcOf w) = true) :
    s.issue i ops word body = (body s i.core.toNat c w).afterIssue i.core.toNat c := by
  simp only [Claims.issues, Bool.and_eq_true, decide_eq_true_eq, Bool.not_eq_true'] at h
  obtain ⟨⟨⟨⟨⟨⟨⟨h1, h2⟩, h3⟩, h4⟩, h5⟩, h6⟩, h7⟩, h8⟩ := h
  unfold State.issue
  simp [h1, h2, h3, h4, h5, h6, h7, h8, List.contains_iff_mem.mp ho]

/-- What follows an issued instruction leaves the registers, masks, flags and the PC as they are. -/
theorem State.afterIssue_file (s : State) (k c : Nat) :
    ((s.afterIssue k c).file k c).regs = (s.file k c).regs ∧ ((s.afterIssue k c).file k c).masks = (s.file k c).masks
      ∧ ((s.afterIssue k c).file k c).flags = (s.file k c).flags ∧ ((s.afterIssue k c).file k c).pc = (s.file k c).pc
      ∧ ((s.afterIssue k c).file k c).running = (s.file k c).running ∧ ((s.afterIssue k c).file k c).faulted = (s.file k c).faulted
      ∧ ((s.afterIssue k c).file k c).waiting = (s.file k c).waiting := by
  unfold State.afterIssue
  simp only
  split <;> simp [State.file, State.setFile]

theorem State.afterIssue_reg (s : State) (k c r : Nat) : ((s.afterIssue k c).file k c).reg r = (s.file k c).reg r := by
  unfold CoreFile.reg
  rw [(s.afterIssue_file k c).1]

theorem State.afterIssue_mask (s : State) (k c r : Nat) : ((s.afterIssue k c).file k c).mask r = (s.file k c).mask r := by
  unfold CoreFile.mask
  rw [(s.afterIssue_file k c).2.1]

theorem State.afterIssue_files (s : State) (k c j : Nat) (h : j ≠ k * 64 + c) :
    Sparse.get (fun _ => fileNone) (s.afterIssue k c).files j = Sparse.get (fun _ => fileNone) s.files j := by
  unfold State.afterIssue
  simp only
  split <;> simp [State.setFile, Sparse.get_set, h]

@[simp] theorem State.afterIssue_pending (s : State) (k c : Nat) : (s.afterIssue k c).pending = s.pending := by
  unfold State.afterIssue; simp only; split <;> simp
@[simp] theorem State.afterIssue_ctl (s : State) (k c : Nat) : (s.afterIssue k c).ctl = s.ctl := by
  unfold State.afterIssue; simp only; split <;> simp
@[simp] theorem State.afterIssue_pails (s : State) (k c : Nat) : (s.afterIssue k c).pails = s.pails := by
  unfold State.afterIssue; simp only; split <;> simp
@[simp] theorem State.afterIssue_store (s : State) (k c : Nat) : (s.afterIssue k c).store = s.store := by
  unfold State.afterIssue; simp only; split <;> simp
@[simp] theorem State.afterIssue_churns (s : State) (k c : Nat) : (s.afterIssue k c).churns = s.churns := by
  unfold State.afterIssue; simp only; split <;> simp
@[simp] theorem State.afterIssue_saved (s : State) (k c : Nat) : (s.afterIssue k c).saved = s.saved := by
  unfold State.afterIssue; simp only; split <;> simp
@[simp] theorem State.afterIssue_hbm (s : State) (k c : Nat) : (s.afterIssue k c).hbm = s.hbm := by
  unfold State.afterIssue; simp only; split <;> simp
@[simp] theorem State.afterIssue_dmaq (s : State) (k c : Nat) : (s.afterIssue k c).dmaq = s.dmaq := by
  unfold State.afterIssue; simp only; split <;> simp
@[simp] theorem State.afterIssue_attnq (s : State) (k c : Nat) : (s.afterIssue k c).attnq = s.attnq := by
  unfold State.afterIssue; simp only; split <;> simp
@[simp] theorem State.afterIssue_sync (s : State) (k c : Nat) : (s.afterIssue k c).sync = s.sync := by
  unfold State.afterIssue; simp only; split <;> simp
@[simp] theorem State.afterIssue_ctxs (s : State) (k c : Nat) : (s.afterIssue k c).ctxs = s.ctxs := by
  unfold State.afterIssue; simp only; split <;> simp
@[simp] theorem State.afterIssue_current (s : State) (k c : Nat) : (s.afterIssue k c).current = s.current := by
  unfold State.afterIssue; simp only; split <;> simp
@[simp] theorem State.afterIssue_switchTo (s : State) (k c : Nat) : (s.afterIssue k c).switchTo = s.switchTo := by
  unfold State.afterIssue; simp only; split <;> simp
@[simp] theorem State.afterIssue_switchBusy (s : State) (k c : Nat) : (s.afterIssue k c).switchBusy = s.switchBusy := by
  unfold State.afterIssue; simp only; split <;> simp
@[simp] theorem State.afterIssue_host (s : State) (k c : Nat) : (s.afterIssue k c).host = s.host := by
  unfold State.afterIssue; simp only; split <;> simp
@[simp] theorem State.afterIssue_rt (s : State) (k c : Nat) : (s.afterIssue k c).rt = s.rt := by
  unfold State.afterIssue; simp only; split <;> simp
@[simp] theorem State.afterIssue_tasks (s : State) (k c : Nat) : (s.afterIssue k c).tasks = s.tasks := by
  unfold State.afterIssue; simp only; split <;> simp
@[simp] theorem State.afterIssue_opt (s : State) (k c : Nat) : (s.afterIssue k c).opt = s.opt := by
  unfold State.afterIssue; simp only; split <;> simp
@[simp] theorem State.afterIssue_svc (s : State) (k c : Nat) : (s.afterIssue k c).svc = s.svc := by
  unfold State.afterIssue; simp only; split <;> simp
@[simp] theorem State.afterIssue_pow (s : State) (k c : Nat) : (s.afterIssue k c).pow = s.pow := by
  unfold State.afterIssue; simp only; split <;> simp
@[simp] theorem State.afterIssue_clk (s : State) (k c : Nat) : (s.afterIssue k c).clk = s.clk := by
  unfold State.afterIssue; simp only; split <;> simp
@[simp] theorem State.afterIssue_sec (s : State) (k c : Nat) : (s.afterIssue k c).sec = s.sec := by
  unfold State.afterIssue; simp only; split <;> simp
@[simp] theorem State.afterIssue_tap (s : State) (k c : Nat) : (s.afterIssue k c).tap = s.tap := by
  unfold State.afterIssue; simp only; split <;> simp
@[simp] theorem State.afterIssue_herd (s : State) (k c : Nat) : (s.afterIssue k c).herd = s.herd := by
  unfold State.afterIssue; simp only; split <;> simp
@[simp] theorem State.afterIssue_out (s : State) (k c : Nat) : (s.afterIssue k c).out = s.out := by
  unfold State.afterIssue; simp only; split <;> simp

@[simp] theorem State.nextPc_file (s : State) (k c : Nat) (f : CoreFile) :
    (s.nextPc k c f).file k c = ({ f with pc := f.pc + 8 } : CoreFile) := by simp [State.nextPc]

theorem State.nextPc_files (s : State) (k c : Nat) (f : CoreFile) (j : Nat) (h : j ≠ k * 64 + c) :
    Sparse.get (fun _ => fileNone) (s.nextPc k c f).files j = Sparse.get (fun _ => fileNone) s.files j := by
  simp [State.nextPc, State.setFile, Sparse.get_set, h]

@[simp] theorem State.nextPc_pending (s : State) (k c : Nat) (x : CoreFile) : (s.nextPc k c x).pending = s.pending := rfl
@[simp] theorem State.nextPc_ctl (s : State) (k c : Nat) (x : CoreFile) : (s.nextPc k c x).ctl = s.ctl := rfl
@[simp] theorem State.nextPc_pails (s : State) (k c : Nat) (x : CoreFile) : (s.nextPc k c x).pails = s.pails := rfl
@[simp] theorem State.nextPc_store (s : State) (k c : Nat) (x : CoreFile) : (s.nextPc k c x).store = s.store := rfl
@[simp] theorem State.nextPc_churns (s : State) (k c : Nat) (x : CoreFile) : (s.nextPc k c x).churns = s.churns := rfl
@[simp] theorem State.nextPc_saved (s : State) (k c : Nat) (x : CoreFile) : (s.nextPc k c x).saved = s.saved := rfl
@[simp] theorem State.nextPc_hbm (s : State) (k c : Nat) (x : CoreFile) : (s.nextPc k c x).hbm = s.hbm := rfl
@[simp] theorem State.nextPc_dmaq (s : State) (k c : Nat) (x : CoreFile) : (s.nextPc k c x).dmaq = s.dmaq := rfl
@[simp] theorem State.nextPc_attnq (s : State) (k c : Nat) (x : CoreFile) : (s.nextPc k c x).attnq = s.attnq := rfl
@[simp] theorem State.nextPc_sync (s : State) (k c : Nat) (x : CoreFile) : (s.nextPc k c x).sync = s.sync := rfl
@[simp] theorem State.nextPc_ctxs (s : State) (k c : Nat) (x : CoreFile) : (s.nextPc k c x).ctxs = s.ctxs := rfl
@[simp] theorem State.nextPc_current (s : State) (k c : Nat) (x : CoreFile) : (s.nextPc k c x).current = s.current := rfl
@[simp] theorem State.nextPc_switchTo (s : State) (k c : Nat) (x : CoreFile) : (s.nextPc k c x).switchTo = s.switchTo := rfl
@[simp] theorem State.nextPc_switchBusy (s : State) (k c : Nat) (x : CoreFile) : (s.nextPc k c x).switchBusy = s.switchBusy := rfl
@[simp] theorem State.nextPc_host (s : State) (k c : Nat) (x : CoreFile) : (s.nextPc k c x).host = s.host := rfl
@[simp] theorem State.nextPc_rt (s : State) (k c : Nat) (x : CoreFile) : (s.nextPc k c x).rt = s.rt := rfl
@[simp] theorem State.nextPc_tasks (s : State) (k c : Nat) (x : CoreFile) : (s.nextPc k c x).tasks = s.tasks := rfl
@[simp] theorem State.nextPc_opt (s : State) (k c : Nat) (x : CoreFile) : (s.nextPc k c x).opt = s.opt := rfl
@[simp] theorem State.nextPc_svc (s : State) (k c : Nat) (x : CoreFile) : (s.nextPc k c x).svc = s.svc := rfl
@[simp] theorem State.nextPc_pow (s : State) (k c : Nat) (x : CoreFile) : (s.nextPc k c x).pow = s.pow := rfl
@[simp] theorem State.nextPc_clk (s : State) (k c : Nat) (x : CoreFile) : (s.nextPc k c x).clk = s.clk := rfl
@[simp] theorem State.nextPc_sec (s : State) (k c : Nat) (x : CoreFile) : (s.nextPc k c x).sec = s.sec := rfl
@[simp] theorem State.nextPc_tap (s : State) (k c : Nat) (x : CoreFile) : (s.nextPc k c x).tap = s.tap := rfl
@[simp] theorem State.nextPc_herd (s : State) (k c : Nat) (x : CoreFile) : (s.nextPc k c x).herd = s.herd := rfl
@[simp] theorem State.nextPc_out (s : State) (k c : Nat) (x : CoreFile) : (s.nextPc k c x).out = s.out := rfl

end Sys2Proof.Machine
end

