-- ==== Sys2Proof/Laws/Memory.lean ====
section
/-! SUPPORT. Module memory: what reading a run of bytes gives, and what a write changes and keeps. -/

namespace Sys2Proof.Machine

theorem State.memBytes_length (s : State) (a n : Nat) : (s.memBytes a n).length = n := by
  induction n generalizing a with
  | zero => rfl
  | succ n ih => simp [State.memBytes, ih]

/-- A run less its first bytes is the run that begins behind them. -/
theorem State.memBytes_drop (s : State) (a n k : Nat) : (s.memBytes a n).drop k = s.memBytes (a + k) (n - k) := by
  induction n generalizing a k with
  | zero => simp [State.memBytes]
  | succ n ih =>
    cases k with
    | zero => simp
    | succ k => simp only [State.memBytes, List.drop_succ_cons, ih, Nat.add_sub_add_right]; rw [show a + 1 + k = a + (k + 1) by omega]

theorem State.memBytes_take (s : State) (a n k : Nat) : (s.memBytes a n).take k = s.memBytes a (Nat.min k n) := by
  induction n generalizing a k with
  | zero => simp [State.memBytes]
  | succ n ih =>
    cases k with
    | zero => simp [State.memBytes]
    | succ k => simp [State.memBytes, ih, Nat.succ_min_succ]

theorem State.memBytes_getElem? (s : State) (a n k : Nat) (h : k < n) : (s.memBytes a n)[k]? = some (s.memByte (a + k)) := by
  induction n generalizing a k with
  | zero => omega
  | succ n ih =>
    cases k with
    | zero => simp [State.memBytes]
    | succ k => simp only [State.memBytes, List.getElem?_cons_succ]; rw [ih (a + 1) k (by omega), show a + 1 + k = a + (k + 1) by omega]

/-- Reading a byte after a write of a run. -/
theorem State.memByte_putMem (s : State) (a : Nat) (bs : List Byte) (b : Nat) :
    (s.putMem a bs).memByte b = if a ≤ b ∧ b < a + bs.length then bs.getD (b - a) 0 else s.memByte b := by
  induction bs generalizing s a with
  | nil => rw [if_neg (by simp only [List.length_nil]; omega)]; rfl
  | cons x t ih =>
    simp only [State.putMem, ih, State.memByte_putByte, List.length_cons]
    by_cases h : b = a
    · subst h
      rw [if_neg (by omega), if_pos rfl, if_pos (by omega)]
      simp
    · by_cases h1 : a + 1 ≤ b ∧ b < a + 1 + t.length
      · have h2 : a ≤ b ∧ b < a + (t.length + 1) := by omega
        rw [if_pos h1, if_pos h2, show b - a = (b - (a + 1)) + 1 by omega]
        simp
      · have h2 : ¬ (a ≤ b ∧ b < a + (t.length + 1)) := by omega
        rw [if_neg h1, if_neg h2, if_neg h]

/-- A run reads back as it was written. -/
theorem State.memBytes_putMem (s : State) (a : Nat) (bs : List Byte) : (s.putMem a bs).memBytes a bs.length = bs := by
  apply List.ext_getElem?
  intro k
  by_cases h : k < bs.length
  · rw [State.memBytes_getElem? _ _ _ _ h, State.memByte_putMem]
    have : a ≤ a + k ∧ a + k < a + bs.length := by omega
    rw [if_pos this, Nat.add_sub_cancel_left, List.getElem?_eq_getElem h]
    simp [List.getD, List.getElem?_eq_getElem h]
  · rw [List.getElem?_eq_none (by rw [State.memBytes_length]; omega), List.getElem?_eq_none (by omega)]

/-- Writing a byte keeps module memory canonical. -/
theorem State.putByte_memOk (s : State) (a : Nat) (v : Byte) (h : s.memOk) : (s.putByte a v).memOk :=
  Sparse.wf_set memZero s.hbm.mem a v h

theorem State.putMem_memOk (s : State) (a : Nat) (bs : List Byte) (h : s.memOk) : (s.putMem a bs).memOk := by
  induction bs generalizing s a with
  | nil => exact h
  | cons x t ih => exact ih _ _ (s.putByte_memOk a x h)

end Sys2Proof.Machine
end

