-- ==== Sys2Proof/Laws/Keeps.lean ====
section
/-! SUPPORT. The two things that no command touches: the queue of pending commands, and the canonical form of module memory. A lemma
for each shared operation is in KeepsOps.lean, one for each command in KeepsCommands.lean. -/

namespace Sys2Proof.Machine

/-- From s to t the queue is unchanged and module memory stays canonical. -/
structure Keeps (s t : State) : Prop where
  pending : t.pending = s.pending
  mem : s.memOk → t.memOk

/-- Every next state of an outcome keeps the queue and the form of memory. -/
structure Leaves (s : State) (o : Host.Outcome State Fault Refusal) : Prop where
  next : ∀ t, o = .next t → Keeps s t

theorem Keeps.refl (s : State) : Keeps s s := ⟨rfl, id⟩

theorem Keeps.trans {s t u : State} (h : Keeps s t) (k : Keeps t u) : Keeps s u :=
  ⟨k.pending.trans h.pending, fun m => k.mem (h.mem m)⟩

theorem Keeps.step {s t u : State} (k : Keeps t u) (h : Keeps s t) : Keeps s u := h.trans k

theorem Keeps.of {s t u : State} (h : Keeps s t) (p : u.pending = t.pending) (m : u.hbm.mem = t.hbm.mem) : Keeps s u :=
  ⟨p.trans h.pending, fun x => by unfold State.memOk at *; rw [m]; exact h.mem x⟩

theorem Keeps.wipe {s t u : State} (h : Keeps s t) (p : u.pending = t.pending) (m : u.hbm.mem = []) : Keeps s u :=
  ⟨p.trans h.pending, fun _ => by unfold State.memOk; rw [m]; rfl⟩

theorem Keeps.foldl {α : Type} (f : State → α → State) (l : List α) (t : State) (h : ∀ u x, Keeps u (f u x)) :
    Keeps t (l.foldl f t) := by
  induction l generalizing t with
  | nil => exact Keeps.refl t
  | cons x l ih => exact (h t x).trans (ih _)

theorem Keeps.foldl1 {α β : Type} (f : State × β → α → State × β) (l : List α) (t : State × β)
    (h : ∀ (u : State × β) x, Keeps u.1 (f u x).1) : Keeps t.1 (l.foldl f t).1 := by
  induction l generalizing t with
  | nil => exact Keeps.refl t.1
  | cons x l ih => exact (h t x).trans (ih _)

theorem Leaves.next_of {s t : State} (h : Keeps s t) : Leaves s (.next t) := ⟨fun _ e => by cases e; exact h⟩

theorem Leaves.fault (s : State) (f : Fault) : Leaves s (.fault f) := ⟨fun _ e => by cases e⟩

theorem Leaves.refused (s : State) (r : Refusal) : Leaves s (.refused r) := ⟨fun _ e => by cases e⟩

theorem Keeps.upd {s t : State} {ctlv : Ctl} {timev : TimeUnit} {odv : Sparse Nat} {filesv : Sparse CoreFile} {pailsv : Sparse Word}
    {storev : Sparse Byte} {churnsv : Sparse Churn} {savedv : Sparse ChWork} {dmaqv : Sparse DescQ} {attnqv : Sparse DescQ} {syncv :
    SyncUnit} {ctxsv : Sparse Ctx} {currentv : Option Nat} {switchTov : Option (Nat × Nat)} {switchBusyv : Nat} {sharesv : Sparse Nat}
    {hostv : HostUnit} {rtv : Router} {tasksv : Routines} {optv : Optics} {svcv : Service} {powv : Power} {clkv : Clocks} {secv :
    Security} {tapv : Tap} {herdv : Herd} {tracev : Trace} {outv : List Out} {freev : Nat} (h : Keeps s t) :
        Keeps s ⟨t.pending, ctlv, timev, odv, filesv, pailsv, storev, churnsv, savedv, t.hbm, dmaqv, attnqv, syncv, ctxsv, currentv,
        switchTov, switchBusyv, sharesv, hostv, rtv, tasksv, optv, svcv, powv, clkv, secv, tapv, herdv, tracev, outv, freev⟩ := h.of
        rfl rfl

theorem Keeps.updHbm {s t : State} {ctlv : Ctl} {timev : TimeUnit} {odv : Sparse Nat} {filesv : Sparse CoreFile} {pailsv : Sparse Word}
    {storev : Sparse Byte} {churnsv : Sparse Churn} {savedv : Sparse ChWork} {dmaqv : Sparse DescQ} {attnqv : Sparse DescQ} {syncv :
    SyncUnit} {ctxsv : Sparse Ctx} {currentv : Option Nat} {switchTov : Option (Nat × Nat)} {switchBusyv : Nat} {sharesv : Sparse Nat}
    {hostv : HostUnit} {rtv : Router} {tasksv : Routines} {optv : Optics} {svcv : Service} {powv : Power} {clkv : Clocks} {secv :
    Security} {tapv : Tap} {herdv : Herd} {tracev : Trace} {outv : List Out} {freev : Nat} {poisonh : Sparse Bool} {corrLogh : List
    (Nat × Nat)} {rowsUsedh : Sparse Nat} {repairedh : List Nat} {softRowsh : List Nat} {recordedh : Sparse Nat} {framesh : List Nat}
    {retireDueh : List Nat} {dqUsedh : Sparse Nat} {coolSinceh : Sparse Nat} {scrubPosh : Sparse Nat} {sliceh : Sparse Byte}
    {replayBadh : Option Nat} {touchedh : Option (List (Nat × Nat))} (h : Keeps s t) :
        Keeps s ⟨t.pending, ctlv, timev, odv, filesv, pailsv, storev, churnsv, savedv, ⟨t.hbm.mem, poisonh, corrLogh, rowsUsedh,
        repairedh, softRowsh, recordedh, framesh, retireDueh, dqUsedh, coolSinceh, scrubPosh, sliceh, replayBadh, touchedh⟩, dmaqv,
        attnqv, syncv, ctxsv, currentv, switchTov, switchBusyv, sharesv, hostv, rtv, tasksv, optv, svcv, powv, clkv, secv, tapv, herdv,
        tracev, outv, freev⟩ := h.of rfl rfl

end Sys2Proof.Machine
end

