-- ==== Sys2Proof/Laws/KeepsOps.lean ====
section
/-! SUPPORT. Every shared operation leaves the queue alone and keeps the form of module memory. -/

namespace Sys2Proof.Machine

theorem State.setDq_keeps (s : State) (k : Nat) (q : DescQ) :
    Keeps s (State.setDq s k q) := by
  unfold State.setDq
  try dsimp only
  repeat' first
    | (with_reducible first
      | exact Keeps.refl _ | assumption | apply Leaves.next_of | exact Leaves.fault _ _ | exact Leaves.refused _ _
      | apply Keeps.step (Keeps.foldl _ _ _ ?_) | apply Keeps.step (Keeps.foldl1 _ _ _ ?_))
    | (fail_if_no_progress (with_reducible apply Keeps.upd))

theorem State.stamped_keeps (s : State) (inst : Nat) :
    Keeps s (State.stamped s inst) := by
  unfold State.stamped
  try dsimp only
  repeat' first
    | (with_reducible first
      | exact Keeps.refl _ | assumption | apply Leaves.next_of | exact Leaves.fault _ _ | exact Leaves.refused _ _
      | apply Keeps.step (Keeps.foldl _ _ _ ?_) | apply Keeps.step (Keeps.foldl1 _ _ _ ?_))
    | (fail_if_no_progress (with_reducible apply Keeps.upd))

theorem State.dmaFinish_keeps (s : State) (key : Nat) (i : Nat) (d : Desc) (tag : Nat) (status : Nat) (flags : Nat) (absent : Nat) (bytes : Nat) :
    Keeps s (State.dmaFinish s key i d tag status flags absent bytes) := by
  unfold State.dmaFinish
  try dsimp only
  repeat' with_reducible first
    | exact Keeps.refl _ | assumption | apply Leaves.next_of | exact Leaves.fault _ _ | exact Leaves.refused _ _
    | apply Keeps.step (State.setDq_keeps ..) | apply Keeps.step (State.stamped_keeps ..)

theorem State.odp_keeps (s : State) (idx : Nat) (sub : Nat) (k : Nat) (v : Nat) :
    Keeps s (State.odp s idx sub k v) := by
  unfold State.odp
  try dsimp only
  repeat' first
    | (with_reducible first
      | exact Keeps.refl _ | assumption | apply Leaves.next_of | exact Leaves.fault _ _ | exact Leaves.refused _ _
      | apply Keeps.step (Keeps.foldl _ _ _ ?_) | apply Keeps.step (Keeps.foldl1 _ _ _ ?_))
    | (fail_if_no_progress (with_reducible apply Keeps.upd))

theorem State.bump_keeps (s : State) (idx : Nat) (sub : Nat) (k : Nat) (n : Nat) :
    Keeps s (State.bump s idx sub k n) := by
  unfold State.bump
  try dsimp only
  repeat' with_reducible first
    | exact Keeps.refl _ | assumption | apply Leaves.next_of | exact Leaves.fault _ _ | exact Leaves.refused _ _
    | apply Keeps.step (State.odp_keeps ..)

theorem State.herdEvent_keeps (s : State) (kind : Nat) (inst : Nat) (q : Int) (arg : Nat) :
    Keeps s (State.herdEvent s kind inst q arg) := by
  unfold State.herdEvent
  try dsimp only
  repeat' first
    | (with_reducible first
      | exact Keeps.refl _ | assumption | apply Leaves.next_of | exact Leaves.fault _ _ | exact Leaves.refused _ _
      | apply Keeps.step (State.bump_keeps ..) | apply Keeps.step (Keeps.foldl _ _ _ ?_)
      | apply Keeps.step (Keeps.foldl1 _ _ _ ?_))
    | (fail_if_no_progress (with_reducible apply Keeps.upd)) | (fail_if_no_progress (with_reducible apply Keeps.updHbm)) | split

theorem State.afterVote_keeps (s : State) (c : Nat) :
    Keeps s (State.afterVote s c) := by
  unfold State.afterVote
  try dsimp only
  repeat' first
    | (with_reducible first
      | exact Keeps.refl _ | assumption | apply Leaves.next_of | exact Leaves.fault _ _ | exact Leaves.refused _ _
      | apply Keeps.step (State.bump_keeps ..) | apply Keeps.step (Keeps.foldl _ _ _ ?_)
      | apply Keeps.step (Keeps.foldl1 _ _ _ ?_))
    | (fail_if_no_progress (with_reducible apply Keeps.upd)) | (fail_if_no_progress (with_reducible apply Keeps.updHbm)) | split

theorem State.setCtx_keeps (s : State) (c : Nat) (x : Ctx) :
    Keeps s (State.setCtx s c x) := by
  unfold State.setCtx
  try dsimp only
  repeat' first
    | (with_reducible first
      | exact Keeps.refl _ | assumption | apply Leaves.next_of | exact Leaves.fault _ _ | exact Leaves.refused _ _
      | apply Keeps.step (Keeps.foldl _ _ _ ?_) | apply Keeps.step (Keeps.foldl1 _ _ _ ?_))
    | (fail_if_no_progress (with_reducible apply Keeps.upd))

theorem State.drawn_keeps (s : State) :
    Keeps s (State.drawn s) := by
  unfold State.drawn
  try dsimp only
  repeat' first
    | (with_reducible first
      | exact Keeps.refl _ | assumption | apply Leaves.next_of | exact Leaves.fault _ _ | exact Leaves.refused _ _
      | apply Keeps.step (Keeps.foldl _ _ _ ?_) | apply Keeps.step (Keeps.foldl1 _ _ _ ?_))
    | (fail_if_no_progress (with_reducible apply Keeps.upd))

theorem State.storageEvent_keeps (s : State) (c : Option Nat) (status : Nat) (arg : Nat) :
    Keeps s (State.storageEvent s c status arg) := by
  unfold State.storageEvent
  try dsimp only
  repeat' first
    | (with_reducible first
      | exact Keeps.refl _ | assumption | apply Leaves.next_of | exact Leaves.fault _ _ | exact Leaves.refused _ _
      | apply Keeps.step (State.herdEvent_keeps ..) | apply Keeps.step (State.bump_keeps ..)
      | apply Keeps.step (State.afterVote_keeps ..) | apply Keeps.step (State.setCtx_keeps ..)
      | apply Keeps.step (State.drawn_keeps ..) | apply Keeps.step (Keeps.foldl _ _ _ ?_)
      | apply Keeps.step (Keeps.foldl1 _ _ _ ?_))
    | (fail_if_no_progress (with_reducible apply Keeps.upd)) | (fail_if_no_progress (with_reducible apply Keeps.updHbm)) | split

theorem State.metPoison_keeps (s : State) (status : Nat) (a : Nat) :
    Keeps s (State.metPoison s status a) := by
  unfold State.metPoison
  try dsimp only
  repeat' first
    | (with_reducible first
      | exact Keeps.refl _ | assumption | apply Leaves.next_of | exact Leaves.fault _ _ | exact Leaves.refused _ _
      | apply Keeps.step (State.odp_keeps ..) | apply Keeps.step (Keeps.foldl _ _ _ ?_)
      | apply Keeps.step (Keeps.foldl1 _ _ _ ?_))
    | (fail_if_no_progress (with_reducible apply Keeps.upd)) | (fail_if_no_progress (with_reducible apply Keeps.updHbm)) | split

theorem State.flushQueue_keeps (s : State) (c : Nat) (n : Nat) (q : Nat) :
    Keeps s (State.flushQueue s c n q) := by
  unfold State.flushQueue
  try dsimp only
  repeat' first
    | (with_reducible first
      | exact Keeps.refl _ | assumption | apply Leaves.next_of | exact Leaves.fault _ _ | exact Leaves.refused _ _
      | apply Keeps.step (State.setDq_keeps ..) | apply Keeps.step (State.dmaFinish_keeps ..)
      | apply Keeps.step (State.storageEvent_keeps ..) | apply Keeps.step (State.metPoison_keeps ..)
      | apply Keeps.step (Keeps.foldl _ _ _ ?_) | apply Keeps.step (Keeps.foldl1 _ _ _ ?_))
    | (fail_if_no_progress (with_reducible apply Keeps.upd)) | (fail_if_no_progress (with_reducible apply Keeps.updHbm)) | split
    | (intro _; try dsimp only)

theorem State.traced_keeps (s : State) (src : Nat) (fin : Nat) (unit : Nat) (status : Nat) (tag : Nat) (arg : Nat) :
    Keeps s (State.traced s src fin unit status tag arg) := by
  unfold State.traced
  try dsimp only
  repeat' first
    | (with_reducible first
      | exact Keeps.refl _ | assumption | apply Leaves.next_of | exact Leaves.fault _ _ | exact Leaves.refused _ _
      | apply Keeps.step (State.stamped_keeps ..) | apply Keeps.step (State.bump_keeps ..)
      | apply Keeps.step (Keeps.foldl _ _ _ ?_) | apply Keeps.step (Keeps.foldl1 _ _ _ ?_))
    | (fail_if_no_progress (with_reducible apply Keeps.upd)) | (fail_if_no_progress (with_reducible apply Keeps.updHbm)) | split

theorem State.setChurn_keeps (s : State) (ch : Nat) (x : Churn) :
    Keeps s (State.setChurn s ch x) := by
  unfold State.setChurn
  try dsimp only
  repeat' first
    | (with_reducible first
      | exact Keeps.refl _ | assumption | apply Leaves.next_of | exact Leaves.fault _ _ | exact Leaves.refused _ _
      | apply Keeps.step (Keeps.foldl _ _ _ ?_) | apply Keeps.step (Keeps.foldl1 _ _ _ ?_))
    | (fail_if_no_progress (with_reducible apply Keeps.upd))

theorem State.calibrate_keeps (s : State) (ch : Nat) :
    Keeps s (State.calibrate s ch) := by
  unfold State.calibrate
  try dsimp only
  repeat' first
    | (with_reducible first
      | exact Keeps.refl _ | assumption | apply Leaves.next_of | exact Leaves.fault _ _ | exact Leaves.refused _ _
      | apply Keeps.step (State.setChurn_keeps ..) | apply Keeps.step (Keeps.foldl _ _ _ ?_)
      | apply Keeps.step (Keeps.foldl1 _ _ _ ?_))
    | (fail_if_no_progress (with_reducible apply Keeps.upd)) | (fail_if_no_progress (with_reducible apply Keeps.updHbm)) | split

theorem State.boundary_keeps (s : State) (ch : Nat) :
    Keeps s (State.boundary s ch) := by
  unfold State.boundary
  try dsimp only
  repeat' first
    | (with_reducible first
      | exact Keeps.refl _ | assumption | apply Leaves.next_of | exact Leaves.fault _ _ | exact Leaves.refused _ _
      | apply Keeps.step (State.calibrate_keeps ..) | apply Keeps.step (State.setChurn_keeps ..)
      | apply Keeps.step (Keeps.foldl _ _ _ ?_) | apply Keeps.step (Keeps.foldl1 _ _ _ ?_))
    | (fail_if_no_progress (with_reducible apply Keeps.upd)) | (fail_if_no_progress (with_reducible apply Keeps.updHbm)) | split

theorem State.touchObj_keeps (s : State) (i : Nat) :
    Keeps s (State.touchObj s i) := by
  unfold State.touchObj
  try dsimp only
  repeat' first
    | (with_reducible first
      | exact Keeps.refl _ | assumption | apply Leaves.next_of | exact Leaves.fault _ _ | exact Leaves.refused _ _
      | apply Keeps.step (State.storageEvent_keeps ..) | apply Keeps.step (Keeps.foldl _ _ _ ?_)
      | apply Keeps.step (Keeps.foldl1 _ _ _ ?_))
    | (fail_if_no_progress (with_reducible apply Keeps.upd)) | (fail_if_no_progress (with_reducible apply Keeps.updHbm)) | split
    | (intro _; try dsimp only)

theorem State.signal_keeps (s : State) (i : Nat) (v : Dword) :
    Keeps s (State.signal s i v) := by
  unfold State.signal
  try dsimp only
  repeat' first
    | (with_reducible first
      | exact Keeps.refl _ | assumption | apply Leaves.next_of | exact Leaves.fault _ _ | exact Leaves.refused _ _
      | apply Keeps.step (State.touchObj_keeps ..) | apply Keeps.step (State.traced_keeps ..)
      | apply Keeps.step (Keeps.foldl _ _ _ ?_) | apply Keeps.step (Keeps.foldl1 _ _ _ ?_))
    | (fail_if_no_progress (with_reducible apply Keeps.upd)) | (fail_if_no_progress (with_reducible apply Keeps.updHbm)) | split

theorem State.chSignal_keeps (s : State) (sig : Option Nat) :
    Keeps s (State.chSignal s sig) := by
  unfold State.chSignal
  try dsimp only
  repeat' first
    | (with_reducible first
      | exact Keeps.refl _ | assumption | apply Leaves.next_of | exact Leaves.fault _ _ | exact Leaves.refused _ _
      | apply Keeps.step (State.signal_keeps ..) | apply Keeps.step (Keeps.foldl _ _ _ ?_)
      | apply Keeps.step (Keeps.foldl1 _ _ _ ?_))
    | (fail_if_no_progress (with_reducible apply Keeps.upd)) | (fail_if_no_progress (with_reducible apply Keeps.updHbm)) | split

theorem State.chCompleteAt_keeps (s : State) (ch : Nat) (cmd : List Byte) (status : Nat) (clips : Nat) (replays : Nat) (time : Nat) :
    Keeps s (State.chCompleteAt s ch cmd status clips replays time) := by
  unfold State.chCompleteAt
  try dsimp only
  repeat' with_reducible first
    | exact Keeps.refl _ | assumption | apply Leaves.next_of | exact Leaves.fault _ _ | exact Leaves.refused _ _
    | apply Keeps.step (State.traced_keeps ..) | apply Keeps.step (State.stamped_keeps ..)
    | apply Keeps.step (State.boundary_keeps ..) | apply Keeps.step (State.chSignal_keeps ..)
    | apply Keeps.step (State.setChurn_keeps ..)

theorem State.chComplete_keeps (s : State) (ch : Nat) (cmd : List Byte) (status : Nat) (clips : Nat) (replays : Nat) :
    Keeps s (State.chComplete s ch cmd status clips replays) := by
  unfold State.chComplete
  try dsimp only
  repeat' with_reducible first
    | exact Keeps.refl _ | assumption | apply Leaves.next_of | exact Leaves.fault _ _ | exact Leaves.refused _ _
    | apply Keeps.step (State.chCompleteAt_keeps ..)

theorem State.flushChurn_keeps (s : State) (ch : Nat) :
    Keeps s (State.flushChurn s ch) := by
  unfold State.flushChurn
  try dsimp only
  repeat' first
    | (with_reducible first
      | exact Keeps.refl _ | assumption | apply Leaves.next_of | exact Leaves.fault _ _ | exact Leaves.refused _ _
      | apply Keeps.step (State.chComplete_keeps ..) | apply Keeps.step (State.setChurn_keeps ..)
      | apply Keeps.step (Keeps.foldl _ _ _ ?_) | apply Keeps.step (Keeps.foldl1 _ _ _ ?_))
    | (fail_if_no_progress (with_reducible apply Keeps.upd)) | (fail_if_no_progress (with_reducible apply Keeps.updHbm)) | split
    | (intro _; try dsimp only)

theorem State.staleJob_keeps (s : State) (job : Nat) :
    Keeps s (State.staleJob s job) := by
  unfold State.staleJob
  try dsimp only
  repeat' first
    | (with_reducible first
      | exact Keeps.refl _ | assumption | apply Leaves.next_of | exact Leaves.fault _ _ | exact Leaves.refused _ _
      | apply Keeps.step (Keeps.foldl _ _ _ ?_) | apply Keeps.step (Keeps.foldl1 _ _ _ ?_))
    | (fail_if_no_progress (with_reducible apply Keeps.upd))

theorem State.setWin_keeps (s : State) (k : Nat) (w : Win) :
    Keeps s (State.setWin s k w) := by
  unfold State.setWin
  try dsimp only
  repeat' first
    | (with_reducible first
      | exact Keeps.refl _ | assumption | apply Leaves.next_of | exact Leaves.fault _ _ | exact Leaves.refused _ _
      | apply Keeps.step (Keeps.foldl _ _ _ ?_) | apply Keeps.step (Keeps.foldl1 _ _ _ ?_))
    | (fail_if_no_progress (with_reducible apply Keeps.upd))

theorem State.closeMsgs_keeps (s : State) :
    Keeps s (State.closeMsgs s) := by
  unfold State.closeMsgs
  try dsimp only
  repeat' first
    | (with_reducible first
      | exact Keeps.refl _ | assumption | apply Leaves.next_of | exact Leaves.fault _ _ | exact Leaves.refused _ _
      | apply Keeps.step (State.setWin_keeps ..) | apply Keeps.step (Keeps.foldl _ _ _ ?_)
      | apply Keeps.step (Keeps.foldl1 _ _ _ ?_))
    | (fail_if_no_progress (with_reducible apply Keeps.upd)) | (fail_if_no_progress (with_reducible apply Keeps.updHbm)) | split
    | (intro _; try dsimp only)

theorem State.dropTasks_keeps (s : State) (c : Nat) :
    Keeps s (State.dropTasks s c) := by
  unfold State.dropTasks
  try dsimp only
  repeat' first
    | (with_reducible first
      | exact Keeps.refl _ | assumption | apply Leaves.next_of | exact Leaves.fault _ _ | exact Leaves.refused _ _
      | apply Keeps.step (State.closeMsgs_keeps ..) | apply Keeps.step (Keeps.foldl _ _ _ ?_)
      | apply Keeps.step (Keeps.foldl1 _ _ _ ?_))
    | (fail_if_no_progress (with_reducible apply Keeps.upd))

theorem State.haltCores_keeps (s : State) (c : Nat) :
    Keeps s (State.haltCores s c) := by
  unfold State.haltCores
  try dsimp only
  repeat' first
    | (with_reducible first
      | exact Keeps.refl _ | assumption | apply Leaves.next_of | exact Leaves.fault _ _ | exact Leaves.refused _ _
      | apply Keeps.step (Keeps.foldl _ _ _ ?_) | apply Keeps.step (Keeps.foldl1 _ _ _ ?_))
    | (fail_if_no_progress (with_reducible apply Keeps.upd))

theorem State.abandon_keeps (s : State) (c : Nat) :
    Keeps s (State.abandon s c) := by
  unfold State.abandon
  try dsimp only
  repeat' first
    | (with_reducible first
      | exact Keeps.refl _ | assumption | apply Leaves.next_of | exact Leaves.fault _ _ | exact Leaves.refused _ _
      | apply Keeps.step (State.flushQueue_keeps ..) | apply Keeps.step (State.flushChurn_keeps ..)
      | apply Keeps.step (State.staleJob_keeps ..) | apply Keeps.step (State.dropTasks_keeps ..)
      | apply Keeps.step (State.haltCores_keeps ..) | apply Keeps.step (State.setCtx_keeps ..)
      | apply Keeps.step (Keeps.foldl _ _ _ ?_) | apply Keeps.step (Keeps.foldl1 _ _ _ ?_))
    | (fail_if_no_progress (with_reducible apply Keeps.upd)) | (fail_if_no_progress (with_reducible apply Keeps.updHbm)) | split
    | (intro _; try dsimp only)

theorem State.putByte_keeps (s : State) (a : Nat) (b : Byte) : Keeps s (s.putByte a b) := ⟨rfl, s.putByte_memOk a b⟩

theorem State.putMem_keeps (s : State) (a : Nat) (a2 : List Byte) :
    Keeps s (State.putMem s a a2) := by
  induction a2 generalizing s a with
  | nil => unfold State.putMem; exact Keeps.refl _
  | cons b l ih =>
    unfold State.putMem
    try dsimp only
    repeat' with_reducible first
      | exact Keeps.refl _ | assumption | apply Leaves.next_of | exact Leaves.fault _ _ | exact Leaves.refused _ _
      | apply Keeps.step (State.putByte_keeps ..) | apply Keeps.step (Keeps.foldl _ _ _ ?_)
      | apply Keeps.step (Keeps.foldl1 _ _ _ ?_) | apply Keeps.step (ih ..)

theorem State.putStore_keeps (s : State) (core : Nat) (off : Nat) (b : Byte) :
    Keeps s (State.putStore s core off b) := by
  unfold State.putStore
  try dsimp only
  repeat' first
    | (with_reducible first
      | exact Keeps.refl _ | assumption | apply Leaves.next_of | exact Leaves.fault _ _ | exact Leaves.refused _ _
      | apply Keeps.step (Keeps.foldl _ _ _ ?_) | apply Keeps.step (Keeps.foldl1 _ _ _ ?_))
    | (fail_if_no_progress (with_reducible apply Keeps.upd))

theorem State.putRegion_keeps (s : State) (region : Nat) (a : Nat) (a3 : List Byte) :
    Keeps s (State.putRegion s region a a3) := by
  induction a3 generalizing s region a with
  | nil => unfold State.putRegion; exact Keeps.refl _
  | cons b l ih =>
    unfold State.putRegion
    try dsimp only
    repeat' first
      | (with_reducible first
        | exact Keeps.refl _ | assumption | apply Leaves.next_of | exact Leaves.fault _ _ | exact Leaves.refused _ _
        | apply Keeps.step (State.putStore_keeps ..) | apply Keeps.step (Keeps.foldl _ _ _ ?_)
        | apply Keeps.step (Keeps.foldl1 _ _ _ ?_) | apply Keeps.step (ih ..))
      | (fail_if_no_progress (with_reducible apply Keeps.upd)) | (fail_if_no_progress (with_reducible apply Keeps.updHbm))
      | split

theorem State.accumulate_keeps (s : State) (ch : Nat) (e : ChExec) (v : Nat) (r : Nat) (codes : List Int) (shadow : Bool) :
    Keeps s (State.accumulate s ch e v r codes shadow).1 := by
  unfold State.accumulate
  try dsimp only
  repeat' first
    | (with_reducible first
      | exact Keeps.refl _ | assumption | apply Leaves.next_of | exact Leaves.fault _ _ | exact Leaves.refused _ _
      | apply Keeps.step (State.putRegion_keeps ..) | apply Keeps.step (Keeps.foldl _ _ _ ?_)
      | apply Keeps.step (Keeps.foldl1 _ _ _ ?_))
    | (fail_if_no_progress (with_reducible apply Keeps.upd)) | (fail_if_no_progress (with_reducible apply Keeps.updHbm)) | split
    | (intro _; try dsimp only)

theorem State.advance_keeps (s : State) (n : Nat) :
    Keeps s (State.advance s n) := by
  unfold State.advance
  try dsimp only
  repeat' first
    | (with_reducible first
      | exact Keeps.refl _ | assumption | apply Leaves.next_of | exact Leaves.fault _ _ | exact Leaves.refused _ _
      | apply Keeps.step (Keeps.foldl _ _ _ ?_) | apply Keeps.step (Keeps.foldl1 _ _ _ ?_))
    | (fail_if_no_progress (with_reducible apply Keeps.upd))

theorem State.setFile_keeps (s : State) (core : Nat) (ctx : Nat) (f : CoreFile) :
    Keeps s (State.setFile s core ctx f) := by
  unfold State.setFile
  try dsimp only
  repeat' first
    | (with_reducible first
      | exact Keeps.refl _ | assumption | apply Leaves.next_of | exact Leaves.fault _ _ | exact Leaves.refused _ _
      | apply Keeps.step (Keeps.foldl _ _ _ ?_) | apply Keeps.step (Keeps.foldl1 _ _ _ ?_))
    | (fail_if_no_progress (with_reducible apply Keeps.upd))

theorem State.afterIssue_keeps (s : State) (core : Nat) (c : Nat) :
    Keeps s (State.afterIssue s core c) := by
  unfold State.afterIssue
  try dsimp only
  repeat' first
    | (with_reducible first
      | exact Keeps.refl _ | assumption | apply Leaves.next_of | exact Leaves.fault _ _ | exact Leaves.refused _ _
      | apply Keeps.step (State.traced_keeps ..) | apply Keeps.step (State.setFile_keeps ..)
      | apply Keeps.step (Keeps.foldl _ _ _ ?_) | apply Keeps.step (Keeps.foldl1 _ _ _ ?_))
    | (fail_if_no_progress (with_reducible apply Keeps.upd)) | (fail_if_no_progress (with_reducible apply Keeps.updHbm)) | split

theorem State.afterRead_keeps (s : State) (idx : Nat) (sub : Nat) :
    Keeps s (State.afterRead s idx sub) := by
  unfold State.afterRead
  try dsimp only
  repeat' first
    | (with_reducible first
      | exact Keeps.refl _ | assumption | apply Leaves.next_of | exact Leaves.fault _ _ | exact Leaves.refused _ _
      | apply Keeps.step (State.drawn_keeps ..) | apply Keeps.step (Keeps.foldl _ _ _ ?_)
      | apply Keeps.step (Keeps.foldl1 _ _ _ ?_))
    | (fail_if_no_progress (with_reducible apply Keeps.upd)) | (fail_if_no_progress (with_reducible apply Keeps.updHbm)) | split

theorem State.setColl_keeps (s : State) (t : CollTask) :
    Keeps s (State.setColl s t) := by
  unfold State.setColl
  try dsimp only
  repeat' first
    | (with_reducible first
      | exact Keeps.refl _ | assumption | apply Leaves.next_of | exact Leaves.fault _ _ | exact Leaves.refused _ _
      | apply Keeps.step (Keeps.foldl _ _ _ ?_) | apply Keeps.step (Keeps.foldl1 _ _ _ ?_))
    | (fail_if_no_progress (with_reducible apply Keeps.upd))

theorem State.setPoison_keeps (s : State) (a : Nat) (p : Bool) :
    Keeps s (State.setPoison s a p) := by
  unfold State.setPoison
  try dsimp only
  repeat' first
    | (with_reducible first
      | exact Keeps.refl _ | assumption | apply Leaves.next_of | exact Leaves.fault _ _ | exact Leaves.refused _ _
      | apply Keeps.step (Keeps.foldl _ _ _ ?_) | apply Keeps.step (Keeps.foldl1 _ _ _ ?_))
    | (fail_if_no_progress (with_reducible apply Keeps.upd)) | (fail_if_no_progress (with_reducible apply Keeps.updHbm))

theorem State.setLine_keeps (s : State) (l : Nat) (v : Byte) :
    Keeps s (State.setLine s l v) := by
  unfold State.setLine
  try dsimp only
  repeat' first
    | (with_reducible first
      | exact Keeps.refl _ | assumption | apply Leaves.next_of | exact Leaves.fault _ _ | exact Leaves.refused _ _
      | apply Keeps.step (Keeps.foldl _ _ _ ?_) | apply Keeps.step (Keeps.foldl1 _ _ _ ?_))
    | (fail_if_no_progress (with_reducible apply Keeps.upd)) | (fail_if_no_progress (with_reducible apply Keeps.updHbm))

theorem State.roomFor_keeps (s : State) (l : Nat) :
    Keeps s (State.roomFor s l) := by
  unfold State.roomFor
  try dsimp only
  repeat' first
    | (with_reducible first
      | exact Keeps.refl _ | assumption | apply Leaves.next_of | exact Leaves.fault _ _ | exact Leaves.refused _ _
      | apply Keeps.step (State.drawn_keeps ..) | apply Keeps.step (State.setLine_keeps ..)
      | apply Keeps.step (Keeps.foldl _ _ _ ?_) | apply Keeps.step (Keeps.foldl1 _ _ _ ?_))
    | (fail_if_no_progress (with_reducible apply Keeps.upd)) | (fail_if_no_progress (with_reducible apply Keeps.updHbm)) | split

theorem State.fillSlice_keeps (s : State) (a : Nat) (dirty : Bool) :
    Keeps s (State.fillSlice s a dirty) := by
  unfold State.fillSlice
  try dsimp only
  repeat' with_reducible first
    | exact Keeps.refl _ | assumption | apply Leaves.next_of | exact Leaves.fault _ _ | exact Leaves.refused _ _
    | apply Keeps.step (State.roomFor_keeps ..) | apply Keeps.step (State.setLine_keeps ..)

theorem State.sliceWrites_keeps (s : State) (a : Nat) (alloc : Bool) (whole : Bool) :
    Keeps s (State.sliceWrites s a alloc whole) := by
  unfold State.sliceWrites
  try dsimp only
  repeat' first
    | (with_reducible first
      | exact Keeps.refl _ | assumption | apply Leaves.next_of | exact Leaves.fault _ _ | exact Leaves.refused _ _
      | apply Keeps.step (State.fillSlice_keeps ..) | apply Keeps.step (State.bump_keeps ..)
      | apply Keeps.step (Keeps.foldl _ _ _ ?_) | apply Keeps.step (Keeps.foldl1 _ _ _ ?_))
    | (fail_if_no_progress (with_reducible apply Keeps.upd)) | (fail_if_no_progress (with_reducible apply Keeps.updHbm)) | split

theorem State.touches_keeps (s : State) (a : Nat) (n : Nat) :
    Keeps s (State.touches s a n) := by
  unfold State.touches
  try dsimp only
  repeat' first
    | (with_reducible first
      | exact Keeps.refl _ | assumption | apply Leaves.next_of | exact Leaves.fault _ _ | exact Leaves.refused _ _
      | apply Keeps.step (Keeps.foldl _ _ _ ?_) | apply Keeps.step (Keeps.foldl1 _ _ _ ?_))
    | (fail_if_no_progress (with_reducible apply Keeps.upd)) | (fail_if_no_progress (with_reducible apply Keeps.updHbm))

theorem State.writeSectors_keeps (s : State) (alloc : Bool) (a : Nat) (bs : List Byte) :
    Keeps s (State.writeSectors s alloc a bs).1 := by
  unfold State.writeSectors
  try dsimp only
  repeat' first
    | (with_reducible first
      | exact Keeps.refl _ | assumption | apply Leaves.next_of | exact Leaves.fault _ _ | exact Leaves.refused _ _
      | apply Keeps.step (State.setPoison_keeps ..) | apply Keeps.step (State.sliceWrites_keeps ..)
      | apply Keeps.step (State.putMem_keeps ..) | apply Keeps.step (State.touches_keeps ..)
      | apply Keeps.step (Keeps.foldl _ _ _ ?_) | apply Keeps.step (Keeps.foldl1 _ _ _ ?_))
    | (fail_if_no_progress (with_reducible apply Keeps.upd)) | (fail_if_no_progress (with_reducible apply Keeps.updHbm)) | split
    | (intro _; try dsimp only)

theorem State.writeRun_keeps (s : State) (a : Nat) (bs : List Byte) :
    Keeps s (State.writeRun s a bs).1 := by
  unfold State.writeRun
  try dsimp only
  repeat' with_reducible first
    | exact Keeps.refl _ | assumption | apply Leaves.next_of | exact Leaves.fault _ _ | exact Leaves.refused _ _
    | apply Keeps.step (State.writeSectors_keeps ..)

theorem State.routineWrite_keeps (s : State) (c : Nat) (a : Nat) (bytes : List Byte) :
    Keeps s (State.routineWrite s c a bytes) := by
  unfold State.routineWrite
  try dsimp only
  repeat' first
    | (with_reducible first
      | exact Keeps.refl _ | assumption | apply Leaves.next_of | exact Leaves.fault _ _ | exact Leaves.refused _ _
      | apply Keeps.step (State.writeRun_keeps ..) | apply Keeps.step (State.storageEvent_keeps ..)
      | apply Keeps.step (Keeps.foldl _ _ _ ?_) | apply Keeps.step (Keeps.foldl1 _ _ _ ?_))
    | (fail_if_no_progress (with_reducible apply Keeps.upd)) | (fail_if_no_progress (with_reducible apply Keeps.updHbm)) | split

theorem State.moveBlock_keeps (acc : State × CollTask × List (Nat × List Byte)) (i : Nat) (g : Nat) (stage : Nat) (seg : List Byte) (hopped : Bool) :
    Keeps acc.1 (State.moveBlock acc i g stage seg hopped).1 := by
  unfold State.moveBlock
  try dsimp only
  repeat' first
    | (with_reducible first
      | exact Keeps.refl _ | assumption | apply Leaves.next_of | exact Leaves.fault _ _ | exact Leaves.refused _ _
      | apply Keeps.step (State.routineWrite_keeps ..) | apply Keeps.step (Keeps.foldl _ _ _ ?_)
      | apply Keeps.step (Keeps.foldl1 _ _ _ ?_))
    | (fail_if_no_progress (with_reducible apply Keeps.upd)) | (fail_if_no_progress (with_reducible apply Keeps.updHbm)) | split

theorem State.dropSector_keeps (s : State) (a : Nat) :
    Keeps s (State.dropSector s a) := by
  unfold State.dropSector
  try dsimp only
  repeat' with_reducible first
    | exact Keeps.refl _ | assumption | apply Leaves.next_of | exact Leaves.fault _ _ | exact Leaves.refused _ _
    | apply Keeps.step (State.setLine_keeps ..)

theorem State.sliceMeets_keeps (s : State) (a : Nat) (found : EccFinding) :
    Keeps s (State.sliceMeets s a found) := by
  unfold State.sliceMeets
  try dsimp only
  repeat' first
    | (with_reducible first
      | exact Keeps.refl _ | assumption | apply Leaves.next_of | exact Leaves.fault _ _ | exact Leaves.refused _ _
      | apply Keeps.step (State.setPoison_keeps ..) | apply Keeps.step (State.bump_keeps ..)
      | apply Keeps.step (State.setLine_keeps ..) | apply Keeps.step (State.dropSector_keeps ..)
      | apply Keeps.step (Keeps.foldl _ _ _ ?_) | apply Keeps.step (Keeps.foldl1 _ _ _ ?_))
    | (fail_if_no_progress (with_reducible apply Keeps.upd)) | (fail_if_no_progress (with_reducible apply Keeps.updHbm)) | split

theorem State.cellarLoss_keeps (s : State) (a : Nat) :
    Keeps s (State.cellarLoss s a) := by
  unfold State.cellarLoss
  try dsimp only
  repeat' first
    | (with_reducible first
      | exact Keeps.refl _ | assumption | apply Leaves.next_of | exact Leaves.fault _ _ | exact Leaves.refused _ _
      | apply Keeps.step (State.storageEvent_keeps ..) | apply Keeps.step (Keeps.foldl _ _ _ ?_)
      | apply Keeps.step (Keeps.foldl1 _ _ _ ?_))
    | (fail_if_no_progress (with_reducible apply Keeps.upd)) | (fail_if_no_progress (with_reducible apply Keeps.updHbm)) | split
    | (intro _; try dsimp only)

theorem State.stackFails_keeps (s : State) (k : Nat) :
    Keeps s (State.stackFails s k) := by
  unfold State.stackFails
  try dsimp only
  repeat' first
    | (with_reducible first
      | exact Keeps.refl _ | assumption | apply Leaves.next_of | exact Leaves.fault _ _ | exact Leaves.refused _ _
      | apply Keeps.step (Keeps.foldl _ _ _ ?_) | apply Keeps.step (Keeps.foldl1 _ _ _ ?_))
    | (fail_if_no_progress (with_reducible apply Keeps.upd)) | (fail_if_no_progress (with_reducible apply Keeps.updHbm)) | split

theorem State.request_keeps (s : State) (n : Nat) :
    Keeps s (State.request s n) := by
  unfold State.request
  try dsimp only
  repeat' first
    | (with_reducible first
      | exact Keeps.refl _ | assumption | apply Leaves.next_of | exact Leaves.fault _ _ | exact Leaves.refused _ _
      | apply Keeps.step (State.odp_keeps ..) | apply Keeps.step (Keeps.foldl _ _ _ ?_)
      | apply Keeps.step (Keeps.foldl1 _ _ _ ?_))
    | (fail_if_no_progress (with_reducible apply Keeps.upd)) | (fail_if_no_progress (with_reducible apply Keeps.updHbm)) | split

theorem State.retireFrame_keeps (s : State) (a : Nat) :
    Keeps s (State.retireFrame s a) := by
  unfold State.retireFrame
  try dsimp only
  repeat' first
    | (with_reducible first
      | exact Keeps.refl _ | assumption | apply Leaves.next_of | exact Leaves.fault _ _ | exact Leaves.refused _ _
      | apply Keeps.step (State.cellarLoss_keeps ..) | apply Keeps.step (State.herdEvent_keeps ..)
      | apply Keeps.step (State.stackFails_keeps ..) | apply Keeps.step (State.request_keeps ..)
      | apply Keeps.step (Keeps.foldl _ _ _ ?_) | apply Keeps.step (Keeps.foldl1 _ _ _ ?_))
    | (fail_if_no_progress (with_reducible apply Keeps.upd)) | (fail_if_no_progress (with_reducible apply Keeps.updHbm)) | split

theorem State.repairRow_keeps (s : State) (a : Nat) :
    Keeps s (State.repairRow s a) := by
  unfold State.repairRow
  try dsimp only
  repeat' first
    | (with_reducible first
      | exact Keeps.refl _ | assumption | apply Leaves.next_of | exact Leaves.fault _ _ | exact Leaves.refused _ _
      | apply Keeps.step (State.retireFrame_keeps ..) | apply Keeps.step (State.request_keeps ..)
      | apply Keeps.step (State.herdEvent_keeps ..) | apply Keeps.step (State.bump_keeps ..)
      | apply Keeps.step (Keeps.foldl _ _ _ ?_) | apply Keeps.step (Keeps.foldl1 _ _ _ ?_))
    | (fail_if_no_progress (with_reducible apply Keeps.upd)) | (fail_if_no_progress (with_reducible apply Keeps.updHbm)) | split

theorem State.eccRead_keeps (s : State) (a : Nat) (found : EccFinding) : Keeps s (s.eccRead a found) := by
  unfold State.eccRead
  dsimp only
  split
  · exact Keeps.refl s
  · split
    · exact Keeps.refl s
    · split
      · exact Keeps.step (State.repairRow_keeps ..) (⟨(State.bump_keeps s 0x2401 0x01 (a / 2 ^ 36 % 8) 1).pending, fun m => m⟩)
      · exact ⟨(State.bump_keeps s 0x2401 0x01 (a / 2 ^ 36 % 8) 1).pending, fun m => m⟩
    · exact Keeps.step (State.repairRow_keeps ..) (Keeps.step (State.setPoison_keeps ..) (State.bump_keeps ..))
    · exact Keeps.refl s
    · exact Keeps.refl s

theorem State.readSector_keeps (s : State) (alloc : Bool) (ecc : List (BitVec 34 × EccFinding)) (a : Nat) :
    Keeps s (State.readSector s alloc ecc a) := by
  unfold State.readSector
  try dsimp only
  repeat' first
    | (with_reducible first
      | exact Keeps.refl _ | assumption | apply Leaves.next_of | exact Leaves.fault _ _ | exact Leaves.refused _ _
      | apply Keeps.step (State.sliceMeets_keeps ..) | apply Keeps.step (State.bump_keeps ..)
      | apply Keeps.step (State.eccRead_keeps ..) | apply Keeps.step (State.fillSlice_keeps ..)
      | apply Keeps.step (Keeps.foldl _ _ _ ?_) | apply Keeps.step (Keeps.foldl1 _ _ _ ?_))
    | (fail_if_no_progress (with_reducible apply Keeps.upd)) | (fail_if_no_progress (with_reducible apply Keeps.updHbm)) | split

theorem State.readRange_keeps (s : State) (alloc : Bool) (ecc : List (BitVec 34 × EccFinding)) (a : Nat) (n : Nat) :
    Keeps s (State.readRange s alloc ecc a n) := by
  unfold State.readRange
  try dsimp only
  repeat' first
    | (with_reducible first
      | exact Keeps.refl _ | assumption | apply Leaves.next_of | exact Leaves.fault _ _ | exact Leaves.refused _ _
      | apply Keeps.step (State.readSector_keeps ..) | apply Keeps.step (State.touches_keeps ..)
      | apply Keeps.step (Keeps.foldl _ _ _ ?_) | apply Keeps.step (Keeps.foldl1 _ _ _ ?_))
    | (fail_if_no_progress (with_reducible apply Keeps.upd)) | (fail_if_no_progress (with_reducible apply Keeps.updHbm)) | split
    | (intro _; try dsimp only)

theorem State.fetched_keeps (s : State) (a : Nat) (n : Nat) :
    Keeps s (State.fetched s a n) := by
  unfold State.fetched
  try dsimp only
  repeat' with_reducible first
    | exact Keeps.refl _ | assumption | apply Leaves.next_of | exact Leaves.fault _ _ | exact Leaves.refused _ _
    | apply Keeps.step (State.readRange_keeps ..)

theorem State.routineRead_keeps (s : State) (c : Nat) (a : Nat) (n : Nat) :
    Keeps s (State.routineRead s c a n).1 := by
  unfold State.routineRead
  try dsimp only
  repeat' first
    | (with_reducible first
      | exact Keeps.refl _ | assumption | apply Leaves.next_of | exact Leaves.fault _ _ | exact Leaves.refused _ _
      | apply Keeps.step (State.storageEvent_keeps ..) | apply Keeps.step (State.metPoison_keeps ..)
      | apply Keeps.step (State.fetched_keeps ..) | apply Keeps.step (Keeps.foldl _ _ _ ?_)
      | apply Keeps.step (Keeps.foldl1 _ _ _ ?_))
    | (fail_if_no_progress (with_reducible apply Keeps.upd)) | (fail_if_no_progress (with_reducible apply Keeps.updHbm)) | split

theorem State.routineFlags_keeps (s : State) (c : Nat) (fl : BitVec 4) :
    Keeps s (State.routineFlags s c fl) := by
  unfold State.routineFlags
  try dsimp only
  repeat' first
    | (with_reducible first
      | exact Keeps.refl _ | assumption | apply Leaves.next_of | exact Leaves.fault _ _ | exact Leaves.refused _ _
      | apply Keeps.step (State.drawn_keeps ..) | apply Keeps.step (State.setFile_keeps ..)
      | apply Keeps.step (Keeps.foldl _ _ _ ?_) | apply Keeps.step (Keeps.foldl1 _ _ _ ?_))
    | (fail_if_no_progress (with_reducible apply Keeps.upd)) | (fail_if_no_progress (with_reducible apply Keeps.updHbm)) | split

theorem State.stageZero_keeps (acc : State × CollTask × List (Nat × List Byte)) (i : Nat) (g : Nat) :
    Keeps acc.1 (State.stageZero acc i g).1 := by
  unfold State.stageZero
  try dsimp only
  repeat' first
    | (with_reducible first
      | exact Keeps.refl _ | assumption | apply Leaves.next_of | exact Leaves.fault _ _ | exact Leaves.refused _ _
      | apply Keeps.step (State.routineRead_keeps ..) | apply Keeps.step (State.routineFlags_keeps ..)
      | apply Keeps.step (State.moveBlock_keeps ..) | apply Keeps.step (Keeps.foldl _ _ _ ?_)
      | apply Keeps.step (Keeps.foldl1 _ _ _ ?_))
    | (fail_if_no_progress (with_reducible apply Keeps.upd)) | (fail_if_no_progress (with_reducible apply Keeps.updHbm)) | split

theorem State.takeId_keeps (s : State) (k : Nat) :
    Keeps s (State.takeId s k).2 := by
  unfold State.takeId
  try dsimp only
  repeat' with_reducible first
    | exact Keeps.refl _ | assumption | apply Leaves.next_of | exact Leaves.fault _ _ | exact Leaves.refused _ _
    | apply Keeps.step (State.setWin_keeps ..)

theorem State.sendMessage_keeps (s : State) (dest : Nat) (tc : Nat) (rxq : Nat) (job : Nat) (bytes : List Byte) (dma : Option (Nat ×
    Nat)) (owner : Option (Nat × Nat)) :
    Keeps s (State.sendMessage s dest tc rxq job bytes dma owner) := by
  unfold State.sendMessage
  try dsimp only
  repeat' first
    | (with_reducible first
      | exact Keeps.refl _ | assumption | apply Leaves.next_of | exact Leaves.fault _ _ | exact Leaves.refused _ _
      | apply Keeps.step (State.takeId_keeps ..) | apply Keeps.step (Keeps.foldl _ _ _ ?_)
      | apply Keeps.step (Keeps.foldl1 _ _ _ ?_))
    | (fail_if_no_progress (with_reducible apply Keeps.upd)) | (fail_if_no_progress (with_reducible apply Keeps.updHbm)) | split

theorem State.sendRoutine_keeps (s : State) (dest : Nat) (tc : Nat) (rxq : Nat) (job : Nat) (bytes : List Byte) (owner : Nat × Nat) :
    Keeps s (State.sendRoutine s dest tc rxq job bytes owner) := by
  unfold State.sendRoutine
  try dsimp only
  repeat' first
    | (with_reducible first
      | exact Keeps.refl _ | assumption | apply Leaves.next_of | exact Leaves.fault _ _ | exact Leaves.refused _ _
      | apply Keeps.step (State.sendMessage_keeps ..) | apply Keeps.step (Keeps.foldl _ _ _ ?_)
      | apply Keeps.step (Keeps.foldl1 _ _ _ ?_))
    | (fail_if_no_progress (with_reducible apply Keeps.upd)) | (fail_if_no_progress (with_reducible apply Keeps.updHbm)) | split
    | (intro _; try dsimp only)

theorem State.sendMoves_keeps (s : State) (t : CollTask) (ms : List (Nat × List Byte)) :
    Keeps s (State.sendMoves s t ms) := by
  unfold State.sendMoves
  try dsimp only
  repeat' first
    | (with_reducible first
      | exact Keeps.refl _ | assumption | apply Leaves.next_of | exact Leaves.fault _ _ | exact Leaves.refused _ _
      | apply Keeps.step (State.sendRoutine_keeps ..) | apply Keeps.step (Keeps.foldl _ _ _ ?_)
      | apply Keeps.step (Keeps.foldl1 _ _ _ ?_))
    | (fail_if_no_progress (with_reducible apply Keeps.upd)) | (fail_if_no_progress (with_reducible apply Keeps.updHbm)) | split
    | (intro _; try dsimp only)

theorem State.attempt_keeps (s : State) (t : CollTask) (bs : List Nat) :
    Keeps s (State.attempt s t bs).1 := by
  unfold State.attempt
  try dsimp only
  repeat' first
    | (with_reducible first
      | exact Keeps.refl _ | assumption | apply Leaves.next_of | exact Leaves.fault _ _ | exact Leaves.refused _ _
      | apply Keeps.step (State.stageZero_keeps ..) | apply Keeps.step (State.sendMoves_keeps ..)
      | apply Keeps.step (Keeps.foldl _ _ _ ?_) | apply Keeps.step (Keeps.foldl1 _ _ _ ?_))
    | (fail_if_no_progress (with_reducible apply Keeps.upd)) | (fail_if_no_progress (with_reducible apply Keeps.updHbm)) | split
    | (intro _; try dsimp only)

theorem State.readBlocks_keeps (s : State) (c : Nat) (as : List Nat) :
    Keeps s (State.readBlocks s c as).1 := by
  unfold State.readBlocks
  try dsimp only
  repeat' first
    | (with_reducible first
      | exact Keeps.refl _ | assumption | apply Leaves.next_of | exact Leaves.fault _ _ | exact Leaves.refused _ _
      | apply Keeps.step (State.routineRead_keeps ..) | apply Keeps.step (Keeps.foldl _ _ _ ?_)
      | apply Keeps.step (Keeps.foldl1 _ _ _ ?_))
    | (fail_if_no_progress (with_reducible apply Keeps.upd)) | (fail_if_no_progress (with_reducible apply Keeps.updHbm)) | split
    | (intro _; try dsimp only)

theorem State.numericEvent_keeps (s : State) (c : Nat) (status : Nat) (maskBit : Nat) :
    Keeps s (State.numericEvent s c status maskBit) := by
  unfold State.numericEvent
  try dsimp only
  repeat' first
    | (with_reducible first
      | exact Keeps.refl _ | assumption | apply Leaves.next_of | exact Leaves.fault _ _ | exact Leaves.refused _ _
      | apply Keeps.step (State.herdEvent_keeps ..) | apply Keeps.step (State.bump_keeps ..)
      | apply Keeps.step (State.afterVote_keeps ..) | apply Keeps.step (State.setCtx_keeps ..)
      | apply Keeps.step (Keeps.foldl _ _ _ ?_) | apply Keeps.step (Keeps.foldl1 _ _ _ ?_))
    | (fail_if_no_progress (with_reducible apply Keeps.upd)) | (fail_if_no_progress (with_reducible apply Keeps.updHbm)) | split

theorem State.closeBucket_keeps (s : State) (t : CollTask) (b : BucketSt) (failed : Bool) :
    Keeps s (State.closeBucket s t b failed).1 := by
  unfold State.closeBucket
  try dsimp only
  repeat' first
    | (with_reducible first
      | exact Keeps.refl _ | assumption | apply Leaves.next_of | exact Leaves.fault _ _ | exact Leaves.refused _ _
      | apply Keeps.step (State.readBlocks_keeps ..) | apply Keeps.step (State.numericEvent_keeps ..)
      | apply Keeps.step (State.drawn_keeps ..) | apply Keeps.step (Keeps.foldl _ _ _ ?_)
      | apply Keeps.step (Keeps.foldl1 _ _ _ ?_))
    | (fail_if_no_progress (with_reducible apply Keeps.upd)) | (fail_if_no_progress (with_reducible apply Keeps.updHbm)) | split

theorem State.collRecord_keeps (s : State) (c : Nat) (ma : Nat) (status : Nat) (reruns : Nat) (fails : Nat) :
    Keeps s (State.collRecord s c ma status reruns fails) := by
  unfold State.collRecord
  try dsimp only
  repeat' with_reducible first
    | exact Keeps.refl _ | assumption | apply Leaves.next_of | exact Leaves.fault _ _ | exact Leaves.refused _ _
    | apply Keeps.step (State.stamped_keeps ..) | apply Keeps.step (State.routineWrite_keeps ..)

theorem State.collEntries_keeps (s : State) (t : CollTask) :
    Keeps s (State.collEntries s t) := by
  unfold State.collEntries
  try dsimp only
  repeat' first
    | (with_reducible first
      | exact Keeps.refl _ | assumption | apply Leaves.next_of | exact Leaves.fault _ _ | exact Leaves.refused _ _
      | apply Keeps.step (State.routineWrite_keeps ..) | apply Keeps.step (Keeps.foldl _ _ _ ?_)
      | apply Keeps.step (Keeps.foldl1 _ _ _ ?_))
    | (fail_if_no_progress (with_reducible apply Keeps.upd)) | (fail_if_no_progress (with_reducible apply Keeps.updHbm)) | split
    | (intro _; try dsimp only)

theorem State.dropColl_keeps (s : State) (c : Nat) (pos : Nat) :
    Keeps s (State.dropColl s c pos) := by
  unfold State.dropColl
  try dsimp only
  repeat' first
    | (with_reducible first
      | exact Keeps.refl _ | assumption | apply Leaves.next_of | exact Leaves.fault _ _ | exact Leaves.refused _ _
      | apply Keeps.step (Keeps.foldl _ _ _ ?_) | apply Keeps.step (Keeps.foldl1 _ _ _ ?_))
    | (fail_if_no_progress (with_reducible apply Keeps.upd))

theorem State.entryDone_keeps (s : State) (c : Nat) (pos : Nat) :
    Keeps s (State.entryDone s c pos) := by
  unfold State.entryDone
  try dsimp only
  repeat' first
    | (with_reducible first
      | exact Keeps.refl _ | assumption | apply Leaves.next_of | exact Leaves.fault _ _ | exact Leaves.refused _ _
      | apply Keeps.step (State.setCtx_keeps ..) | apply Keeps.step (State.traced_keeps ..)
      | apply Keeps.step (State.signal_keeps ..) | apply Keeps.step (Keeps.foldl _ _ _ ?_)
      | apply Keeps.step (Keeps.foldl1 _ _ _ ?_))
    | (fail_if_no_progress (with_reducible apply Keeps.upd)) | (fail_if_no_progress (with_reducible apply Keeps.updHbm)) | split

theorem State.routineDone_keeps (s : State) (c : Nat) (pos : Nat) :
    Keeps s (State.routineDone s c pos) := by
  unfold State.routineDone
  try dsimp only
  repeat' first
    | (with_reducible first
      | exact Keeps.refl _ | assumption | apply Leaves.next_of | exact Leaves.fault _ _ | exact Leaves.refused _ _
      | apply Keeps.step (State.entryDone_keeps ..) | apply Keeps.step (Keeps.foldl _ _ _ ?_)
      | apply Keeps.step (Keeps.foldl1 _ _ _ ?_))
    | (fail_if_no_progress (with_reducible apply Keeps.upd)) | (fail_if_no_progress (with_reducible apply Keeps.updHbm)) | split

theorem State.collFinish_keeps (s : State) (t : CollTask) (status : Nat) :
    Keeps s (State.collFinish s t status) := by
  unfold State.collFinish
  try dsimp only
  repeat' first
    | (with_reducible first
      | exact Keeps.refl _ | assumption | apply Leaves.next_of | exact Leaves.fault _ _ | exact Leaves.refused _ _
      | apply Keeps.step (State.collRecord_keeps ..) | apply Keeps.step (State.collEntries_keeps ..)
      | apply Keeps.step (State.dropColl_keeps ..) | apply Keeps.step (State.bump_keeps ..)
      | apply Keeps.step (State.setCtx_keeps ..) | apply Keeps.step (State.signal_keeps ..)
      | apply Keeps.step (State.routineDone_keeps ..) | apply Keeps.step (Keeps.foldl _ _ _ ?_)
      | apply Keeps.step (Keeps.foldl1 _ _ _ ?_))
    | (fail_if_no_progress (with_reducible apply Keeps.upd)) | (fail_if_no_progress (with_reducible apply Keeps.updHbm)) | split

theorem State.collDone_keeps (s : State) (t : CollTask) :
    Keeps s (State.collDone s t) := by
  unfold State.collDone
  try dsimp only
  repeat' first
    | (with_reducible first
      | exact Keeps.refl _ | assumption | apply Leaves.next_of | exact Leaves.fault _ _ | exact Leaves.refused _ _
      | apply Keeps.step (State.routineWrite_keeps ..) | apply Keeps.step (State.setCtx_keeps ..)
      | apply Keeps.step (State.collFinish_keeps ..) | apply Keeps.step (Keeps.foldl _ _ _ ?_)
      | apply Keeps.step (Keeps.foldl1 _ _ _ ?_))
    | (fail_if_no_progress (with_reducible apply Keeps.upd)) | (fail_if_no_progress (with_reducible apply Keeps.updHbm)) | split

theorem State.exchange_keeps (s : State) (t : CollTask) (bytes : List Byte) :
    Keeps s (State.exchange s t bytes) := by
  unfold State.exchange
  try dsimp only
  repeat' first
    | (with_reducible first
      | exact Keeps.refl _ | assumption | apply Leaves.next_of | exact Leaves.fault _ _ | exact Leaves.refused _ _
      | apply Keeps.step (State.sendRoutine_keeps ..) | apply Keeps.step (Keeps.foldl _ _ _ ?_)
      | apply Keeps.step (Keeps.foldl1 _ _ _ ?_))
    | (fail_if_no_progress (with_reducible apply Keeps.upd)) | (fail_if_no_progress (with_reducible apply Keeps.updHbm)) | split
    | (intro _; try dsimp only)

theorem State.collNorms_keeps (s : State) (t : CollTask) :
    Keeps s (State.collNorms s t) := by
  unfold State.collNorms
  try dsimp only
  repeat' first
    | (with_reducible first
      | exact Keeps.refl _ | assumption | apply Leaves.next_of | exact Leaves.fault _ _ | exact Leaves.refused _ _
      | apply Keeps.step (State.collDone_keeps ..) | apply Keeps.step (State.exchange_keeps ..)
      | apply Keeps.step (State.setColl_keeps ..) | apply Keeps.step (Keeps.foldl _ _ _ ?_)
      | apply Keeps.step (Keeps.foldl1 _ _ _ ?_))
    | (fail_if_no_progress (with_reducible apply Keeps.upd)) | (fail_if_no_progress (with_reducible apply Keeps.updHbm)) | split

theorem State.collAgreed_keeps (s : State) (t : CollTask) (a2 : Nat) :
    Keeps s (State.collAgreed s t a2) := by
  induction a2 generalizing s t with
  | zero => unfold State.collAgreed; exact State.setColl_keeps ..
  | succ n ih =>
    unfold State.collAgreed
    try dsimp only
    repeat' first
      | (with_reducible first
        | exact Keeps.refl _ | assumption | apply Leaves.next_of | exact Leaves.fault _ _ | exact Leaves.refused _ _
        | apply Keeps.step (State.setColl_keeps ..) | apply Keeps.step (State.closeBucket_keeps ..)
        | apply Keeps.step (State.collNorms_keeps ..) | apply Keeps.step (State.attempt_keeps ..)
        | apply Keeps.step (State.exchange_keeps ..) | apply Keeps.step (Keeps.foldl _ _ _ ?_)
        | apply Keeps.step (Keeps.foldl1 _ _ _ ?_) | apply Keeps.step (ih ..))
      | (fail_if_no_progress (with_reducible apply Keeps.upd)) | (fail_if_no_progress (with_reducible apply Keeps.updHbm))
      | split | (intro _; try dsimp only)

theorem State.agreeIn_keeps (s : State) (t : CollTask) (sats : List Nat) (bads : List Nat) :
    Keeps s (State.agreeIn s t sats bads) := by
  unfold State.agreeIn
  try dsimp only
  repeat' first
    | (with_reducible first
      | exact Keeps.refl _ | assumption | apply Leaves.next_of | exact Leaves.fault _ _ | exact Leaves.refused _ _
      | apply Keeps.step (State.collAgreed_keeps ..) | apply Keeps.step (State.exchange_keeps ..)
      | apply Keeps.step (State.setColl_keeps ..) | apply Keeps.step (Keeps.foldl _ _ _ ?_)
      | apply Keeps.step (Keeps.foldl1 _ _ _ ?_))
    | (fail_if_no_progress (with_reducible apply Keeps.upd)) | (fail_if_no_progress (with_reducible apply Keeps.updHbm)) | split

theorem State.putHost_keeps (s : State) (a : Nat) (bs : List Byte) :
    Keeps s (State.putHost s a bs) := by
  unfold State.putHost
  try dsimp only
  repeat' first
    | (with_reducible first
      | exact Keeps.refl _ | assumption | apply Leaves.next_of | exact Leaves.fault _ _ | exact Leaves.refused _ _
      | apply Keeps.step (Keeps.foldl _ _ _ ?_) | apply Keeps.step (Keeps.foldl1 _ _ _ ?_))
    | (fail_if_no_progress (with_reducible apply Keeps.upd))

theorem State.drainRsp_keeps (s : State) (a1 : Nat) :
    Keeps s (State.drainRsp s a1) := by
  induction a1 generalizing s with
  | zero => unfold State.drainRsp; exact Keeps.refl _
  | succ n ih =>
    unfold State.drainRsp
    try dsimp only
    repeat' first
      | (with_reducible first
        | exact Keeps.refl _ | assumption | apply Leaves.next_of | exact Leaves.fault _ _ | exact Leaves.refused _ _
        | apply Keeps.step (State.putHost_keeps ..) | apply Keeps.step (Keeps.foldl _ _ _ ?_)
        | apply Keeps.step (Keeps.foldl1 _ _ _ ?_) | apply Keeps.step (ih ..))
      | (fail_if_no_progress (with_reducible apply Keeps.upd)) | (fail_if_no_progress (with_reducible apply Keeps.updHbm))
      | split

theorem State.drainAll_keeps (s : State) :
    Keeps s (State.drainAll s) := by
  unfold State.drainAll
  try dsimp only
  repeat' with_reducible first
    | exact Keeps.refl _ | assumption | apply Leaves.next_of | exact Leaves.fault _ _ | exact Leaves.refused _ _
    | apply Keeps.step (State.drainRsp_keeps ..)

theorem State.respond_keeps (s : State) (event : Bool) (tag : Nat) (status : Nat) (ctx : Nat) (index : Nat) :
    Keeps s (State.respond s event tag status ctx index) := by
  unfold State.respond
  try dsimp only
  repeat' first
    | (with_reducible first
      | exact Keeps.refl _ | assumption | apply Leaves.next_of | exact Leaves.fault _ _ | exact Leaves.refused _ _
      | apply Keeps.step (State.stamped_keeps ..) | apply Keeps.step (State.drainAll_keeps ..)
      | apply Keeps.step (Keeps.foldl _ _ _ ?_) | apply Keeps.step (Keeps.foldl1 _ _ _ ?_))
    | (fail_if_no_progress (with_reducible apply Keeps.upd)) | (fail_if_no_progress (with_reducible apply Keeps.updHbm)) | split

theorem State.answerEntry_keeps (s : State) (e : JobEntry) (status : Nat) :
    Keeps s (State.answerEntry s e status) := by
  unfold State.answerEntry
  try dsimp only
  repeat' first
    | (with_reducible first
      | exact Keeps.refl _ | assumption | apply Leaves.next_of | exact Leaves.fault _ _ | exact Leaves.refused _ _
      | apply Keeps.step (State.respond_keeps ..) | apply Keeps.step (Keeps.foldl _ _ _ ?_)
      | apply Keeps.step (Keeps.foldl1 _ _ _ ?_))
    | (fail_if_no_progress (with_reducible apply Keeps.upd))

theorem State.emit_keeps (s : State) (o : Out) :
    Keeps s (State.emit s o) := by
  unfold State.emit
  try dsimp only
  repeat' first
    | (with_reducible first
      | exact Keeps.refl _ | assumption | apply Leaves.next_of | exact Leaves.fault _ _ | exact Leaves.refused _ _
      | apply Keeps.step (Keeps.foldl _ _ _ ?_) | apply Keeps.step (Keeps.foldl1 _ _ _ ?_))
    | (fail_if_no_progress (with_reducible apply Keeps.upd))

theorem State.sendLly_keeps (s : State) (m : Lly) (bytes : List Byte) :
    Keeps s (State.sendLly s m bytes) := by
  unfold State.sendLly
  try dsimp only
  repeat' with_reducible first
    | exact Keeps.refl _ | assumption | apply Leaves.next_of | exact Leaves.fault _ _ | exact Leaves.refused _ _
    | apply Keeps.step (State.emit_keeps ..)

theorem State.answerLly_keeps (s : State) (m : Lly) (session : Nat) (status : Nat) (size : Nat) (data : List Byte) :
    Keeps s (State.answerLly s m session status size data) := by
  unfold State.answerLly
  try dsimp only
  repeat' with_reducible first
    | exact Keeps.refl _ | assumption | apply Leaves.next_of | exact Leaves.fault _ _ | exact Leaves.refused _ _
    | apply Keeps.step (State.sendLly_keeps ..)

theorem State.answered_keeps (s : State) (st : Nat) :
    Keeps s (State.answered s st) := by
  unfold State.answered
  try dsimp only
  repeat' first
    | (with_reducible first
      | exact Keeps.refl _ | assumption | apply Leaves.next_of | exact Leaves.fault _ _ | exact Leaves.refused _ _
      | apply Keeps.step (Keeps.foldl _ _ _ ?_) | apply Keeps.step (Keeps.foldl1 _ _ _ ?_))
    | (fail_if_no_progress (with_reducible apply Keeps.upd))

theorem State.runRead_keeps (s : State) (x : Session) (m : Lly) (row : OdRow) :
    Keeps s (State.runRead s x m row).1 := by
  unfold State.runRead
  try dsimp only
  repeat' first
    | (with_reducible first
      | exact Keeps.refl _ | assumption | apply Leaves.next_of | exact Leaves.fault _ _ | exact Leaves.refused _ _
      | apply Keeps.step (State.afterRead_keeps ..) | apply Keeps.step (Keeps.foldl _ _ _ ?_)
      | apply Keeps.step (Keeps.foldl1 _ _ _ ?_))
    | (fail_if_no_progress (with_reducible apply Keeps.upd)) | (fail_if_no_progress (with_reducible apply Keeps.updHbm)) | split

theorem State.unverified_keeps (s : State) (st : Nat) :
    Keeps s (State.unverified s st) := by
  unfold State.unverified
  try dsimp only
  repeat' first
    | (with_reducible first
      | exact Keeps.refl _ | assumption | apply Leaves.next_of | exact Leaves.fault _ _ | exact Leaves.refused _ _
      | apply Keeps.step (State.odp_keeps ..) | apply Keeps.step (Keeps.foldl _ _ _ ?_)
      | apply Keeps.step (Keeps.foldl1 _ _ _ ?_))
    | (fail_if_no_progress (with_reducible apply Keeps.upd))

theorem State.takeChunk_keeps (s : State) (bs : List Byte) :
    Keeps s (State.takeChunk s bs) := by
  unfold State.takeChunk
  try dsimp only
  repeat' first
    | (with_reducible first
      | exact Keeps.refl _ | assumption | apply Leaves.next_of | exact Leaves.fault _ _ | exact Leaves.refused _ _
      | apply Keeps.step (State.unverified_keeps ..) | apply Keeps.step (State.odp_keeps ..)
      | apply Keeps.step (Keeps.foldl _ _ _ ?_) | apply Keeps.step (Keeps.foldl1 _ _ _ ?_))
    | (fail_if_no_progress (with_reducible apply Keeps.upd))

theorem State.extend_keeps (s : State) (k : Nat) (r : List Byte) :
    Keeps s (State.extend s k r) := by
  unfold State.extend
  try dsimp only
  repeat' first
    | (with_reducible first
      | exact Keeps.refl _ | assumption | apply Leaves.next_of | exact Leaves.fault _ _ | exact Leaves.refused _ _
      | apply Keeps.step (Keeps.foldl _ _ _ ?_) | apply Keeps.step (Keeps.foldl1 _ _ _ ?_))
    | (fail_if_no_progress (with_reducible apply Keeps.upd))

theorem State.takeVerify_keeps (s : State) :
    Keeps s (State.takeVerify s) := by
  unfold State.takeVerify
  try dsimp only
  repeat' first
    | (with_reducible first
      | exact Keeps.refl _ | assumption | apply Leaves.next_of | exact Leaves.fault _ _ | exact Leaves.refused _ _
      | apply Keeps.step (State.odp_keeps ..) | apply Keeps.step (State.extend_keeps ..)
      | apply Keeps.step (State.unverified_keeps ..) | apply Keeps.step (Keeps.foldl _ _ _ ?_)
      | apply Keeps.step (Keeps.foldl1 _ _ _ ?_))
    | (fail_if_no_progress (with_reducible apply Keeps.upd)) | (fail_if_no_progress (with_reducible apply Keeps.updHbm)) | split

theorem State.extendOp_keeps (s : State) (idx : Nat) (sub : Nat) (bs : List Byte) :
    Keeps s (State.extendOp s idx sub bs) := by
  unfold State.extendOp
  try dsimp only
  repeat' with_reducible first
    | exact Keeps.refl _ | assumption | apply Leaves.next_of | exact Leaves.fault _ _ | exact Leaves.refused _ _
    | apply Keeps.step (State.extend_keeps ..)

theorem State.secRefuse_keeps (s : State) (idx : Nat) (sub : Nat) (bs : List Byte) (st : Nat) :
    Keeps s (State.secRefuse s idx sub bs st).1 := by
  unfold State.secRefuse
  try dsimp only
  repeat' with_reducible first
    | exact Keeps.refl _ | assumption | apply Leaves.next_of | exact Leaves.fault _ _ | exact Leaves.refused _ _
    | apply Keeps.step (State.odp_keeps ..) | apply Keeps.step (State.extendOp_keeps ..)

theorem State.burn_keeps (s : State) (bs : List Nat) :
    Keeps s (State.burn s bs) := by
  unfold State.burn
  try dsimp only
  repeat' first
    | (with_reducible first
      | exact Keeps.refl _ | assumption | apply Leaves.next_of | exact Leaves.fault _ _ | exact Leaves.refused _ _
      | apply Keeps.step (Keeps.foldl _ _ _ ?_) | apply Keeps.step (Keeps.foldl1 _ _ _ ?_))
    | (fail_if_no_progress (with_reducible apply Keeps.upd))

theorem State.fuseRun_keeps (s : State) (ws : List (List Nat)) (asc : Bool) (env : FuseEnv) :
    Keeps s (State.fuseRun s ws asc env).1 := by
  unfold State.fuseRun
  try dsimp only
  repeat' first
    | (with_reducible first
      | exact Keeps.refl _ | assumption | apply Leaves.next_of | exact Leaves.fault _ _ | exact Leaves.refused _ _
      | apply Keeps.step (State.burn_keeps ..) | apply Keeps.step (State.drawn_keeps ..)
      | apply Keeps.step (Keeps.foldl _ _ _ ?_) | apply Keeps.step (Keeps.foldl1 _ _ _ ?_))
    | (fail_if_no_progress (with_reducible apply Keeps.upd)) | (fail_if_no_progress (with_reducible apply Keeps.updHbm)) | split

theorem State.secRun_keeps (s : State) (idx : Nat) (sub : Nat) (bs : List Byte) (ws : List (List Nat)) (asc : Bool) (env : FuseEnv) :
    Keeps s (State.secRun s idx sub bs ws asc env) := by
  unfold State.secRun
  try dsimp only
  repeat' first
    | (with_reducible first
      | exact Keeps.refl _ | assumption | apply Leaves.next_of | exact Leaves.fault _ _ | exact Leaves.refused _ _
      | apply Keeps.step (State.fuseRun_keeps ..) | apply Keeps.step (State.extendOp_keeps ..)
      | apply Keeps.step (State.odp_keeps ..) | apply Keeps.step (Keeps.foldl _ _ _ ?_)
      | apply Keeps.step (Keeps.foldl1 _ _ _ ?_))
    | (fail_if_no_progress (with_reducible apply Keeps.upd)) | (fail_if_no_progress (with_reducible apply Keeps.updHbm)) | split

theorem State.takeOwnerKey_keeps (s : State) (bs : List Byte) (env : FuseEnv) :
    Keeps s (State.takeOwnerKey s bs env).1 := by
  unfold State.takeOwnerKey
  try dsimp only
  repeat' first
    | (with_reducible first
      | exact Keeps.refl _ | assumption | apply Leaves.next_of | exact Leaves.fault _ _ | exact Leaves.refused _ _
      | apply Keeps.step (State.secRefuse_keeps ..) | apply Keeps.step (State.secRun_keeps ..)
      | apply Keeps.step (Keeps.foldl _ _ _ ?_) | apply Keeps.step (Keeps.foldl1 _ _ _ ?_))
    | (fail_if_no_progress (with_reducible apply Keeps.upd)) | (fail_if_no_progress (with_reducible apply Keeps.updHbm)) | split

theorem State.takeOwnerRevoke_keeps (s : State) (k : Nat) (env : FuseEnv) :
    Keeps s (State.takeOwnerRevoke s k env).1 := by
  unfold State.takeOwnerRevoke
  try dsimp only
  repeat' first
    | (with_reducible first
      | exact Keeps.refl _ | assumption | apply Leaves.next_of | exact Leaves.fault _ _ | exact Leaves.refused _ _
      | apply Keeps.step (State.secRun_keeps ..) | apply Keeps.step (State.secRefuse_keeps ..)
      | apply Keeps.step (Keeps.foldl _ _ _ ?_) | apply Keeps.step (Keeps.foldl1 _ _ _ ?_))
    | (fail_if_no_progress (with_reducible apply Keeps.upd)) | (fail_if_no_progress (with_reducible apply Keeps.updHbm)) | split

theorem State.takeVendorRevoke_keeps (s : State) (k : Nat) (env : FuseEnv) :
    Keeps s (State.takeVendorRevoke s k env).1 := by
  unfold State.takeVendorRevoke
  try dsimp only
  repeat' first
    | (with_reducible first
      | exact Keeps.refl _ | assumption | apply Leaves.next_of | exact Leaves.fault _ _ | exact Leaves.refused _ _
      | apply Keeps.step (State.secRun_keeps ..) | apply Keeps.step (State.secRefuse_keeps ..)
      | apply Keeps.step (Keeps.foldl _ _ _ ?_) | apply Keeps.step (Keeps.foldl1 _ _ _ ?_))
    | (fail_if_no_progress (with_reducible apply Keeps.upd)) | (fail_if_no_progress (with_reducible apply Keeps.updHbm)) | split

theorem State.takeSvn_keeps (s : State) (n : Nat) (env : FuseEnv) :
    Keeps s (State.takeSvn s n env).1 := by
  unfold State.takeSvn
  try dsimp only
  repeat' first
    | (with_reducible first
      | exact Keeps.refl _ | assumption | apply Leaves.next_of | exact Leaves.fault _ _ | exact Leaves.refused _ _
      | apply Keeps.step (State.secRun_keeps ..) | apply Keeps.step (State.secRefuse_keeps ..)
      | apply Keeps.step (Keeps.foldl _ _ _ ?_) | apply Keeps.step (Keeps.foldl1 _ _ _ ?_))
    | (fail_if_no_progress (with_reducible apply Keeps.upd)) | (fail_if_no_progress (with_reducible apply Keeps.updHbm)) | split

theorem State.takeDebugEnable_keeps (s : State) (v : Nat) :
    Keeps s (State.takeDebugEnable s v).1 := by
  unfold State.takeDebugEnable
  try dsimp only
  repeat' first
    | (with_reducible first
      | exact Keeps.refl _ | assumption | apply Leaves.next_of | exact Leaves.fault _ _ | exact Leaves.refused _ _
      | apply Keeps.step (State.odp_keeps ..) | apply Keeps.step (State.extendOp_keeps ..)
      | apply Keeps.step (Keeps.foldl _ _ _ ?_) | apply Keeps.step (Keeps.foldl1 _ _ _ ?_))
    | (fail_if_no_progress (with_reducible apply Keeps.upd)) | (fail_if_no_progress (with_reducible apply Keeps.updHbm)) | split

theorem State.endDebug_keeps (s : State) :
    Keeps s (State.endDebug s) := by
  unfold State.endDebug
  try dsimp only
  repeat' first
    | (with_reducible first
      | exact Keeps.refl _ | assumption | apply Leaves.next_of | exact Leaves.fault _ _ | exact Leaves.refused _ _
      | apply Keeps.step (Keeps.foldl _ _ _ ?_) | apply Keeps.step (Keeps.foldl1 _ _ _ ?_))
    | (fail_if_no_progress (with_reducible apply Keeps.upd))

theorem State.takeDebugDisable_keeps (s : State) (v : Nat) :
    Keeps s (State.takeDebugDisable s v) := by
  unfold State.takeDebugDisable
  try dsimp only
  repeat' first
    | (with_reducible first
      | exact Keeps.refl _ | assumption | apply Leaves.next_of | exact Leaves.fault _ _ | exact Leaves.refused _ _
      | apply Keeps.step (State.endDebug_keeps ..) | apply Keeps.step (State.odp_keeps ..)
      | apply Keeps.step (State.extendOp_keeps ..) | apply Keeps.step (Keeps.foldl _ _ _ ?_)
      | apply Keeps.step (Keeps.foldl1 _ _ _ ?_))
    | (fail_if_no_progress (with_reducible apply Keeps.upd)) | (fail_if_no_progress (with_reducible apply Keeps.updHbm)) | split

theorem State.odBytes_keeps (s : State) (idx : Nat) (sub : Nat) (o : Nat) (b : List Byte) :
    Keeps s (State.odBytes s idx sub o b) := by
  unfold State.odBytes
  try dsimp only
  repeat' first
    | (with_reducible first
      | exact Keeps.refl _ | assumption | apply Leaves.next_of | exact Leaves.fault _ _ | exact Leaves.refused _ _
      | apply Keeps.step (State.odp_keeps ..) | apply Keeps.step (Keeps.foldl _ _ _ ?_)
      | apply Keeps.step (Keeps.foldl1 _ _ _ ?_))
    | (fail_if_no_progress (with_reducible apply Keeps.upd)) | (fail_if_no_progress (with_reducible apply Keeps.updHbm)) | split
    | (intro _; try dsimp only)

theorem State.takeNonce_keeps (s : State) (nonce : List Byte) :
    Keeps s (State.takeNonce s nonce) := by
  unfold State.takeNonce
  try dsimp only
  repeat' with_reducible first
    | exact Keeps.refl _ | assumption | apply Leaves.next_of | exact Leaves.fault _ _ | exact Leaves.refused _ _
    | apply Keeps.step (State.bump_keeps ..) | apply Keeps.step (State.odBytes_keeps ..)

theorem State.takeCap_keeps (s : State) (v : Nat) :
    Keeps s (State.takeCap s v) := by
  unfold State.takeCap
  try dsimp only
  repeat' first
    | (with_reducible first
      | exact Keeps.refl _ | assumption | apply Leaves.next_of | exact Leaves.fault _ _ | exact Leaves.refused _ _
      | apply Keeps.step (State.odp_keeps ..) | apply Keeps.step (Keeps.foldl _ _ _ ?_)
      | apply Keeps.step (Keeps.foldl1 _ _ _ ?_))
    | (fail_if_no_progress (with_reducible apply Keeps.upd))

theorem State.rowThree_keeps (s : State) :
    Keeps s (State.rowThree s).1 := by
  unfold State.rowThree
  try dsimp only
  repeat' first
    | (with_reducible first
      | exact Keeps.refl _ | assumption | apply Leaves.next_of | exact Leaves.fault _ _ | exact Leaves.refused _ _
      | apply Keeps.step (State.odp_keeps ..) | apply Keeps.step (State.extend_keeps ..)
      | apply Keeps.step (Keeps.foldl _ _ _ ?_) | apply Keeps.step (Keeps.foldl1 _ _ _ ?_))
    | (fail_if_no_progress (with_reducible apply Keeps.upd)) | (fail_if_no_progress (with_reducible apply Keeps.updHbm)) | split
    | (intro _; try dsimp only)

theorem State.wakeClocks_keeps (s : State) (p : Nat → Bool) :
    Keeps s (State.wakeClocks s p) := by
  unfold State.wakeClocks
  try dsimp only
  repeat' first
    | (with_reducible first
      | exact Keeps.refl _ | assumption | apply Leaves.next_of | exact Leaves.fault _ _ | exact Leaves.refused _ _
      | apply Keeps.step (State.bump_keeps ..) | apply Keeps.step (Keeps.foldl _ _ _ ?_)
      | apply Keeps.step (Keeps.foldl1 _ _ _ ?_))
    | (fail_if_no_progress (with_reducible apply Keeps.upd)) | (fail_if_no_progress (with_reducible apply Keeps.updHbm)) | split

theorem State.resetGroup_keeps (s : State) (g : Nat) (times : Nat) (hits : Nat → Nat → Bool) :
    Keeps s (State.resetGroup s g times hits) := by
  unfold State.resetGroup
  try dsimp only
  repeat' first
    | (with_reducible first
      | exact Keeps.refl _ | assumption | apply Leaves.next_of | exact Leaves.fault _ _ | exact Leaves.refused _ _
      | apply Keeps.step (State.bump_keeps ..) | apply Keeps.step (State.wakeClocks_keeps ..)
      | apply Keeps.step (Keeps.foldl _ _ _ ?_) | apply Keeps.step (Keeps.foldl1 _ _ _ ?_))
    | (fail_if_no_progress (with_reducible apply Keeps.upd)) | (fail_if_no_progress (with_reducible apply Keeps.updHbm)) | split

theorem State.resetDies_keeps (s : State) :
    Keeps s (State.resetDies s) := by
  unfold State.resetDies
  try dsimp only
  repeat' with_reducible first
    | exact Keeps.refl _ | assumption | apply Leaves.next_of | exact Leaves.fault _ _ | exact Leaves.refused _ _
    | apply Keeps.step (State.resetGroup_keeps ..)

theorem State.setLane_keeps (s : State) (l : Bool × Nat) (v : Nat) :
    Keeps s (State.setLane s l v) := by
  unfold State.setLane
  try dsimp only
  repeat' with_reducible first
    | exact Keeps.refl _ | assumption | apply Leaves.next_of | exact Leaves.fault _ _ | exact Leaves.refused _ _
    | apply Keeps.step (State.odp_keeps ..)

theorem State.opticsBegin_keeps (s : State) :
    Keeps s (State.opticsBegin s) := by
  unfold State.opticsBegin
  try dsimp only
  repeat' first
    | (with_reducible first
      | exact Keeps.refl _ | assumption | apply Leaves.next_of | exact Leaves.fault _ _ | exact Leaves.refused _ _
      | apply Keeps.step (State.setLane_keeps ..) | apply Keeps.step (Keeps.foldl _ _ _ ?_)
      | apply Keeps.step (Keeps.foldl1 _ _ _ ?_))
    | (fail_if_no_progress (with_reducible apply Keeps.upd)) | (fail_if_no_progress (with_reducible apply Keeps.updHbm)) | split
    | (intro _; try dsimp only)

theorem State.beginStartUp_keeps (s : State) :
    Keeps s (State.beginStartUp s) := by
  unfold State.beginStartUp
  try dsimp only
  repeat' first
    | (with_reducible first
      | exact Keeps.refl _ | assumption | apply Leaves.next_of | exact Leaves.fault _ _ | exact Leaves.refused _ _
      | apply Keeps.step (State.odp_keeps ..) | apply Keeps.step (State.rowThree_keeps ..)
      | apply Keeps.step (State.resetDies_keeps ..) | apply Keeps.step (State.setChurn_keeps ..)
      | apply Keeps.step (State.opticsBegin_keeps ..) | apply Keeps.step (Keeps.foldl _ _ _ ?_)
      | apply Keeps.step (Keeps.foldl1 _ _ _ ?_))
    | (fail_if_no_progress (with_reducible apply Keeps.upd)) | (fail_if_no_progress (with_reducible apply Keeps.updHbm)) | split
    | (intro _; try dsimp only)

theorem State.takeState_keeps (s : State) (t : ModState) (cleared : Bool) :
    Keeps s (State.takeState s t cleared) := by
  unfold State.takeState
  try dsimp only
  repeat' first
    | (with_reducible first
      | exact Keeps.refl _ | assumption | apply Leaves.next_of | exact Leaves.fault _ _ | exact Leaves.refused _ _
      | apply Keeps.step (State.odp_keeps ..) | apply Keeps.step (State.beginStartUp_keeps ..)
      | apply Keeps.step (Keeps.foldl _ _ _ ?_) | apply Keeps.step (Keeps.foldl1 _ _ _ ?_))
    | (fail_if_no_progress (with_reducible apply Keeps.upd)) | (fail_if_no_progress (with_reducible apply Keeps.updHbm)) | split

theorem State.takeStateWrite_keeps (s : State) (v : Nat) :
    Keeps s (State.takeStateWrite s v).1 := by
  unfold State.takeStateWrite
  try dsimp only
  repeat' first
    | (with_reducible first
      | exact Keeps.refl _ | assumption | apply Leaves.next_of | exact Leaves.fault _ _ | exact Leaves.refused _ _
      | apply Keeps.step (State.drawn_keeps ..) | apply Keeps.step (State.takeState_keeps ..)
      | apply Keeps.step (Keeps.foldl _ _ _ ?_) | apply Keeps.step (Keeps.foldl1 _ _ _ ?_))
    | (fail_if_no_progress (with_reducible apply Keeps.upd)) | (fail_if_no_progress (with_reducible apply Keeps.updHbm)) | split

theorem State.setRamp_keeps (s : State) (n : Nat) (f : Nat) :
    Keeps s (State.setRamp s n f) := by
  unfold State.setRamp
  try dsimp only
  repeat' first
    | (with_reducible first
      | exact Keeps.refl _ | assumption | apply Leaves.next_of | exact Leaves.fault _ _ | exact Leaves.refused _ _
      | apply Keeps.step (Keeps.foldl _ _ _ ?_) | apply Keeps.step (Keeps.foldl1 _ _ _ ?_))
    | (fail_if_no_progress (with_reducible apply Keeps.upd))

theorem State.settleRamps_keeps (s : State) :
    Keeps s (State.settleRamps s) := by
  unfold State.settleRamps
  try dsimp only
  repeat' first
    | (with_reducible first
      | exact Keeps.refl _ | assumption | apply Leaves.next_of | exact Leaves.fault _ _ | exact Leaves.refused _ _
      | apply Keeps.step (State.setRamp_keeps ..) | apply Keeps.step (Keeps.foldl _ _ _ ?_)
      | apply Keeps.step (Keeps.foldl1 _ _ _ ?_))
    | (fail_if_no_progress (with_reducible apply Keeps.upd)) | (fail_if_no_progress (with_reducible apply Keeps.updHbm)) | split
    | (intro _; try dsimp only)

theorem State.takeLevel_keeps (s : State) :
    Keeps s (State.takeLevel s) := by
  unfold State.takeLevel
  try dsimp only
  repeat' first
    | (with_reducible first
      | exact Keeps.refl _ | assumption | apply Leaves.next_of | exact Leaves.fault _ _ | exact Leaves.refused _ _
      | apply Keeps.step (State.odp_keeps ..) | apply Keeps.step (State.settleRamps_keeps ..)
      | apply Keeps.step (Keeps.foldl _ _ _ ?_) | apply Keeps.step (Keeps.foldl1 _ _ _ ?_))
    | (fail_if_no_progress (with_reducible apply Keeps.upd)) | (fail_if_no_progress (with_reducible apply Keeps.updHbm)) | split

theorem State.takeLevelWrite_keeps (s : State) (v : Nat) :
    Keeps s (State.takeLevelWrite s v) := by
  unfold State.takeLevelWrite
  try dsimp only
  repeat' first
    | (with_reducible first
      | exact Keeps.refl _ | assumption | apply Leaves.next_of | exact Leaves.fault _ _ | exact Leaves.refused _ _
      | apply Keeps.step (State.odp_keeps ..) | apply Keeps.step (State.takeLevel_keeps ..)
      | apply Keeps.step (Keeps.foldl _ _ _ ?_) | apply Keeps.step (Keeps.foldl1 _ _ _ ?_))
    | (fail_if_no_progress (with_reducible apply Keeps.upd)) | (fail_if_no_progress (with_reducible apply Keeps.updHbm)) | split

theorem State.takeRates_keeps (s : State) (k : Nat) (es : List Nat) :
    Keeps s (State.takeRates s k es) := by
  unfold State.takeRates
  try dsimp only
  repeat' first
    | (with_reducible first
      | exact Keeps.refl _ | assumption | apply Leaves.next_of | exact Leaves.fault _ _ | exact Leaves.refused _ _
      | apply Keeps.step (State.setChurn_keeps ..) | apply Keeps.step (State.odp_keeps ..)
      | apply Keeps.step (Keeps.foldl _ _ _ ?_) | apply Keeps.step (Keeps.foldl1 _ _ _ ?_))
    | (fail_if_no_progress (with_reducible apply Keeps.upd)) | (fail_if_no_progress (with_reducible apply Keeps.updHbm)) | split
    | (intro _; try dsimp only)

theorem State.takeDarkTimeout_keeps (s : State) (v : Nat) :
    Keeps s (State.takeDarkTimeout s v) := by
  unfold State.takeDarkTimeout
  try dsimp only
  repeat' first
    | (with_reducible first
      | exact Keeps.refl _ | assumption | apply Leaves.next_of | exact Leaves.fault _ _ | exact Leaves.refused _ _
      | apply Keeps.step (State.odp_keeps ..) | apply Keeps.step (State.setChurn_keeps ..)
      | apply Keeps.step (Keeps.foldl _ _ _ ?_) | apply Keeps.step (Keeps.foldl1 _ _ _ ?_))
    | (fail_if_no_progress (with_reducible apply Keeps.upd)) | (fail_if_no_progress (with_reducible apply Keeps.updHbm)) | split
    | (intro _; try dsimp only)

theorem State.settlePort_keeps (s : State) (p : Nat) (dark : Bool) :
    Keeps s (State.settlePort s p dark) := by
  unfold State.settlePort
  try dsimp only
  repeat' first
    | (with_reducible first
      | exact Keeps.refl _ | assumption | apply Leaves.next_of | exact Leaves.fault _ _ | exact Leaves.refused _ _
      | apply Keeps.step (State.odp_keeps ..) | apply Keeps.step (State.bump_keeps ..) | apply Keeps.step (Keeps.foldl _ _ _ ?_)
      | apply Keeps.step (Keeps.foldl1 _ _ _ ?_))
    | (fail_if_no_progress (with_reducible apply Keeps.upd)) | (fail_if_no_progress (with_reducible apply Keeps.updHbm)) | split

theorem State.setLink_keeps (s : State) (p : Nat) (l : Link) :
    Keeps s (State.setLink s p l) := by
  unfold State.setLink
  try dsimp only
  repeat' first
    | (with_reducible first
      | exact Keeps.refl _ | assumption | apply Leaves.next_of | exact Leaves.fault _ _ | exact Leaves.refused _ _
      | apply Keeps.step (Keeps.foldl _ _ _ ?_) | apply Keeps.step (Keeps.foldl1 _ _ _ ?_))
    | (fail_if_no_progress (with_reducible apply Keeps.upd))

theorem State.pushReturn_keeps (s : State) (p : Packet) :
    Keeps s (State.pushReturn s p) := by
  unfold State.pushReturn
  try dsimp only
  repeat' first
    | (with_reducible first
      | exact Keeps.refl _ | assumption | apply Leaves.next_of | exact Leaves.fault _ _ | exact Leaves.refused _ _
      | apply Keeps.step (Keeps.foldl _ _ _ ?_) | apply Keeps.step (Keeps.foldl1 _ _ _ ?_))
    | (fail_if_no_progress (with_reducible apply Keeps.upd)) | (fail_if_no_progress (with_reducible apply Keeps.updHbm)) | split

theorem State.stopSending_keeps (s : State) (h : Held) :
    Keeps s (State.stopSending s h) := by
  unfold State.stopSending
  try dsimp only
  repeat' first
    | (with_reducible first
      | exact Keeps.refl _ | assumption | apply Leaves.next_of | exact Leaves.fault _ _ | exact Leaves.refused _ _
      | apply Keeps.step (State.setLink_keeps ..) | apply Keeps.step (Keeps.foldl _ _ _ ?_)
      | apply Keeps.step (Keeps.foldl1 _ _ _ ?_))
    | (fail_if_no_progress (with_reducible apply Keeps.upd)) | (fail_if_no_progress (with_reducible apply Keeps.updHbm)) | split

theorem State.freeFlits_keeps (s : State) (port : Nat) (vc : Nat) (n : Nat) :
    Keeps s (State.freeFlits s port vc n) := by
  unfold State.freeFlits
  try dsimp only
  repeat' first
    | (with_reducible first
      | exact Keeps.refl _ | assumption | apply Leaves.next_of | exact Leaves.fault _ _ | exact Leaves.refused _ _
      | apply Keeps.step (State.setLink_keeps ..) | apply Keeps.step (Keeps.foldl _ _ _ ?_)
      | apply Keeps.step (Keeps.foldl1 _ _ _ ?_))
    | (fail_if_no_progress (with_reducible apply Keeps.upd)) | (fail_if_no_progress (with_reducible apply Keeps.updHbm)) | split

theorem State.dropHeld_keeps (s : State) (h : Held) :
    Keeps s (State.dropHeld s h) := by
  unfold State.dropHeld
  try dsimp only
  repeat' first
    | (with_reducible first
      | exact Keeps.refl _ | assumption | apply Leaves.next_of | exact Leaves.fault _ _ | exact Leaves.refused _ _
      | apply Keeps.step (State.stopSending_keeps ..) | apply Keeps.step (State.freeFlits_keeps ..)
      | apply Keeps.step (State.setLink_keeps ..) | apply Keeps.step (Keeps.foldl _ _ _ ?_)
      | apply Keeps.step (Keeps.foldl1 _ _ _ ?_))
    | (fail_if_no_progress (with_reducible apply Keeps.upd)) | (fail_if_no_progress (with_reducible apply Keeps.updHbm)) | split

theorem State.lose_keeps (s : State) (h : Held) :
    Keeps s (State.lose s h) := by
  unfold State.lose
  try dsimp only
  repeat' first
    | (with_reducible first
      | exact Keeps.refl _ | assumption | apply Leaves.next_of | exact Leaves.fault _ _ | exact Leaves.refused _ _
      | apply Keeps.step (State.pushReturn_keeps ..) | apply Keeps.step (Keeps.foldl _ _ _ ?_)
      | apply Keeps.step (Keeps.foldl1 _ _ _ ?_))
    | (fail_if_no_progress (with_reducible apply Keeps.upd)) | (fail_if_no_progress (with_reducible apply Keeps.updHbm)) | split
    | (intro _; try dsimp only)

theorem State.dropPkt_keeps (s : State) (h : Held) :
    Keeps s (State.dropPkt s h) := by
  unfold State.dropPkt
  try dsimp only
  repeat' first
    | (with_reducible first
      | exact Keeps.refl _ | assumption | apply Leaves.next_of | exact Leaves.fault _ _ | exact Leaves.refused _ _
      | apply Keeps.step (State.dropHeld_keeps ..) | apply Keeps.step (State.lose_keeps ..)
      | apply Keeps.step (State.bump_keeps ..) | apply Keeps.step (Keeps.foldl _ _ _ ?_)
      | apply Keeps.step (Keeps.foldl1 _ _ _ ?_))
    | (fail_if_no_progress (with_reducible apply Keeps.upd)) | (fail_if_no_progress (with_reducible apply Keeps.updHbm)) | split

theorem State.repairVc_keeps (s : State) (p : Nat) (vc : Nat) (seed : Nat) (after : Nat) :
    Keeps s (State.repairVc s p vc seed after) := by
  unfold State.repairVc
  try dsimp only
  repeat' first
    | (with_reducible first
      | exact Keeps.refl _ | assumption | apply Leaves.next_of | exact Leaves.fault _ _ | exact Leaves.refused _ _
      | apply Keeps.step (State.pushReturn_keeps ..) | apply Keeps.step (State.dropHeld_keeps ..)
      | apply Keeps.step (State.dropPkt_keeps ..) | apply Keeps.step (State.setLink_keeps ..)
      | apply Keeps.step (Keeps.foldl _ _ _ ?_) | apply Keeps.step (Keeps.foldl1 _ _ _ ?_))
    | (fail_if_no_progress (with_reducible apply Keeps.upd)) | (fail_if_no_progress (with_reducible apply Keeps.updHbm)) | split
    | (intro _; try dsimp only)

theorem State.linkDown_keeps (s : State) (p : Nat) :
    Keeps s (State.linkDown s p) := by
  unfold State.linkDown
  try dsimp only
  repeat' first
    | (with_reducible first
      | exact Keeps.refl _ | assumption | apply Leaves.next_of | exact Leaves.fault _ _ | exact Leaves.refused _ _
      | apply Keeps.step (State.setLink_keeps ..) | apply Keeps.step (State.repairVc_keeps ..)
      | apply Keeps.step (State.resetGroup_keeps ..) | apply Keeps.step (Keeps.foldl _ _ _ ?_)
      | apply Keeps.step (Keeps.foldl1 _ _ _ ?_))
    | (fail_if_no_progress (with_reducible apply Keeps.upd)) | (fail_if_no_progress (with_reducible apply Keeps.updHbm)) | split
    | (intro _; try dsimp only)

theorem State.settleLinks_keeps (s : State) :
    Keeps s (State.settleLinks s) := by
  unfold State.settleLinks
  try dsimp only
  repeat' first
    | (with_reducible first
      | exact Keeps.refl _ | assumption | apply Leaves.next_of | exact Leaves.fault _ _ | exact Leaves.refused _ _
      | apply Keeps.step (State.linkDown_keeps ..) | apply Keeps.step (Keeps.foldl _ _ _ ?_)
      | apply Keeps.step (Keeps.foldl1 _ _ _ ?_))
    | (fail_if_no_progress (with_reducible apply Keeps.upd)) | (fail_if_no_progress (with_reducible apply Keeps.updHbm)) | split
    | (intro _; try dsimp only)

theorem State.parkLanes_keeps (s : State) :
    Keeps s (State.parkLanes s) := by
  unfold State.parkLanes
  try dsimp only
  repeat' first
    | (with_reducible first
      | exact Keeps.refl _ | assumption | apply Leaves.next_of | exact Leaves.fault _ _ | exact Leaves.refused _ _
      | apply Keeps.step (State.setLane_keeps ..) | apply Keeps.step (Keeps.foldl _ _ _ ?_)
      | apply Keeps.step (Keeps.foldl1 _ _ _ ?_))
    | (fail_if_no_progress (with_reducible apply Keeps.upd)) | (fail_if_no_progress (with_reducible apply Keeps.updHbm)) | split
    | (intro _; try dsimp only)

theorem State.awaitLane_keeps (s : State) (n : Nat) (slot : Nat) :
    Keeps s (State.awaitLane s n slot) := by
  unfold State.awaitLane
  try dsimp only
  repeat' first
    | (with_reducible first
      | exact Keeps.refl _ | assumption | apply Leaves.next_of | exact Leaves.fault _ _ | exact Leaves.refused _ _
      | apply Keeps.step (Keeps.foldl _ _ _ ?_) | apply Keeps.step (Keeps.foldl1 _ _ _ ?_))
    | (fail_if_no_progress (with_reducible apply Keeps.upd))

theorem State.sendPreamble_keeps (s : State) (n : Nat) :
    Keeps s (State.sendPreamble s n) := by
  unfold State.sendPreamble
  try dsimp only
  repeat' first
    | (with_reducible first
      | exact Keeps.refl _ | assumption | apply Leaves.next_of | exact Leaves.fault _ _ | exact Leaves.refused _ _
      | apply Keeps.step (Keeps.foldl _ _ _ ?_) | apply Keeps.step (Keeps.foldl1 _ _ _ ?_))
    | (fail_if_no_progress (with_reducible apply Keeps.upd))

theorem State.freshLanes_keeps (s : State) (scope : Nat → Bool) :
    Keeps s (State.freshLanes s scope) := by
  unfold State.freshLanes
  try dsimp only
  repeat' first
    | (with_reducible first
      | exact Keeps.refl _ | assumption | apply Leaves.next_of | exact Leaves.fault _ _ | exact Leaves.refused _ _
      | apply Keeps.step (State.awaitLane_keeps ..) | apply Keeps.step (State.sendPreamble_keeps ..)
      | apply Keeps.step (Keeps.foldl _ _ _ ?_) | apply Keeps.step (Keeps.foldl1 _ _ _ ?_))
    | (fail_if_no_progress (with_reducible apply Keeps.upd)) | (fail_if_no_progress (with_reducible apply Keeps.updHbm)) | split
    | (intro _; try dsimp only)

theorem State.lightPlan_keeps (s : State) (scope : Nat → Bool) (bound : Option Nat) :
    Keeps s (State.lightPlan s scope bound) := by
  unfold State.lightPlan
  try dsimp only
  repeat' first
    | (with_reducible first
      | exact Keeps.refl _ | assumption | apply Leaves.next_of | exact Leaves.fault _ _ | exact Leaves.refused _ _
      | apply Keeps.step (State.settlePort_keeps ..) | apply Keeps.step (State.settleLinks_keeps ..)
      | apply Keeps.step (State.parkLanes_keeps ..) | apply Keeps.step (State.freshLanes_keeps ..)
      | apply Keeps.step (Keeps.foldl _ _ _ ?_) | apply Keeps.step (Keeps.foldl1 _ _ _ ?_))
    | (fail_if_no_progress (with_reducible apply Keeps.upd)) | (fail_if_no_progress (with_reducible apply Keeps.updHbm)) | split
    | (intro _; try dsimp only)

theorem State.changePlan_keeps (s : State) (k : Nat) (scope : Nat → Bool) (bound : Option Nat) :
    Keeps s (State.changePlan s k scope bound) := by
  unfold State.changePlan
  try dsimp only
  repeat' first
    | (with_reducible first
      | exact Keeps.refl _ | assumption | apply Leaves.next_of | exact Leaves.fault _ _ | exact Leaves.refused _ _
      | apply Keeps.step (State.lightPlan_keeps ..) | apply Keeps.step (State.odp_keeps ..)
      | apply Keeps.step (Keeps.foldl _ _ _ ?_) | apply Keeps.step (Keeps.foldl1 _ _ _ ?_))
    | (fail_if_no_progress (with_reducible apply Keeps.upd)) | (fail_if_no_progress (with_reducible apply Keeps.updHbm)) | split

theorem State.takePlanSelect_keeps (s : State) (v : Nat) :
    Keeps s (State.takePlanSelect s v) := by
  unfold State.takePlanSelect
  try dsimp only
  repeat' first
    | (with_reducible first
      | exact Keeps.refl _ | assumption | apply Leaves.next_of | exact Leaves.fault _ _ | exact Leaves.refused _ _
      | apply Keeps.step (State.changePlan_keeps ..) | apply Keeps.step (Keeps.foldl _ _ _ ?_)
      | apply Keeps.step (Keeps.foldl1 _ _ _ ?_))
    | (fail_if_no_progress (with_reducible apply Keeps.upd)) | (fail_if_no_progress (with_reducible apply Keeps.updHbm)) | split

theorem State.takeRouteTable_keeps (s : State) (v : Nat) (b : List Byte) :
    Keeps s (State.takeRouteTable s v b) := by
  unfold State.takeRouteTable
  try dsimp only
  repeat' with_reducible first
    | exact Keeps.refl _ | assumption | apply Leaves.next_of | exact Leaves.fault _ _ | exact Leaves.refused _ _
    | apply Keeps.step (State.odp_keeps ..) | apply Keeps.step (State.odBytes_keeps ..)

theorem State.violate_keeps (s : State) (p : Nat) (vc : Nat) :
    Keeps s (State.violate s p vc) := by
  unfold State.violate
  try dsimp only
  repeat' with_reducible first
    | exact Keeps.refl _ | assumption | apply Leaves.next_of | exact Leaves.fault _ _ | exact Leaves.refused _ _
    | apply Keeps.step (State.bump_keeps ..) | apply Keeps.step (State.herdEvent_keeps ..)
    | apply Keeps.step (State.setLink_keeps ..)

theorem State.auditLink_keeps (s : State) (a : Nat) (p : Nat) :
    Keeps s (State.auditLink s a p) := by
  unfold State.auditLink
  try dsimp only
  repeat' first
    | (with_reducible first
      | exact Keeps.refl _ | assumption | apply Leaves.next_of | exact Leaves.fault _ _ | exact Leaves.refused _ _
      | apply Keeps.step (State.odp_keeps ..) | apply Keeps.step (State.setLink_keeps ..)
      | apply Keeps.step (State.violate_keeps ..) | apply Keeps.step (Keeps.foldl _ _ _ ?_)
      | apply Keeps.step (Keeps.foldl1 _ _ _ ?_))
    | (fail_if_no_progress (with_reducible apply Keeps.upd)) | (fail_if_no_progress (with_reducible apply Keeps.updHbm)) | split
    | (intro _; try dsimp only)

theorem State.setEpoch_keeps (s : State) (e : Nat) (a : Nat) (ports : List Nat) :
    Keeps s (State.setEpoch s e a ports) := by
  unfold State.setEpoch
  try dsimp only
  repeat' first
    | (with_reducible first
      | exact Keeps.refl _ | assumption | apply Leaves.next_of | exact Leaves.fault _ _ | exact Leaves.refused _ _
      | apply Keeps.step (State.auditLink_keeps ..) | apply Keeps.step (State.odp_keeps ..)
      | apply Keeps.step (Keeps.foldl _ _ _ ?_) | apply Keeps.step (Keeps.foldl1 _ _ _ ?_))
    | (fail_if_no_progress (with_reducible apply Keeps.upd)) | (fail_if_no_progress (with_reducible apply Keeps.updHbm)) | split
    | (intro _; try dsimp only)

theorem State.takeEpochSelect_keeps (s : State) (v : Nat) :
    Keeps s (State.takeEpochSelect s v) := by
  unfold State.takeEpochSelect
  try dsimp only
  repeat' first
    | (with_reducible first
      | exact Keeps.refl _ | assumption | apply Leaves.next_of | exact Leaves.fault _ _ | exact Leaves.refused _ _
      | apply Keeps.step (State.setEpoch_keeps ..) | apply Keeps.step (Keeps.foldl _ _ _ ?_)
      | apply Keeps.step (Keeps.foldl1 _ _ _ ?_))
    | (fail_if_no_progress (with_reducible apply Keeps.upd)) | (fail_if_no_progress (with_reducible apply Keeps.updHbm)) | split

theorem State.lostEvent_keeps (s : State) (c : Nat) (status : Nat) :
    Keeps s (State.lostEvent s c status) := by
  unfold State.lostEvent
  try dsimp only
  repeat' first
    | (with_reducible first
      | exact Keeps.refl _ | assumption | apply Leaves.next_of | exact Leaves.fault _ _ | exact Leaves.refused _ _
      | apply Keeps.step (State.herdEvent_keeps ..) | apply Keeps.step (State.bump_keeps ..)
      | apply Keeps.step (State.afterVote_keeps ..) | apply Keeps.step (State.setCtx_keeps ..)
      | apply Keeps.step (Keeps.foldl _ _ _ ?_) | apply Keeps.step (Keeps.foldl1 _ _ _ ?_))
    | (fail_if_no_progress (with_reducible apply Keeps.upd)) | (fail_if_no_progress (with_reducible apply Keeps.updHbm)) | split

theorem State.spoilShards_keeps (s : State) (t : CollTask) :
    Keeps s (State.spoilShards s t) := by
  unfold State.spoilShards
  try dsimp only
  repeat' first
    | (with_reducible first
      | exact Keeps.refl _ | assumption | apply Leaves.next_of | exact Leaves.fault _ _ | exact Leaves.refused _ _
      | apply Keeps.step (State.drawn_keeps ..) | apply Keeps.step (State.putMem_keeps ..)
      | apply Keeps.step (Keeps.foldl _ _ _ ?_) | apply Keeps.step (Keeps.foldl1 _ _ _ ?_))
    | (fail_if_no_progress (with_reducible apply Keeps.upd)) | (fail_if_no_progress (with_reducible apply Keeps.updHbm)) | split
    | (intro _; try dsimp only)

theorem State.collStop_keeps (s : State) (t : CollTask) (status : Nat) :
    Keeps s (State.collStop s t status) := by
  unfold State.collStop
  try dsimp only
  repeat' with_reducible first
    | exact Keeps.refl _ | assumption | apply Leaves.next_of | exact Leaves.fault _ _ | exact Leaves.refused _ _
    | apply Keeps.step (State.collFinish_keeps ..) | apply Keeps.step (State.spoilShards_keeps ..)

theorem State.stopColl_keeps (s : State) (owner : Nat × Nat) (status : Nat) :
    Keeps s (State.stopColl s owner status) := by
  unfold State.stopColl
  try dsimp only
  repeat' first
    | (with_reducible first
      | exact Keeps.refl _ | assumption | apply Leaves.next_of | exact Leaves.fault _ _ | exact Leaves.refused _ _
      | apply Keeps.step (State.collStop_keeps ..) | apply Keeps.step (Keeps.foldl _ _ _ ?_)
      | apply Keeps.step (Keeps.foldl1 _ _ _ ?_))
    | (fail_if_no_progress (with_reducible apply Keeps.upd)) | (fail_if_no_progress (with_reducible apply Keeps.updHbm)) | split

theorem State.returnArrives_keeps (s : State) (p : Packet) :
    Keeps s (State.returnArrives s p) := by
  unfold State.returnArrives
  try dsimp only
  repeat' first
    | (with_reducible first
      | exact Keeps.refl _ | assumption | apply Leaves.next_of | exact Leaves.fault _ _ | exact Leaves.refused _ _
      | apply Keeps.step (State.bump_keeps ..) | apply Keeps.step (State.setWin_keeps ..)
      | apply Keeps.step (State.lostEvent_keeps ..) | apply Keeps.step (State.stopColl_keeps ..)
      | apply Keeps.step (Keeps.foldl _ _ _ ?_) | apply Keeps.step (Keeps.foldl1 _ _ _ ?_))
    | (fail_if_no_progress (with_reducible apply Keeps.upd)) | (fail_if_no_progress (with_reducible apply Keeps.updHbm)) | split

theorem State.takeWindowReset_keeps (s : State) (v : Nat) :
    Keeps s (State.takeWindowReset s v) := by
  unfold State.takeWindowReset
  try dsimp only
  repeat' first
    | (with_reducible first
      | exact Keeps.refl _ | assumption | apply Leaves.next_of | exact Leaves.fault _ _ | exact Leaves.refused _ _
      | apply Keeps.step (State.returnArrives_keeps ..) | apply Keeps.step (Keeps.foldl _ _ _ ?_)
      | apply Keeps.step (Keeps.foldl1 _ _ _ ?_))
    | (fail_if_no_progress (with_reducible apply Keeps.upd)) | (fail_if_no_progress (with_reducible apply Keeps.updHbm)) | split
    | (intro _; try dsimp only)

theorem State.takeSwitch_keeps (s : State) (v : Nat) :
    Keeps s (State.takeSwitch s v) := by
  unfold State.takeSwitch
  try dsimp only
  repeat' first
    | (with_reducible first
      | exact Keeps.refl _ | assumption | apply Leaves.next_of | exact Leaves.fault _ _ | exact Leaves.refused _ _
      | apply Keeps.step (Keeps.foldl _ _ _ ?_) | apply Keeps.step (Keeps.foldl1 _ _ _ ?_))
    | (fail_if_no_progress (with_reducible apply Keeps.upd))

theorem State.ringStart_keeps (s : State) :
    Keeps s (State.ringStart s) := by
  unfold State.ringStart
  try dsimp only
  repeat' first
    | (with_reducible first
      | exact Keeps.refl _ | assumption | apply Leaves.next_of | exact Leaves.fault _ _ | exact Leaves.refused _ _
      | apply Keeps.step (State.odp_keeps ..) | apply Keeps.step (Keeps.foldl _ _ _ ?_)
      | apply Keeps.step (Keeps.foldl1 _ _ _ ?_))
    | (fail_if_no_progress (with_reducible apply Keeps.upd))

theorem State.ringStop_keeps (s : State) :
    Keeps s (State.ringStop s) := by
  unfold State.ringStop
  try dsimp only
  repeat' first
    | (with_reducible first
      | exact Keeps.refl _ | assumption | apply Leaves.next_of | exact Leaves.fault _ _ | exact Leaves.refused _ _
      | apply Keeps.step (State.odp_keeps ..) | apply Keeps.step (Keeps.foldl _ _ _ ?_)
      | apply Keeps.step (Keeps.foldl1 _ _ _ ?_))
    | (fail_if_no_progress (with_reducible apply Keeps.upd))

theorem State.takeRing_keeps (s : State) (v : Nat) :
    Keeps s (State.takeRing s v) := by
  unfold State.takeRing
  try dsimp only
  repeat' first
    | (with_reducible first
      | exact Keeps.refl _ | assumption | apply Leaves.next_of | exact Leaves.fault _ _ | exact Leaves.refused _ _
      | apply Keeps.step (State.ringStart_keeps ..) | apply Keeps.step (State.ringStop_keeps ..)
      | apply Keeps.step (Keeps.foldl _ _ _ ?_) | apply Keeps.step (Keeps.foldl1 _ _ _ ?_))
    | (fail_if_no_progress (with_reducible apply Keeps.upd)) | (fail_if_no_progress (with_reducible apply Keeps.updHbm)) | split

theorem State.takeClear_keeps (s : State) :
    Keeps s (State.takeClear s) := by
  unfold State.takeClear
  try dsimp only
  repeat' first
    | (with_reducible first
      | exact Keeps.refl _ | assumption | apply Leaves.next_of | exact Leaves.fault _ _ | exact Leaves.refused _ _
      | apply Keeps.step (Keeps.foldl _ _ _ ?_) | apply Keeps.step (Keeps.foldl1 _ _ _ ?_))
    | (fail_if_no_progress (with_reducible apply Keeps.upd))

theorem State.takeTraceEnable_keeps (s : State) (v : Nat) :
    Keeps s (State.takeTraceEnable s v) := by
  unfold State.takeTraceEnable
  try dsimp only
  repeat' first
    | (with_reducible first
      | exact Keeps.refl _ | assumption | apply Leaves.next_of | exact Leaves.fault _ _ | exact Leaves.refused _ _
      | apply Keeps.step (State.odp_keeps ..) | apply Keeps.step (Keeps.foldl _ _ _ ?_)
      | apply Keeps.step (Keeps.foldl1 _ _ _ ?_))
    | (fail_if_no_progress (with_reducible apply Keeps.upd)) | (fail_if_no_progress (with_reducible apply Keeps.updHbm)) | split

theorem State.takeSelector_keeps (s : State) (k : Nat) (v : Nat) :
    Keeps s (State.takeSelector s k v) := by
  unfold State.takeSelector
  try dsimp only
  repeat' first
    | (with_reducible first
      | exact Keeps.refl _ | assumption | apply Leaves.next_of | exact Leaves.fault _ _ | exact Leaves.refused _ _
      | apply Keeps.step (State.odp_keeps ..) | apply Keeps.step (Keeps.foldl _ _ _ ?_)
      | apply Keeps.step (Keeps.foldl1 _ _ _ ?_))
    | (fail_if_no_progress (with_reducible apply Keeps.upd))

theorem State.setPeers_keeps (s : State) (p : Nat) (x : PeerPlans) :
    Keeps s (State.setPeers s p x) := by
  unfold State.setPeers
  try dsimp only
  repeat' first
    | (with_reducible first
      | exact Keeps.refl _ | assumption | apply Leaves.next_of | exact Leaves.fault _ _ | exact Leaves.refused _ _
      | apply Keeps.step (Keeps.foldl _ _ _ ?_) | apply Keeps.step (Keeps.foldl1 _ _ _ ?_))
    | (fail_if_no_progress (with_reducible apply Keeps.upd))

theorem State.takeLanePlan_keeps (s : State) (k : Nat) (b : List Byte) :
    Keeps s (State.takeLanePlan s k b) := by
  unfold State.takeLanePlan
  try dsimp only
  repeat' first
    | (with_reducible first
      | exact Keeps.refl _ | assumption | apply Leaves.next_of | exact Leaves.fault _ _ | exact Leaves.refused _ _
      | apply Keeps.step (State.odp_keeps ..) | apply Keeps.step (State.odBytes_keeps ..)
      | apply Keeps.step (State.setPeers_keeps ..) | apply Keeps.step (State.lightPlan_keeps ..)
      | apply Keeps.step (Keeps.foldl _ _ _ ?_) | apply Keeps.step (Keeps.foldl1 _ _ _ ?_))
    | (fail_if_no_progress (with_reducible apply Keeps.upd)) | (fail_if_no_progress (with_reducible apply Keeps.updHbm)) | split
    | (intro _; try dsimp only)

theorem State.odPut_keeps (s : State) (idx : Nat) (sub : Nat) (k : Nat) (es : List Nat) :
    Keeps s (State.odPut s idx sub k es) := by
  unfold State.odPut
  try dsimp only
  repeat' first
    | (with_reducible first
      | exact Keeps.refl _ | assumption | apply Leaves.next_of | exact Leaves.fault _ _ | exact Leaves.refused _ _
      | apply Keeps.step (State.odp_keeps ..) | apply Keeps.step (Keeps.foldl _ _ _ ?_)
      | apply Keeps.step (Keeps.foldl1 _ _ _ ?_))
    | (fail_if_no_progress (with_reducible apply Keeps.upd)) | (fail_if_no_progress (with_reducible apply Keeps.updHbm)) | split
    | (intro _; try dsimp only)

theorem State.odApply_keeps (s : State) (idx : Nat) (sub : Nat) (k : Nat) (es : List Nat) (bs : List Byte) :
    Keeps s (State.odApply s idx sub k es bs).1 := by
  unfold State.odApply
  try dsimp only
  repeat' first
    | (with_reducible first
      | exact Keeps.refl _ | assumption | apply Leaves.next_of | exact Leaves.fault _ _ | exact Leaves.refused _ _
      | apply Keeps.step (State.takeChunk_keeps ..) | apply Keeps.step (State.takeVerify_keeps ..)
      | apply Keeps.step (State.takeOwnerKey_keeps ..) | apply Keeps.step (State.takeOwnerRevoke_keeps ..)
      | apply Keeps.step (State.takeVendorRevoke_keeps ..) | apply Keeps.step (State.takeSvn_keeps ..)
      | apply Keeps.step (State.takeDebugEnable_keeps ..) | apply Keeps.step (State.takeDebugDisable_keeps ..)
      | apply Keeps.step (State.takeNonce_keeps ..) | apply Keeps.step (State.takeCap_keeps ..)
      | apply Keeps.step (State.takeStateWrite_keeps ..) | apply Keeps.step (State.takeLevelWrite_keeps ..)
      | apply Keeps.step (State.takeRates_keeps ..) | apply Keeps.step (State.takeDarkTimeout_keeps ..)
      | apply Keeps.step (State.takePlanSelect_keeps ..) | apply Keeps.step (State.takeRouteTable_keeps ..)
      | apply Keeps.step (State.takeEpochSelect_keeps ..) | apply Keeps.step (State.takeWindowReset_keeps ..)
      | apply Keeps.step (State.takeSwitch_keeps ..) | apply Keeps.step (State.takeRing_keeps ..)
      | apply Keeps.step (State.takeClear_keeps ..) | apply Keeps.step (State.takeTraceEnable_keeps ..)
      | apply Keeps.step (State.takeSelector_keeps ..) | apply Keeps.step (State.takeLanePlan_keeps ..)
      | apply Keeps.step (State.odPut_keeps ..) | apply Keeps.step (Keeps.foldl _ _ _ ?_)
      | apply Keeps.step (Keeps.foldl1 _ _ _ ?_))
    | (fail_if_no_progress (with_reducible apply Keeps.upd)) | (fail_if_no_progress (with_reducible apply Keeps.updHbm)) | split

theorem State.odWrite_keeps (s : State) (idx : Nat) (sub : Nat) (off : Nat) (bs : List Byte) :
    Keeps s (State.odWrite s idx sub off bs).1 := by
  unfold State.odWrite
  try dsimp only
  repeat' first
    | (with_reducible first
      | exact Keeps.refl _ | assumption | apply Leaves.next_of | exact Leaves.fault _ _ | exact Leaves.refused _ _
      | apply Keeps.step (State.odApply_keeps ..) | apply Keeps.step (Keeps.foldl _ _ _ ?_)
      | apply Keeps.step (Keeps.foldl1 _ _ _ ?_))
    | (fail_if_no_progress (with_reducible apply Keeps.upd)) | (fail_if_no_progress (with_reducible apply Keeps.updHbm)) | split

theorem State.runWrite_keeps (s : State) (x : Session) (m : Lly) (row : OdRow) :
    Keeps s (State.runWrite s x m row).1 := by
  unfold State.runWrite
  try dsimp only
  repeat' first
    | (with_reducible first
      | exact Keeps.refl _ | assumption | apply Leaves.next_of | exact Leaves.fault _ _ | exact Leaves.refused _ _
      | apply Keeps.step (State.odWrite_keeps ..) | apply Keeps.step (Keeps.foldl _ _ _ ?_)
      | apply Keeps.step (Keeps.foldl1 _ _ _ ?_))
    | (fail_if_no_progress (with_reducible apply Keeps.upd)) | (fail_if_no_progress (with_reducible apply Keeps.updHbm)) | split

theorem State.runLly_keeps (s : State) (x : Session) (m : Lly) :
    Keeps s (State.runLly s x m).1 := by
  unfold State.runLly
  try dsimp only
  repeat' first
    | (with_reducible first
      | exact Keeps.refl _ | assumption | apply Leaves.next_of | exact Leaves.fault _ _ | exact Leaves.refused _ _
      | apply Keeps.step (State.runRead_keeps ..) | apply Keeps.step (State.runWrite_keeps ..)
      | apply Keeps.step (Keeps.foldl _ _ _ ?_) | apply Keeps.step (Keeps.foldl1 _ _ _ ?_))
    | (fail_if_no_progress (with_reducible apply Keeps.upd)) | (fail_if_no_progress (with_reducible apply Keeps.updHbm)) | split

theorem State.apStatus_keeps (s : State) (k : Nat) (st : Nat) (applied : Bool) :
    Keeps s (State.apStatus s k st applied) := by
  unfold State.apStatus
  try dsimp only
  repeat' with_reducible first
    | exact Keeps.refl _ | assumption | apply Leaves.next_of | exact Leaves.fault _ _ | exact Leaves.refused _ _
    | apply Keeps.step (State.odp_keeps ..)

theorem State.setAp_keeps (s : State) (k : Nat) (x : Aperture) :
    Keeps s (State.setAp s k x) := by
  unfold State.setAp
  try dsimp only
  repeat' first
    | (with_reducible first
      | exact Keeps.refl _ | assumption | apply Leaves.next_of | exact Leaves.fault _ _ | exact Leaves.refused _ _
      | apply Keeps.step (Keeps.foldl _ _ _ ?_) | apply Keeps.step (Keeps.foldl1 _ _ _ ?_))
    | (fail_if_no_progress (with_reducible apply Keeps.upd))

theorem State.apRead_keeps (s : State) (n : Nat) (o : Nat) (len : Nat) :
    Keeps s (State.apRead s n o len) := by
  unfold State.apRead
  try dsimp only
  repeat' first
    | (with_reducible first
      | exact Keeps.refl _ | assumption | apply Leaves.next_of | exact Leaves.fault _ _ | exact Leaves.refused _ _
      | apply Keeps.step (State.emit_keeps ..) | apply Keeps.step (State.apStatus_keeps ..)
      | apply Keeps.step (State.setAp_keeps ..) | apply Keeps.step (State.afterRead_keeps ..)
      | apply Keeps.step (Keeps.foldl _ _ _ ?_) | apply Keeps.step (Keeps.foldl1 _ _ _ ?_))
    | (fail_if_no_progress (with_reducible apply Keeps.upd)) | (fail_if_no_progress (with_reducible apply Keeps.updHbm)) | split

theorem State.apSelect_keeps (s : State) (n : Nat) (v : Nat) :
    Keeps s (State.apSelect s n v) := by
  unfold State.apSelect
  try dsimp only
  repeat' first
    | (with_reducible first
      | exact Keeps.refl _ | assumption | apply Leaves.next_of | exact Leaves.fault _ _ | exact Leaves.refused _ _
      | apply Keeps.step (State.apStatus_keeps ..) | apply Keeps.step (State.takeSelector_keeps ..)
      | apply Keeps.step (Keeps.foldl _ _ _ ?_) | apply Keeps.step (Keeps.foldl1 _ _ _ ?_))
    | (fail_if_no_progress (with_reducible apply Keeps.upd)) | (fail_if_no_progress (with_reducible apply Keeps.updHbm)) | split

theorem State.apWrite_keeps (s : State) (k : Nat) (idx : Nat) (sub : Nat) (row : OdRow) (o : Nat) (bs : List Byte) :
    Keeps s (State.apWrite s k idx sub row o bs) := by
  unfold State.apWrite
  try dsimp only
  repeat' first
    | (with_reducible first
      | exact Keeps.refl _ | assumption | apply Leaves.next_of | exact Leaves.fault _ _ | exact Leaves.refused _ _
      | apply Keeps.step (State.apStatus_keeps ..) | apply Keeps.step (State.odWrite_keeps ..)
      | apply Keeps.step (State.setAp_keeps ..) | apply Keeps.step (Keeps.foldl _ _ _ ?_)
      | apply Keeps.step (Keeps.foldl1 _ _ _ ?_))
    | (fail_if_no_progress (with_reducible apply Keeps.upd)) | (fail_if_no_progress (with_reducible apply Keeps.updHbm)) | split

theorem State.apTake_keeps (s : State) (k : Nat) (o : Nat) (bytes : List Byte) :
    Keeps s (State.apTake s k o bytes) := by
  unfold State.apTake
  try dsimp only
  repeat' first
    | (with_reducible first
      | exact Keeps.refl _ | assumption | apply Leaves.next_of | exact Leaves.fault _ _ | exact Leaves.refused _ _
      | apply Keeps.step (State.apStatus_keeps ..) | apply Keeps.step (State.apWrite_keeps ..)
      | apply Keeps.step (Keeps.foldl _ _ _ ?_) | apply Keeps.step (Keeps.foldl1 _ _ _ ?_))
    | (fail_if_no_progress (with_reducible apply Keeps.upd)) | (fail_if_no_progress (with_reducible apply Keeps.updHbm)) | split

theorem State.remapOutput_keeps (s : State) (ch : Nat) (f : CalFinding) (o : Bool × BitVec 7) :
    Keeps s (State.remapOutput s ch f o) := by
  unfold State.remapOutput
  try dsimp only
  repeat' first
    | (with_reducible first
      | exact Keeps.refl _ | assumption | apply Leaves.next_of | exact Leaves.fault _ _ | exact Leaves.refused _ _
      | apply Keeps.step (State.odp_keeps ..) | apply Keeps.step (State.setChurn_keeps ..)
      | apply Keeps.step (State.bump_keeps ..) | apply Keeps.step (State.request_keeps ..)
      | apply Keeps.step (Keeps.foldl _ _ _ ?_) | apply Keeps.step (Keeps.foldl1 _ _ _ ?_))
    | (fail_if_no_progress (with_reducible apply Keeps.upd)) | (fail_if_no_progress (with_reducible apply Keeps.updHbm)) | split

theorem State.setHealthy_keeps (s : State) (ch : Nat) (slots : List Nat) :
    Keeps s (State.setHealthy s ch slots) := by
  unfold State.setHealthy
  try dsimp only
  repeat' with_reducible first
    | exact Keeps.refl _ | assumption | apply Leaves.next_of | exact Leaves.fault _ _ | exact Leaves.refused _ _
    | apply Keeps.step (State.odp_keeps ..)

theorem State.loseSlot_keeps (s : State) (ch : Nat) (slot : Nat) :
    Keeps s (State.loseSlot s ch slot) := by
  unfold State.loseSlot
  try dsimp only
  repeat' with_reducible first
    | exact Keeps.refl _ | assumption | apply Leaves.next_of | exact Leaves.fault _ _ | exact Leaves.refused _ _
    | apply Keeps.step (State.setHealthy_keeps ..) | apply Keeps.step (State.setChurn_keeps ..)

theorem State.noisySlot_keeps (s : State) (ch : Nat) (relock : Bool) (slot : Nat) :
    Keeps s (State.noisySlot s ch relock slot) := by
  unfold State.noisySlot
  try dsimp only
  repeat' first
    | (with_reducible first
      | exact Keeps.refl _ | assumption | apply Leaves.next_of | exact Leaves.fault _ _ | exact Leaves.refused _ _
      | apply Keeps.step (State.bump_keeps ..) | apply Keeps.step (State.loseSlot_keeps ..)
      | apply Keeps.step (State.setHealthy_keeps ..) | apply Keeps.step (Keeps.foldl _ _ _ ?_)
      | apply Keeps.step (Keeps.foldl1 _ _ _ ?_))
    | (fail_if_no_progress (with_reducible apply Keeps.upd)) | (fail_if_no_progress (with_reducible apply Keeps.updHbm)) | split

theorem State.applyCal_keeps (s : State) (ch : Nat) (f : CalFinding) (relock : Bool) :
    Keeps s (State.applyCal s ch f relock) := by
  unfold State.applyCal
  try dsimp only
  repeat' first
    | (with_reducible first
      | exact Keeps.refl _ | assumption | apply Leaves.next_of | exact Leaves.fault _ _ | exact Leaves.refused _ _
      | apply Keeps.step (State.setChurn_keeps ..) | apply Keeps.step (State.odp_keeps ..)
      | apply Keeps.step (State.bump_keeps ..) | apply Keeps.step (State.remapOutput_keeps ..)
      | apply Keeps.step (State.herdEvent_keeps ..) | apply Keeps.step (State.noisySlot_keeps ..)
      | apply Keeps.step (Keeps.foldl _ _ _ ?_) | apply Keeps.step (Keeps.foldl1 _ _ _ ?_))
    | (fail_if_no_progress (with_reducible apply Keeps.upd)) | (fail_if_no_progress (with_reducible apply Keeps.updHbm)) | split
    | (intro _; try dsimp only)

theorem State.putStoreRun_keeps (s : State) (core : Nat) (off : Nat) (a3 : List Byte) :
    Keeps s (State.putStoreRun s core off a3) := by
  induction a3 generalizing s core off with
  | nil => unfold State.putStoreRun; exact Keeps.refl _
  | cons b l ih =>
    unfold State.putStoreRun
    try dsimp only
    repeat' with_reducible first
      | exact Keeps.refl _ | assumption | apply Leaves.next_of | exact Leaves.fault _ _ | exact Leaves.refused _ _
      | apply Keeps.step (State.putStore_keeps ..) | apply Keeps.step (Keeps.foldl _ _ _ ?_)
      | apply Keeps.step (Keeps.foldl1 _ _ _ ?_) | apply Keeps.step (ih ..)

theorem State.setAq_keeps (s : State) (k : Nat) (q : DescQ) :
    Keeps s (State.setAq s k q) := by
  unfold State.setAq
  try dsimp only
  repeat' first
    | (with_reducible first
      | exact Keeps.refl _ | assumption | apply Leaves.next_of | exact Leaves.fault _ _ | exact Leaves.refused _ _
      | apply Keeps.step (Keeps.foldl _ _ _ ?_) | apply Keeps.step (Keeps.foldl1 _ _ _ ?_))
    | (fail_if_no_progress (with_reducible apply Keeps.upd))

theorem State.settleStarts_keeps (s : State) (c : Nat) :
    Keeps s (State.settleStarts s c) := by
  unfold State.settleStarts
  try dsimp only
  repeat' first
    | (with_reducible first
      | exact Keeps.refl _ | assumption | apply Leaves.next_of | exact Leaves.fault _ _ | exact Leaves.refused _ _
      | apply Keeps.step (State.entryDone_keeps ..) | apply Keeps.step (Keeps.foldl _ _ _ ?_)
      | apply Keeps.step (Keeps.foldl1 _ _ _ ?_))
    | (fail_if_no_progress (with_reducible apply Keeps.upd)) | (fail_if_no_progress (with_reducible apply Keeps.updHbm)) | split
    | (intro _; try dsimp only)

theorem State.endRoutine_keeps (s : State) (region : Nat) (c : Nat) :
    Keeps s (State.endRoutine s region c) := by
  unfold State.endRoutine
  try dsimp only
  repeat' first
    | (with_reducible first
      | exact Keeps.refl _ | assumption | apply Leaves.next_of | exact Leaves.fault _ _ | exact Leaves.refused _ _
      | apply Keeps.step (State.settleStarts_keeps ..) | apply Keeps.step (State.setFile_keeps ..)
      | apply Keeps.step (Keeps.foldl _ _ _ ?_) | apply Keeps.step (Keeps.foldl1 _ _ _ ?_))
    | (fail_if_no_progress (with_reducible apply Keeps.upd)) | (fail_if_no_progress (with_reducible apply Keeps.updHbm)) | split
    | (intro _; try dsimp only)

theorem State.attnFlush_keeps (s : State) (region : Nat) (c : Nat) :
    Keeps s (State.attnFlush s region c) := by
  unfold State.attnFlush
  try dsimp only
  repeat' first
    | (with_reducible first
      | exact Keeps.refl _ | assumption | apply Leaves.next_of | exact Leaves.fault _ _ | exact Leaves.refused _ _
      | apply Keeps.step (State.putStoreRun_keeps ..) | apply Keeps.step (State.traced_keeps ..)
      | apply Keeps.step (State.setAq_keeps ..) | apply Keeps.step (State.signal_keeps ..)
      | apply Keeps.step (State.endRoutine_keeps ..) | apply Keeps.step (Keeps.foldl _ _ _ ?_)
      | apply Keeps.step (Keeps.foldl1 _ _ _ ?_))
    | (fail_if_no_progress (with_reducible apply Keeps.upd)) | (fail_if_no_progress (with_reducible apply Keeps.updHbm)) | split

theorem State.snoopLines_keeps (s : State) (ls : List Nat) :
    Keeps s (State.snoopLines s ls) := by
  unfold State.snoopLines
  try dsimp only
  repeat' first
    | (with_reducible first
      | exact Keeps.refl _ | assumption | apply Leaves.next_of | exact Leaves.fault _ _ | exact Leaves.refused _ _
      | apply Keeps.step (State.bump_keeps ..) | apply Keeps.step (Keeps.foldl _ _ _ ?_)
      | apply Keeps.step (Keeps.foldl1 _ _ _ ?_))
    | (fail_if_no_progress (with_reducible apply Keeps.upd)) | (fail_if_no_progress (with_reducible apply Keeps.updHbm)) | split
    | (intro _; try dsimp only)

theorem State.coherent_keeps (s : State) (ranges : List (Nat × Nat)) (act : State → State) (hact : ∀ u, Keeps u (act u)) :
    Keeps s (State.coherent s ranges act) := by
  unfold State.coherent
  try dsimp only
  repeat' first
    | (with_reducible first
      | exact Keeps.refl _ | assumption | apply Leaves.next_of | exact Leaves.fault _ _ | exact Leaves.refused _ _
      | apply Keeps.step (hact ..) | apply Keeps.step (State.snoopLines_keeps ..) | apply Keeps.step (Keeps.foldl _ _ _ ?_)
      | apply Keeps.step (Keeps.foldl1 _ _ _ ?_))
    | (fail_if_no_progress (with_reducible apply Keeps.upd)) | (fail_if_no_progress (with_reducible apply Keeps.updHbm)) | split

theorem State.attnLaunched_keeps (s : State) (region : Nat) (t : Tally) :
    Keeps s (State.attnLaunched s region t) := by
  unfold State.attnLaunched
  try dsimp only
  repeat' first
    | (with_reducible first
      | exact Keeps.refl _ | assumption | apply Leaves.next_of | exact Leaves.fault _ _ | exact Leaves.refused _ _
      | apply Keeps.step (State.bump_keeps ..) | apply Keeps.step (State.setChurn_keeps ..)
      | apply Keeps.step (Keeps.foldl _ _ _ ?_) | apply Keeps.step (Keeps.foldl1 _ _ _ ?_))
    | (fail_if_no_progress (with_reducible apply Keeps.upd)) | (fail_if_no_progress (with_reducible apply Keeps.updHbm)) | split

theorem State.attnDone_keeps (s : State) (region : Nat) (c : Nat) (h : Nat) (d : List Byte) (status : Nat) (t : Tally) (empty : Nat) :
    Keeps s (State.attnDone s region c h d status t empty) := by
  unfold State.attnDone
  try dsimp only
  repeat' first
    | (with_reducible first
      | exact Keeps.refl _ | assumption | apply Leaves.next_of | exact Leaves.fault _ _ | exact Leaves.refused _ _
      | apply Keeps.step (State.stamped_keeps ..) | apply Keeps.step (State.setAq_keeps ..)
      | apply Keeps.step (State.bump_keeps ..) | apply Keeps.step (State.attnLaunched_keeps ..)
      | apply Keeps.step (State.odp_keeps ..) | apply Keeps.step (State.numericEvent_keeps ..)
      | apply Keeps.step (Keeps.foldl _ _ _ ?_) | apply Keeps.step (Keeps.foldl1 _ _ _ ?_))
    | (fail_if_no_progress (with_reducible apply Keeps.upd)) | (fail_if_no_progress (with_reducible apply Keeps.updHbm)) | split

theorem State.coherently_keeps (s : State) (act : State → State) (hact : ∀ u, Keeps u (act u)) :
    Keeps s (State.coherently s act) := by
  unfold State.coherently
  try dsimp only
  repeat' first
    | (with_reducible first
      | exact Keeps.refl _ | assumption | apply Leaves.next_of | exact Leaves.fault _ _ | exact Leaves.refused _ _
      | apply Keeps.step (hact ..) | apply Keeps.step (State.snoopLines_keeps ..) | apply Keeps.step (Keeps.foldl _ _ _ ?_)
      | apply Keeps.step (Keeps.foldl1 _ _ _ ?_))
    | (fail_if_no_progress (with_reducible apply Keeps.upd)) | (fail_if_no_progress (with_reducible apply Keeps.updHbm)) | split

theorem State.replayed_keeps (s : State) (n : Nat) (where_ : Nat) (ended : Bool) :
    Keeps s (State.replayed s n where_ ended) := by
  unfold State.replayed
  try dsimp only
  repeat' first
    | (with_reducible first
      | exact Keeps.refl _ | assumption | apply Leaves.next_of | exact Leaves.fault _ _ | exact Leaves.refused _ _
      | apply Keeps.step (State.herdEvent_keeps ..) | apply Keeps.step (State.bump_keeps ..)
      | apply Keeps.step (Keeps.foldl _ _ _ ?_) | apply Keeps.step (Keeps.foldl1 _ _ _ ?_))
    | (fail_if_no_progress (with_reducible apply Keeps.upd)) | (fail_if_no_progress (with_reducible apply Keeps.updHbm)) | split

theorem State.stackReplays_keeps (s : State) (stack : Nat) (n : Nat) (ended : Bool) :
    Keeps s (State.stackReplays s stack n ended) := by
  unfold State.stackReplays
  try dsimp only
  repeat' first
    | (with_reducible first
      | exact Keeps.refl _ | assumption | apply Leaves.next_of | exact Leaves.fault _ _ | exact Leaves.refused _ _
      | apply Keeps.step (State.replayed_keeps ..) | apply Keeps.step (State.bump_keeps ..)
      | apply Keeps.step (Keeps.foldl _ _ _ ?_) | apply Keeps.step (Keeps.foldl1 _ _ _ ?_))
    | (fail_if_no_progress (with_reducible apply Keeps.upd)) | (fail_if_no_progress (with_reducible apply Keeps.updHbm)) | split

theorem State.meets_keeps (s : State) (env : MemEnv) :
    Keeps s (State.meets s env) := by
  unfold State.meets
  try dsimp only
  repeat' first
    | (with_reducible first
      | exact Keeps.refl _ | assumption | apply Leaves.next_of | exact Leaves.fault _ _ | exact Leaves.refused _ _
      | apply Keeps.step (State.stackReplays_keeps ..) | apply Keeps.step (State.sliceMeets_keeps ..)
      | apply Keeps.step (State.eccRead_keeps ..) | apply Keeps.step (Keeps.foldl _ _ _ ?_)
      | apply Keeps.step (Keeps.foldl1 _ _ _ ?_))
    | (fail_if_no_progress (with_reducible apply Keeps.upd)) | (fail_if_no_progress (with_reducible apply Keeps.updHbm)) | split
    | (intro _; try dsimp only)

theorem State.inside_keeps (s : State) (env : MemEnv) (act : State → State) (hact : ∀ u, Keeps u (act u)) :
    Keeps s (State.inside s env act) := by
  unfold State.inside
  try dsimp only
  repeat' first
    | (with_reducible first
      | exact Keeps.refl _ | assumption | apply Leaves.next_of | exact Leaves.fault _ _ | exact Leaves.refused _ _
      | apply Keeps.step (hact ..) | apply Keeps.step (State.meets_keeps ..) | apply Keeps.step (Keeps.foldl _ _ _ ?_)
      | apply Keeps.step (Keeps.foldl1 _ _ _ ?_))
    | (fail_if_no_progress (with_reducible apply Keeps.upd)) | (fail_if_no_progress (with_reducible apply Keeps.updHbm))

theorem State.within_keeps (s : State) (env : MemEnv) (act : State → State) (hact : ∀ u, Keeps u (act u)) :
    Keeps s (State.within s env act) := by
  unfold State.within
  try dsimp only
  repeat' first
    | (with_reducible first
      | exact Keeps.refl _ | assumption | apply Leaves.next_of | exact Leaves.fault _ _ | exact Leaves.refused _ _
      | apply Keeps.step (hact ..) | apply Keeps.step (State.coherently_keeps _ _ ?_)
      | apply Keeps.step (State.inside_keeps _ _ _ ?_) | apply Keeps.step (Keeps.foldl _ _ _ ?_)
      | apply Keeps.step (Keeps.foldl1 _ _ _ ?_))
    | (fail_if_no_progress (with_reducible apply Keeps.upd)) | (fail_if_no_progress (with_reducible apply Keeps.updHbm)) | split
    | (intro _; try dsimp only)

theorem State.attnWait_keeps (s t : State) (region : Nat) (d : List Byte) (h : s.attnWait region d = some t) : Keeps s t := by
  unfold State.attnWait at h
  dsimp only at h
  split at h
  · cases h
  · split at h
    · cases h; exact State.setChurn_keeps ..
    · cases h; exact Keeps.refl s
    · cases h; exact Keeps.refl s
    · cases h
    · cases h
    · split at h
      · cases h; exact State.boundary_keeps ..
      · cases h
    · split at h
      · cases h; exact State.boundary_keeps ..
      · cases h

theorem State.attnCall_keeps (s : State) (region pass : Nat) (env : MemEnv) (act : State → Nat → Nat → List Byte → State)
    (hact : ∀ u x1 x2 x3, Keeps u (act u x1 x2 x3)) : Keeps s (State.attnCall s region pass env act) := by
  unfold State.attnCall
  dsimp only
  repeat' first
    | (with_reducible first
      | exact Keeps.refl _ | assumption | exact State.attnWait_keeps _ _ _ _ ‹_›
      | apply Keeps.step (hact ..) | apply Keeps.step (State.attnFlush_keeps ..)
      | apply Keeps.step (State.coherent_keeps _ _ _ ?_) | apply Keeps.step (State.attnDone_keeps ..)
      | apply Keeps.step (State.within_keeps _ _ _ ?_) | apply Keeps.step (State.fetched_keeps ..)
      | apply Keeps.step (Keeps.foldl _ _ _ ?_))
    | split
    | (intro _; try dsimp only)

theorem State.spoilRegion_keeps (s : State) (region : Nat) (a : Nat × Nat) :
    Keeps s (State.spoilRegion s region a) := by
  unfold State.spoilRegion
  try dsimp only
  repeat' with_reducible first
    | exact Keeps.refl _ | assumption | apply Leaves.next_of | exact Leaves.fault _ _ | exact Leaves.refused _ _
    | apply Keeps.step (State.drawn_keeps ..) | apply Keeps.step (State.putRegion_keeps ..)

theorem State.spoilMem_keeps (s : State) (a : Nat) (n : Nat) :
    Keeps s (State.spoilMem s a n) := by
  unfold State.spoilMem
  try dsimp only
  repeat' with_reducible first
    | exact Keeps.refl _ | assumption | apply Leaves.next_of | exact Leaves.fault _ _ | exact Leaves.refused _ _
    | apply Keeps.step (State.drawn_keeps ..) | apply Keeps.step (State.putMem_keeps ..)

theorem State.attnStorage_keeps (s : State) (c : Nat) (status : Nat) (a : Nat) :
    Keeps s (State.attnStorage s c status a) := by
  unfold State.attnStorage
  try dsimp only
  repeat' first
    | (with_reducible first
      | exact Keeps.refl _ | assumption | apply Leaves.next_of | exact Leaves.fault _ _ | exact Leaves.refused _ _
      | apply Keeps.step (State.storageEvent_keeps ..) | apply Keeps.step (State.metPoison_keeps ..)
      | apply Keeps.step (Keeps.foldl _ _ _ ?_) | apply Keeps.step (Keeps.foldl1 _ _ _ ?_))
    | (fail_if_no_progress (with_reducible apply Keeps.upd)) | (fail_if_no_progress (with_reducible apply Keeps.updHbm)) | split

theorem State.attnStopped_keeps (s : State) (region : Nat) (c : Nat) (h : Nat) (d : List Byte) (why : Nat × Tally) :
    Keeps s (State.attnStopped s region c h d why) := by
  unfold State.attnStopped
  try dsimp only
  repeat' first
    | (with_reducible first
      | exact Keeps.refl _ | assumption | apply Leaves.next_of | exact Leaves.fault _ _ | exact Leaves.refused _ _
      | apply Keeps.step (State.spoilRegion_keeps ..) | apply Keeps.step (State.spoilMem_keeps ..)
      | apply Keeps.step (State.attnDone_keeps ..) | apply Keeps.step (State.attnStorage_keeps ..)
      | apply Keeps.step (Keeps.foldl _ _ _ ?_) | apply Keeps.step (Keeps.foldl1 _ _ _ ?_))
    | (fail_if_no_progress (with_reducible apply Keeps.upd)) | (fail_if_no_progress (with_reducible apply Keeps.updHbm)) | split
    | (intro _; try dsimp only)

theorem State.auditLate_keeps (s : State) (p : Nat) (slot : Nat) :
    Keeps s (State.auditLate s p slot) := by
  unfold State.auditLate
  try dsimp only
  repeat' first
    | (with_reducible first
      | exact Keeps.refl _ | assumption | apply Leaves.next_of | exact Leaves.fault _ _ | exact Leaves.refused _ _
      | apply Keeps.step (State.bump_keeps ..) | apply Keeps.step (State.setLink_keeps ..)
      | apply Keeps.step (Keeps.foldl _ _ _ ?_) | apply Keeps.step (Keeps.foldl1 _ _ _ ?_))
    | (fail_if_no_progress (with_reducible apply Keeps.upd)) | (fail_if_no_progress (with_reducible apply Keeps.updHbm)) | split

theorem State.badBlock_keeps (s : State) (p : Nat) (slot : Nat) :
    Keeps s (State.badBlock s p slot) := by
  unfold State.badBlock
  try dsimp only
  repeat' first
    | (with_reducible first
      | exact Keeps.refl _ | assumption | apply Leaves.next_of | exact Leaves.fault _ _ | exact Leaves.refused _ _
      | apply Keeps.step (State.bump_keeps ..) | apply Keeps.step (State.setLink_keeps ..)
      | apply Keeps.step (State.linkDown_keeps ..) | apply Keeps.step (State.auditLate_keeps ..)
      | apply Keeps.step (Keeps.foldl _ _ _ ?_) | apply Keeps.step (Keeps.foldl1 _ _ _ ?_))
    | (fail_if_no_progress (with_reducible apply Keeps.upd)) | (fail_if_no_progress (with_reducible apply Keeps.updHbm)) | split

theorem State.badFlit_keeps (s : State) (p : Nat) (at_ : Nat × Nat) (down : State → State) (hdown : ∀ u, Keeps u (down u)) :
    Keeps s (State.badFlit s p at_ down) := by
  unfold State.badFlit
  try dsimp only
  repeat' first
    | (with_reducible first
      | exact Keeps.refl _ | assumption | apply Leaves.next_of | exact Leaves.fault _ _ | exact Leaves.refused _ _
      | apply Keeps.step (hdown ..) | apply Keeps.step (State.bump_keeps ..) | apply Keeps.step (State.setLink_keeps ..)
      | apply Keeps.step (Keeps.foldl _ _ _ ?_) | apply Keeps.step (Keeps.foldl1 _ _ _ ?_))
    | (fail_if_no_progress (with_reducible apply Keeps.upd)) | (fail_if_no_progress (with_reducible apply Keeps.updHbm)) | split

theorem State.evalFloors_keeps (s : State) :
    Keeps s (State.evalFloors s) := by
  unfold State.evalFloors
  try dsimp only
  repeat' with_reducible first
    | exact Keeps.refl _ | assumption | apply Leaves.next_of | exact Leaves.fault _ _ | exact Leaves.refused _ _
    | apply Keeps.step (State.odp_keeps ..)

theorem State.retireCore_keeps (s : State) (core : Nat) :
    Keeps s (State.retireCore s core) := by
  unfold State.retireCore
  try dsimp only
  repeat' first
    | (with_reducible first
      | exact Keeps.refl _ | assumption | apply Leaves.next_of | exact Leaves.fault _ _ | exact Leaves.refused _ _
      | apply Keeps.step (State.bump_keeps ..) | apply Keeps.step (State.odp_keeps ..)
      | apply Keeps.step (State.herdEvent_keeps ..) | apply Keeps.step (State.request_keeps ..)
      | apply Keeps.step (Keeps.foldl _ _ _ ?_) | apply Keeps.step (Keeps.foldl1 _ _ _ ?_))
    | (fail_if_no_progress (with_reducible apply Keeps.upd)) | (fail_if_no_progress (with_reducible apply Keeps.updHbm)) | split
    | (intro _; try dsimp only)

theorem State.retireCores_keeps (s : State) :
    Keeps s (State.retireCores s) := by
  unfold State.retireCores
  try dsimp only
  repeat' first
    | (with_reducible first
      | exact Keeps.refl _ | assumption | apply Leaves.next_of | exact Leaves.fault _ _ | exact Leaves.refused _ _
      | apply Keeps.step (State.retireCore_keeps ..) | apply Keeps.step (Keeps.foldl _ _ _ ?_)
      | apply Keeps.step (Keeps.foldl1 _ _ _ ?_))
    | (fail_if_no_progress (with_reducible apply Keeps.upd)) | (fail_if_no_progress (with_reducible apply Keeps.updHbm)) | split
    | (intro _; try dsimp only)

theorem State.retireStacks_keeps (s : State) :
    Keeps s (State.retireStacks s) := by
  unfold State.retireStacks
  try dsimp only
  repeat' first
    | (with_reducible first
      | exact Keeps.refl _ | assumption | apply Leaves.next_of | exact Leaves.fault _ _ | exact Leaves.refused _ _
      | apply Keeps.step (State.request_keeps ..) | apply Keeps.step (State.herdEvent_keeps ..)
      | apply Keeps.step (State.odp_keeps ..) | apply Keeps.step (Keeps.foldl _ _ _ ?_)
      | apply Keeps.step (Keeps.foldl1 _ _ _ ?_))
    | (fail_if_no_progress (with_reducible apply Keeps.upd)) | (fail_if_no_progress (with_reducible apply Keeps.updHbm)) | split
    | (intro _; try dsimp only)

theorem State.stepBoundary_keeps (s : State) :
    Keeps s (State.stepBoundary s) := by
  unfold State.stepBoundary
  try dsimp only
  repeat' with_reducible first
    | exact Keeps.refl _ | assumption | apply Leaves.next_of | exact Leaves.fault _ _ | exact Leaves.refused _ _
    | apply Keeps.step (State.evalFloors_keeps ..) | apply Keeps.step (State.retireCores_keeps ..)
    | apply Keeps.step (State.retireStacks_keeps ..) | apply Keeps.step (State.odp_keeps ..)
    | apply Keeps.step (State.takeLevel_keeps ..)

theorem State.readDir_keeps (s : State) (c : Nat) :
    Keeps s (State.readDir s c).1 := by
  unfold State.readDir
  try dsimp only
  repeat' first
    | (with_reducible first
      | exact Keeps.refl _ | assumption | apply Leaves.next_of | exact Leaves.fault _ _ | exact Leaves.refused _ _
      | apply Keeps.step (State.routineRead_keeps ..) | apply Keeps.step (Keeps.foldl _ _ _ ?_)
      | apply Keeps.step (Keeps.foldl1 _ _ _ ?_))
    | (fail_if_no_progress (with_reducible apply Keeps.upd)) | (fail_if_no_progress (with_reducible apply Keeps.updHbm)) | split

theorem State.markBoundary_keeps (s : State) (c : Nat) :
    Keeps s (State.markBoundary s c) := by
  unfold State.markBoundary
  try dsimp only
  repeat' with_reducible first
    | exact Keeps.refl _ | assumption | apply Leaves.next_of | exact Leaves.fault _ _ | exact Leaves.refused _ _
    | apply Keeps.step (State.setCtx_keeps ..)

theorem State.checkE_keeps (s : State) (c : Nat) :
    Keeps s (State.checkE s c) := by
  unfold State.checkE
  try dsimp only
  repeat' first
    | (with_reducible first
      | exact Keeps.refl _ | assumption | apply Leaves.next_of | exact Leaves.fault _ _ | exact Leaves.refused _ _
      | apply Keeps.step (State.storageEvent_keeps ..) | apply Keeps.step (State.metPoison_keeps ..)
      | apply Keeps.step (State.setCtx_keeps ..) | apply Keeps.step (Keeps.foldl _ _ _ ?_)
      | apply Keeps.step (Keeps.foldl1 _ _ _ ?_))
    | (fail_if_no_progress (with_reducible apply Keeps.upd)) | (fail_if_no_progress (with_reducible apply Keeps.updHbm)) | split

theorem State.beginStep_keeps (s : State) (c : Nat) (base : Nat) :
    Keeps s (State.beginStep s c base) := by
  unfold State.beginStep
  try dsimp only
  repeat' with_reducible first
    | exact Keeps.refl _ | assumption | apply Leaves.next_of | exact Leaves.fault _ _ | exact Leaves.refused _ _
    | apply Keeps.step (State.stepBoundary_keeps ..) | apply Keeps.step (State.readDir_keeps ..)
    | apply Keeps.step (State.setCtx_keeps ..) | apply Keeps.step (State.markBoundary_keeps ..)
    | apply Keeps.step (State.checkE_keeps ..)

theorem State.swapBanks_keeps (s : State) (ch : Nat) :
    Keeps s (State.swapBanks s ch) := by
  unfold State.swapBanks
  try dsimp only
  repeat' with_reducible first
    | exact Keeps.refl _ | assumption | apply Leaves.next_of | exact Leaves.fault _ _ | exact Leaves.refused _ _
    | apply Keeps.step (State.setChurn_keeps ..)

theorem State.coreFault_keeps (s : State) (core : Nat) (c : Nat) (code : Nat) :
    Keeps s (State.coreFault s core c code) := by
  unfold State.coreFault
  try dsimp only
  repeat' with_reducible first
    | exact Keeps.refl _ | assumption | apply Leaves.next_of | exact Leaves.fault _ _ | exact Leaves.refused _ _
    | apply Keeps.step (State.setFile_keeps ..) | apply Keeps.step (State.odp_keeps ..) | apply Keeps.step (State.bump_keeps ..)
    | apply Keeps.step (State.storageEvent_keeps ..) | apply Keeps.step (State.herdEvent_keeps ..)

theorem State.coreEvent_keeps (s : State) (core : Nat) (word : Nat) :
    Keeps s (State.coreEvent s core word) := by
  unfold State.coreEvent
  try dsimp only
  repeat' first
    | (with_reducible first
      | exact Keeps.refl _ | assumption | apply Leaves.next_of | exact Leaves.fault _ _ | exact Leaves.refused _ _
      | apply Keeps.step (Keeps.foldl _ _ _ ?_) | apply Keeps.step (Keeps.foldl1 _ _ _ ?_))
    | (fail_if_no_progress (with_reducible apply Keeps.upd))

theorem State.operandParity_keeps (s : State) (ch : Nat) (parity : Option (BitVec 12)) :
    Keeps s (State.operandParity s ch parity) := by
  unfold State.operandParity
  try dsimp only
  repeat' first
    | (with_reducible first
      | exact Keeps.refl _ | assumption | apply Leaves.next_of | exact Leaves.fault _ _ | exact Leaves.refused _ _
      | apply Keeps.step (State.coreFault_keeps ..) | apply Keeps.step (State.coreEvent_keeps ..)
      | apply Keeps.step (State.replayed_keeps ..) | apply Keeps.step (Keeps.foldl _ _ _ ?_)
      | apply Keeps.step (Keeps.foldl1 _ _ _ ?_))
    | (fail_if_no_progress (with_reducible apply Keeps.upd)) | (fail_if_no_progress (with_reducible apply Keeps.updHbm)) | split

theorem State.dropHead_keeps (s : State) (ch : Nat) :
    Keeps s (State.dropHead s ch) := by
  unfold State.dropHead
  try dsimp only
  repeat' with_reducible first
    | exact Keeps.refl _ | assumption | apply Leaves.next_of | exact Leaves.fault _ _ | exact Leaves.refused _ _
    | apply Keeps.step (State.setChurn_keeps ..)

theorem State.beginStream_keeps (s : State) (ch : Nat) (cmd : List Byte) (parity : Option (BitVec 12)) :
    Keeps s (State.beginStream s ch cmd parity).1 := by
  unfold State.beginStream
  try dsimp only
  repeat' first
    | (with_reducible first
      | exact Keeps.refl _ | assumption | apply Leaves.next_of | exact Leaves.fault _ _ | exact Leaves.refused _ _
      | apply Keeps.step (State.swapBanks_keeps ..) | apply Keeps.step (State.operandParity_keeps ..)
      | apply Keeps.step (State.dropHead_keeps ..) | apply Keeps.step (Keeps.foldl _ _ _ ?_)
      | apply Keeps.step (Keeps.foldl1 _ _ _ ?_))
    | (fail_if_no_progress (with_reducible apply Keeps.upd)) | (fail_if_no_progress (with_reducible apply Keeps.updHbm)) | split

theorem State.emitFlit_keeps (s : State) (p : Nat) (bytes : List Byte) :
    Keeps s (State.emitFlit s p bytes) := by
  unfold State.emitFlit
  try dsimp only
  repeat' first
    | (with_reducible first
      | exact Keeps.refl _ | assumption | apply Leaves.next_of | exact Leaves.fault _ _ | exact Leaves.refused _ _
      | apply Keeps.step (State.setLink_keeps ..) | apply Keeps.step (Keeps.foldl _ _ _ ?_)
      | apply Keeps.step (Keeps.foldl1 _ _ _ ?_))
    | (fail_if_no_progress (with_reducible apply Keeps.upd))

theorem State.congAdd_keeps (s : State) (p : Nat) (vc : Nat) (f : Nat) (n : Nat) :
    Keeps s (State.congAdd s p vc f n) := by
  unfold State.congAdd
  try dsimp only
  repeat' first
    | (with_reducible first
      | exact Keeps.refl _ | assumption | apply Leaves.next_of | exact Leaves.fault _ _ | exact Leaves.refused _ _
      | apply Keeps.step (Keeps.foldl _ _ _ ?_) | apply Keeps.step (Keeps.foldl1 _ _ _ ?_))
    | (fail_if_no_progress (with_reducible apply Keeps.upd))

theorem State.sendFlit_keeps (s : State) (p : Nat) (vc : Nat) (bytes : List Byte) :
    Keeps s (State.sendFlit s p vc bytes) := by
  unfold State.sendFlit
  try dsimp only
  repeat' with_reducible first
    | exact Keeps.refl _ | assumption | apply Leaves.next_of | exact Leaves.fault _ _ | exact Leaves.refused _ _
    | apply Keeps.step (State.emitFlit_keeps ..) | apply Keeps.step (State.congAdd_keeps ..)
    | apply Keeps.step (State.setLink_keeps ..)

theorem State.setHeld_keeps (s : State) (h : Held) :
    Keeps s (State.setHeld s h) := by
  unfold State.setHeld
  try dsimp only
  repeat' first
    | (with_reducible first
      | exact Keeps.refl _ | assumption | apply Leaves.next_of | exact Leaves.fault _ _ | exact Leaves.refused _ _
      | apply Keeps.step (Keeps.foldl _ _ _ ?_) | apply Keeps.step (Keeps.foldl1 _ _ _ ?_))
    | (fail_if_no_progress (with_reducible apply Keeps.upd))

theorem State.pump_keeps (s : State) (h : Held) :
    Keeps s (State.pump s h) := by
  unfold State.pump
  try dsimp only
  repeat' first
    | (with_reducible first
      | exact Keeps.refl _ | assumption | apply Leaves.next_of | exact Leaves.fault _ _ | exact Leaves.refused _ _
      | apply Keeps.step (State.sendFlit_keeps ..) | apply Keeps.step (State.freeFlits_keeps ..)
      | apply Keeps.step (State.dropHeld_keeps ..) | apply Keeps.step (State.setHeld_keeps ..)
      | apply Keeps.step (Keeps.foldl _ _ _ ?_) | apply Keeps.step (Keeps.foldl1 _ _ _ ?_))
    | (fail_if_no_progress (with_reducible apply Keeps.upd)) | (fail_if_no_progress (with_reducible apply Keeps.updHbm)) | split
    | (intro _; try dsimp only)

theorem State.dropOrKeep_keeps (s : State) (h : Held) :
    Keeps s (State.dropOrKeep s h) := by
  unfold State.dropOrKeep
  try dsimp only
  repeat' first
    | (with_reducible first
      | exact Keeps.refl _ | assumption | apply Leaves.next_of | exact Leaves.fault _ _ | exact Leaves.refused _ _
      | apply Keeps.step (State.dropPkt_keeps ..) | apply Keeps.step (Keeps.foldl _ _ _ ?_)
      | apply Keeps.step (Keeps.foldl1 _ _ _ ?_))
    | (fail_if_no_progress (with_reducible apply Keeps.upd)) | (fail_if_no_progress (with_reducible apply Keeps.updHbm)) | split

theorem State.setEntry_keeps (s : State) (i : Nat) (e : Reasm) :
    Keeps s (State.setEntry s i e) := by
  unfold State.setEntry
  try dsimp only
  repeat' first
    | (with_reducible first
      | exact Keeps.refl _ | assumption | apply Leaves.next_of | exact Leaves.fault _ _ | exact Leaves.refused _ _
      | apply Keeps.step (Keeps.foldl _ _ _ ?_) | apply Keeps.step (Keeps.foldl1 _ _ _ ?_))
    | (fail_if_no_progress (with_reducible apply Keeps.upd))

theorem State.putLoc_keeps (s : State) (b : Byte) (a2 : Loc) :
    Keeps s (State.putLoc s b a2) := by
  unfold State.putLoc
  try dsimp only
  repeat' first
    | (with_reducible first
      | exact Keeps.refl _ | assumption | apply Leaves.next_of | exact Leaves.fault _ _ | exact Leaves.refused _ _
      | apply Keeps.step (State.putByte_keeps ..) | apply Keeps.step (State.putStore_keeps ..)
      | apply Keeps.step (Keeps.foldl _ _ _ ?_) | apply Keeps.step (Keeps.foldl1 _ _ _ ?_))
    | (fail_if_no_progress (with_reducible apply Keeps.upd)) | (fail_if_no_progress (with_reducible apply Keeps.updHbm)) | split

theorem State.rxWrite_keeps (s : State) (p : Packet) :
    Keeps s (State.rxWrite s p) := by
  unfold State.rxWrite
  try dsimp only
  repeat' first
    | (with_reducible first
      | exact Keeps.refl _ | assumption | apply Leaves.next_of | exact Leaves.fault _ _ | exact Leaves.refused _ _
      | apply Keeps.step (State.writeRun_keeps ..) | apply Keeps.step (State.storageEvent_keeps ..)
      | apply Keeps.step (State.putLoc_keeps ..) | apply Keeps.step (Keeps.foldl _ _ _ ?_)
      | apply Keeps.step (Keeps.foldl1 _ _ _ ?_))
    | (fail_if_no_progress (with_reducible apply Keeps.upd)) | (fail_if_no_progress (with_reducible apply Keeps.updHbm)) | split
    | (intro _; try dsimp only)

theorem State.eject_keeps (s : State) (p : Packet) :
    Keeps s (State.eject s p) := by
  unfold State.eject
  try dsimp only
  repeat' first
    | (with_reducible first
      | exact Keeps.refl _ | assumption | apply Leaves.next_of | exact Leaves.fault _ _ | exact Leaves.refused _ _
      | apply Keeps.step (State.pushReturn_keeps ..) | apply Keeps.step (State.setEntry_keeps ..)
      | apply Keeps.step (State.bump_keeps ..) | apply Keeps.step (State.rxWrite_keeps ..)
      | apply Keeps.step (Keeps.foldl _ _ _ ?_) | apply Keeps.step (Keeps.foldl1 _ _ _ ?_))
    | (fail_if_no_progress (with_reducible apply Keeps.upd)) | (fail_if_no_progress (with_reducible apply Keeps.updHbm)) | split

theorem State.settleHeld_keeps (s : State) (id : Nat) :
    Keeps s (State.settleHeld s id) := by
  unfold State.settleHeld
  try dsimp only
  repeat' first
    | (with_reducible first
      | exact Keeps.refl _ | assumption | apply Leaves.next_of | exact Leaves.fault _ _ | exact Leaves.refused _ _
      | apply Keeps.step (State.pump_keeps ..) | apply Keeps.step (State.dropOrKeep_keeps ..)
      | apply Keeps.step (State.dropHeld_keeps ..) | apply Keeps.step (State.snoopLines_keeps ..)
      | apply Keeps.step (State.returnArrives_keeps ..) | apply Keeps.step (State.eject_keeps ..)
      | apply Keeps.step (State.setHeld_keeps ..) | apply Keeps.step (Keeps.foldl _ _ _ ?_)
      | apply Keeps.step (Keeps.foldl1 _ _ _ ?_))
    | (fail_if_no_progress (with_reducible apply Keeps.upd)) | (fail_if_no_progress (with_reducible apply Keeps.updHbm)) | split

theorem State.congMax_keeps (s : State) (p : Nat) (vc : Nat) (f : Nat) (n : Nat) :
    Keeps s (State.congMax s p vc f n) := by
  unfold State.congMax
  try dsimp only
  repeat' first
    | (with_reducible first
      | exact Keeps.refl _ | assumption | apply Leaves.next_of | exact Leaves.fault _ _ | exact Leaves.refused _ _
      | apply Keeps.step (Keeps.foldl _ _ _ ?_) | apply Keeps.step (Keeps.foldl1 _ _ _ ?_))
    | (fail_if_no_progress (with_reducible apply Keeps.upd))

theorem State.sendHead_keeps (s : State) (h : Held) (p : Nat) (esc : Bool) :
    Keeps s (State.sendHead s h p esc) := by
  unfold State.sendHead
  try dsimp only
  repeat' first
    | (with_reducible first
      | exact Keeps.refl _ | assumption | apply Leaves.next_of | exact Leaves.fault _ _ | exact Leaves.refused _ _
      | apply Keeps.step (State.congMax_keeps ..) | apply Keeps.step (State.setLink_keeps ..)
      | apply Keeps.step (State.congAdd_keeps ..) | apply Keeps.step (State.pump_keeps ..)
      | apply Keeps.step (State.setHeld_keeps ..) | apply Keeps.step (Keeps.foldl _ _ _ ?_)
      | apply Keeps.step (Keeps.foldl1 _ _ _ ?_))
    | (fail_if_no_progress (with_reducible apply Keeps.upd)) | (fail_if_no_progress (with_reducible apply Keeps.updHbm)) | split

theorem State.serve_keeps (a0 : Nat) (a1 : State) :
    Keeps a1 (State.serve a0 a1) := by
  induction a0 generalizing a1 with
  | zero => unfold State.serve; exact Keeps.refl _
  | succ n ih =>
    unfold State.serve
    try dsimp only
    repeat' first
      | (with_reducible first
        | exact Keeps.refl _ | assumption | apply Leaves.next_of | exact Leaves.fault _ _ | exact Leaves.refused _ _
        | apply Keeps.step (State.sendHead_keeps ..) | apply Keeps.step (Keeps.foldl _ _ _ ?_)
        | apply Keeps.step (Keeps.foldl1 _ _ _ ?_) | apply Keeps.step (ih ..))
      | (fail_if_no_progress (with_reducible apply Keeps.upd)) | (fail_if_no_progress (with_reducible apply Keeps.updHbm))
      | split

theorem State.route_keeps (s : State) (id : Nat) :
    Keeps s (State.route s id) := by
  unfold State.route
  try dsimp only
  repeat' with_reducible first
    | exact Keeps.refl _ | assumption | apply Leaves.next_of | exact Leaves.fault _ _ | exact Leaves.refused _ _
    | apply Keeps.step (State.settleHeld_keeps ..) | apply Keeps.step (State.serve_keeps ..)

theorem State.bodyFlit_keeps (s : State) (p : Nat) (f : RxFlit) (c : RxCur) :
    Keeps s (State.bodyFlit s p f c) := by
  unfold State.bodyFlit
  try dsimp only
  repeat' first
    | (with_reducible first
      | exact Keeps.refl _ | assumption | apply Leaves.next_of | exact Leaves.fault _ _ | exact Leaves.refused _ _
      | apply Keeps.step (State.setLink_keeps ..) | apply Keeps.step (State.route_keeps ..)
      | apply Keeps.step (State.setHeld_keeps ..) | apply Keeps.step (Keeps.foldl _ _ _ ?_)
      | apply Keeps.step (Keeps.foldl1 _ _ _ ?_))
    | (fail_if_no_progress (with_reducible apply Keeps.upd)) | (fail_if_no_progress (with_reducible apply Keeps.updHbm)) | split

theorem State.selectIr_keeps (s : State) (ir : Nat) :
    Keeps s (State.selectIr s ir) := by
  unfold State.selectIr
  try dsimp only
  repeat' first
    | (with_reducible first
      | exact Keeps.refl _ | assumption | apply Leaves.next_of | exact Leaves.fault _ _ | exact Leaves.refused _ _
      | apply Keeps.step (Keeps.foldl _ _ _ ?_) | apply Keeps.step (Keeps.foldl1 _ _ _ ?_))
    | (fail_if_no_progress (with_reducible apply Keeps.upd))

theorem State.bypassed_keeps (s : State) :
    Keeps s (State.bypassed s) := by
  unfold State.bypassed
  try dsimp only
  repeat' with_reducible first
    | exact Keeps.refl _ | assumption | apply Leaves.next_of | exact Leaves.fault _ _ | exact Leaves.refused _ _
    | apply Keeps.step (State.emit_keeps ..) | apply Keeps.step (State.selectIr_keeps ..)

theorem State.calAgain_keeps (s : State) (ch : Nat) :
    Keeps s (State.calAgain s ch) := by
  unfold State.calAgain
  try dsimp only
  repeat' first
    | (with_reducible first
      | exact Keeps.refl _ | assumption | apply Leaves.next_of | exact Leaves.fault _ _ | exact Leaves.refused _ _
      | apply Keeps.step (State.calibrate_keeps ..) | apply Keeps.step (State.setChurn_keeps ..)
      | apply Keeps.step (Keeps.foldl _ _ _ ?_) | apply Keeps.step (Keeps.foldl1 _ _ _ ?_))
    | (fail_if_no_progress (with_reducible apply Keeps.upd)) | (fail_if_no_progress (with_reducible apply Keeps.updHbm)) | split

theorem State.calsDone_keeps (s : State) (ch : Nat) (status : Nat) :
    Keeps s (State.calsDone s ch status) := by
  unfold State.calsDone
  try dsimp only
  repeat' first
    | (with_reducible first
      | exact Keeps.refl _ | assumption | apply Leaves.next_of | exact Leaves.fault _ _ | exact Leaves.refused _ _
      | apply Keeps.step (State.setChurn_keeps ..) | apply Keeps.step (State.chComplete_keeps ..)
      | apply Keeps.step (State.signal_keeps ..) | apply Keeps.step (Keeps.foldl _ _ _ ?_)
      | apply Keeps.step (Keeps.foldl1 _ _ _ ?_))
    | (fail_if_no_progress (with_reducible apply Keeps.upd)) | (fail_if_no_progress (with_reducible apply Keeps.updHbm)) | split
    | (intro _; try dsimp only)

theorem State.cellarTake_keeps (s : State) (c : Nat) (most : Int) (peak : Nat) (spill : Nat) (wrong : Nat) :
    Keeps s (State.cellarTake s c most peak spill wrong) := by
  unfold State.cellarTake
  try dsimp only
  repeat' first
    | (with_reducible first
      | exact Keeps.refl _ | assumption | apply Leaves.next_of | exact Leaves.fault _ _ | exact Leaves.refused _ _
      | apply Keeps.step (Keeps.foldl _ _ _ ?_) | apply Keeps.step (Keeps.foldl1 _ _ _ ?_))
    | (fail_if_no_progress (with_reducible apply Keeps.upd))

theorem State.cellarMark_keeps (s : State) (c : Nat) (y : Cellar) :
    Keeps s (State.cellarMark s c y) := by
  unfold State.cellarMark
  try dsimp only
  repeat' with_reducible first
    | exact Keeps.refl _ | assumption | apply Leaves.next_of | exact Leaves.fault _ _ | exact Leaves.refused _ _
    | apply Keeps.step (State.cellarTake_keeps ..) | apply Keeps.step (State.herdEvent_keeps ..)
    | apply Keeps.step (State.bump_keeps ..)

theorem State.cellarWrong_keeps (s : State) (c : Nat) (y : Cellar) :
    Keeps s (State.cellarWrong s c y) := by
  unfold State.cellarWrong
  try dsimp only
  repeat' first
    | (with_reducible first
      | exact Keeps.refl _ | assumption | apply Leaves.next_of | exact Leaves.fault _ _ | exact Leaves.refused _ _
      | apply Keeps.step (State.herdEvent_keeps ..) | apply Keeps.step (State.cellarTake_keeps ..)
      | apply Keeps.step (Keeps.foldl _ _ _ ?_) | apply Keeps.step (Keeps.foldl1 _ _ _ ?_))
    | (fail_if_no_progress (with_reducible apply Keeps.upd)) | (fail_if_no_progress (with_reducible apply Keeps.updHbm)) | split

theorem State.chIdle_keeps (s : State) (ch : Nat) :
    Keeps s (State.chIdle s ch) := by
  unfold State.chIdle
  try dsimp only
  repeat' first
    | (with_reducible first
      | exact Keeps.refl _ | assumption | apply Leaves.next_of | exact Leaves.fault _ _ | exact Leaves.refused _ _
      | apply Keeps.step (State.setChurn_keeps ..) | apply Keeps.step (Keeps.foldl _ _ _ ?_)
      | apply Keeps.step (Keeps.foldl1 _ _ _ ?_))
    | (fail_if_no_progress (with_reducible apply Keeps.upd)) | (fail_if_no_progress (with_reducible apply Keeps.updHbm)) | split

theorem State.chPump_keeps (s : State) (ch : Nat) (a2 : Nat) :
    Keeps s (State.chPump s ch a2) := by
  induction a2 generalizing s ch with
  | zero => unfold State.chPump; exact Keeps.refl _
  | succ n ih =>
    unfold State.chPump
    try dsimp only
    repeat' first
      | (with_reducible first
        | exact Keeps.refl _ | assumption | apply Leaves.next_of | exact Leaves.fault _ _ | exact Leaves.refused _ _
        | apply Keeps.step (State.chComplete_keeps ..) | apply Keeps.step (State.setChurn_keeps ..)
        | apply Keeps.step (Keeps.foldl _ _ _ ?_) | apply Keeps.step (Keeps.foldl1 _ _ _ ?_) | apply Keeps.step (ih ..))
      | (fail_if_no_progress (with_reducible apply Keeps.upd)) | (fail_if_no_progress (with_reducible apply Keeps.updHbm))
      | split

theorem State.chRefill_keeps (s : State) (ch : Nat) :
    Keeps s (State.chRefill s ch) := by
  unfold State.chRefill
  try dsimp only
  repeat' first
    | (with_reducible first
      | exact Keeps.refl _ | assumption | apply Leaves.next_of | exact Leaves.fault _ _ | exact Leaves.refused _ _
      | apply Keeps.step (State.chSignal_keeps ..) | apply Keeps.step (State.setChurn_keeps ..)
      | apply Keeps.step (Keeps.foldl _ _ _ ?_) | apply Keeps.step (Keeps.foldl1 _ _ _ ?_))
    | (fail_if_no_progress (with_reducible apply Keeps.upd)) | (fail_if_no_progress (with_reducible apply Keeps.updHbm)) | split

theorem State.chSettle_keeps (s : State) (ch : Nat) :
    Keeps s (State.chSettle s ch) := by
  unfold State.chSettle
  try dsimp only
  repeat' with_reducible first
    | exact Keeps.refl _ | assumption | apply Leaves.next_of | exact Leaves.fault _ _ | exact Leaves.refused _ _
    | apply Keeps.step (State.chPump_keeps ..)

theorem State.relaunched_keeps (s : State) (gain : Nat) (lost : Nat) :
    Keeps s (State.relaunched s gain lost) := by
  unfold State.relaunched
  try dsimp only
  repeat' with_reducible first
    | exact Keeps.refl _ | assumption | apply Leaves.next_of | exact Leaves.fault _ _ | exact Leaves.refused _ _
    | apply Keeps.step (State.bump_keeps ..)

theorem State.countDrift_keeps (s : State) (old : ChExec) (new : ChExec) :
    Keeps s (State.countDrift s old new) := by
  unfold State.countDrift
  try dsimp only
  repeat' with_reducible first
    | exact Keeps.refl _ | assumption | apply Leaves.next_of | exact Leaves.fault _ _ | exact Leaves.refused _ _
    | apply Keeps.step (State.bump_keeps ..)

theorem State.launchOne_keeps (s : State) (ch : Nat) (i : Nat) (e : ChExec) :
    Keeps s (State.launchOne s ch i e) := by
  unfold State.launchOne
  try dsimp only
  repeat' with_reducible first
    | exact Keeps.refl _ | assumption | apply Leaves.next_of | exact Leaves.fault _ _ | exact Leaves.refused _ _
    | apply Keeps.step (State.relaunched_keeps ..) | apply Keeps.step (State.countDrift_keeps ..)
    | apply Keeps.step (State.setChurn_keeps ..)

theorem State.launch_keeps (s : State) (ch : Nat) (a2 : Nat) :
    Keeps s (State.launch s ch a2) := by
  induction a2 generalizing s ch with
  | zero => unfold State.launch; exact Keeps.refl _
  | succ n ih =>
    unfold State.launch
    try dsimp only
    repeat' first
      | (with_reducible first
        | exact Keeps.refl _ | assumption | apply Leaves.next_of | exact Leaves.fault _ _ | exact Leaves.refused _ _
        | apply Keeps.step (State.launchOne_keeps ..) | apply Keeps.step (Keeps.foldl _ _ _ ?_)
        | apply Keeps.step (Keeps.foldl1 _ _ _ ?_) | apply Keeps.step (ih ..))
      | (fail_if_no_progress (with_reducible apply Keeps.upd)) | (fail_if_no_progress (with_reducible apply Keeps.updHbm))
      | split

theorem State.streamEvents_keeps (s : State) (e : ChExec) :
    Keeps s (State.streamEvents s e) := by
  unfold State.streamEvents
  try dsimp only
  repeat' first
    | (with_reducible first
      | exact Keeps.refl _ | assumption | apply Leaves.next_of | exact Leaves.fault _ _ | exact Leaves.refused _ _
      | apply Keeps.step (State.numericEvent_keeps ..) | apply Keeps.step (Keeps.foldl _ _ _ ?_)
      | apply Keeps.step (Keeps.foldl1 _ _ _ ?_))
    | (fail_if_no_progress (with_reducible apply Keeps.upd)) | (fail_if_no_progress (with_reducible apply Keeps.updHbm)) | split

theorem State.streamDone_keeps (s : State) (ch : Nat) (e : ChExec) :
    Keeps s (State.streamDone s ch e) := by
  unfold State.streamDone
  try dsimp only
  repeat' first
    | (with_reducible first
      | exact Keeps.refl _ | assumption | apply Leaves.next_of | exact Leaves.fault _ _ | exact Leaves.refused _ _
      | apply Keeps.step (State.bump_keeps ..) | apply Keeps.step (State.chComplete_keeps ..)
      | apply Keeps.step (State.streamEvents_keeps ..) | apply Keeps.step (Keeps.foldl _ _ _ ?_)
      | apply Keeps.step (Keeps.foldl1 _ _ _ ?_))
    | (fail_if_no_progress (with_reducible apply Keeps.upd)) | (fail_if_no_progress (with_reducible apply Keeps.updHbm)) | split

theorem State.finishStreams_keeps (s : State) (ch : Nat) (a2 : Nat) :
    Keeps s (State.finishStreams s ch a2) := by
  induction a2 generalizing s ch with
  | zero => unfold State.finishStreams; exact Keeps.refl _
  | succ n ih =>
    unfold State.finishStreams
    try dsimp only
    repeat' first
      | (with_reducible first
        | exact Keeps.refl _ | assumption | apply Leaves.next_of | exact Leaves.fault _ _ | exact Leaves.refused _ _
        | apply Keeps.step (State.streamDone_keeps ..) | apply Keeps.step (State.setChurn_keeps ..)
        | apply Keeps.step (Keeps.foldl _ _ _ ?_) | apply Keeps.step (Keeps.foldl1 _ _ _ ?_) | apply Keeps.step (ih ..))
      | (fail_if_no_progress (with_reducible apply Keeps.upd)) | (fail_if_no_progress (with_reducible apply Keeps.updHbm))
      | split

theorem State.chSettleAll_keeps (s : State) (ch : Nat) :
    Keeps s (State.chSettleAll s ch) := by
  unfold State.chSettleAll
  try dsimp only
  repeat' with_reducible first
    | exact Keeps.refl _ | assumption | apply Leaves.next_of | exact Leaves.fault _ _ | exact Leaves.refused _ _
    | apply Keeps.step (State.chSettle_keeps ..) | apply Keeps.step (State.chIdle_keeps ..)
    | apply Keeps.step (State.finishStreams_keeps ..)

theorem State.churnsOff_keeps (s : State) :
    Keeps s (State.churnsOff s) := by
  unfold State.churnsOff
  try dsimp only
  repeat' first
    | (with_reducible first
      | exact Keeps.refl _ | assumption | apply Leaves.next_of | exact Leaves.fault _ _ | exact Leaves.refused _ _
      | apply Keeps.step (Keeps.foldl _ _ _ ?_) | apply Keeps.step (Keeps.foldl1 _ _ _ ?_))
    | (fail_if_no_progress (with_reducible apply Keeps.upd))

theorem State.closeSessions_keeps (s : State) :
    Keeps s (State.closeSessions s) := by
  unfold State.closeSessions
  try dsimp only
  repeat' first
    | (with_reducible first
      | exact Keeps.refl _ | assumption | apply Leaves.next_of | exact Leaves.fault _ _ | exact Leaves.refused _ _
      | apply Keeps.step (Keeps.foldl _ _ _ ?_) | apply Keeps.step (Keeps.foldl1 _ _ _ ?_))
    | (fail_if_no_progress (with_reducible apply Keeps.upd))

theorem State.herdNew_keeps (s : State) (r : HerdRec) :
    Keeps s (State.herdNew s r) := by
  unfold State.herdNew
  try dsimp only
  repeat' first
    | (with_reducible first
      | exact Keeps.refl _ | assumption | apply Leaves.next_of | exact Leaves.fault _ _ | exact Leaves.refused _ _
      | apply Keeps.step (State.bump_keeps ..) | apply Keeps.step (Keeps.foldl _ _ _ ?_)
      | apply Keeps.step (Keeps.foldl1 _ _ _ ?_))
    | (fail_if_no_progress (with_reducible apply Keeps.upd)) | (fail_if_no_progress (with_reducible apply Keeps.updHbm)) | split

theorem State.herdWrite_keeps (s : State) (r : HerdRec) :
    Keeps s (State.herdWrite s r) := by
  unfold State.herdWrite
  try dsimp only
  repeat' first
    | (with_reducible first
      | exact Keeps.refl _ | assumption | apply Leaves.next_of | exact Leaves.fault _ _ | exact Leaves.refused _ _
      | apply Keeps.step (State.herdNew_keeps ..) | apply Keeps.step (Keeps.foldl _ _ _ ?_)
      | apply Keeps.step (Keeps.foldl1 _ _ _ ?_))
    | (fail_if_no_progress (with_reducible apply Keeps.upd)) | (fail_if_no_progress (with_reducible apply Keeps.updHbm)) | split

theorem State.herdNow_keeps (s : State) (kind : Nat) (inst : Nat) (q : Int) (arg : Nat) :
    Keeps s (State.herdNow s kind inst q arg) := by
  unfold State.herdNow
  try dsimp only
  repeat' with_reducible first
    | exact Keeps.refl _ | assumption | apply Leaves.next_of | exact Leaves.fault _ _ | exact Leaves.refused _ _
    | apply Keeps.step (State.herdWrite_keeps ..)

theorem State.noteBroken_keeps (s : State) :
    Keeps s (State.noteBroken s) := by
  unfold State.noteBroken
  try dsimp only
  repeat' first
    | (with_reducible first
      | exact Keeps.refl _ | assumption | apply Leaves.next_of | exact Leaves.fault _ _ | exact Leaves.refused _ _
      | apply Keeps.step (State.herdNow_keeps ..) | apply Keeps.step (Keeps.foldl _ _ _ ?_)
      | apply Keeps.step (Keeps.foldl1 _ _ _ ?_))
    | (fail_if_no_progress (with_reducible apply Keeps.upd)) | (fail_if_no_progress (with_reducible apply Keeps.updHbm)) | split

theorem State.coldBoot_keeps (s : State) : Keeps s s.coldBoot := by
  unfold State.coldBoot
  refine Keeps.step (State.noteBroken_keeps ..) ?_
  split
  · refine Keeps.step (State.herdEvent_keeps ..) ?_
    exact Keeps.wipe (Keeps.refl s) rfl rfl
  · exact Keeps.wipe (Keeps.refl s) rfl rfl

theorem State.collRejected_keeps (s : State) (c : Nat) (pos : Nat) (ma : Nat) (d : List Byte) (st : Nat) :
    Keeps s (State.collRejected s c pos ma d st) := by
  unfold State.collRejected
  try dsimp only
  repeat' first
    | (with_reducible first
      | exact Keeps.refl _ | assumption | apply Leaves.next_of | exact Leaves.fault _ _ | exact Leaves.refused _ _
      | apply Keeps.step (State.bump_keeps ..) | apply Keeps.step (State.routineWrite_keeps ..)
      | apply Keeps.step (State.signal_keeps ..) | apply Keeps.step (State.routineDone_keeps ..)
      | apply Keeps.step (Keeps.foldl _ _ _ ?_) | apply Keeps.step (Keeps.foldl1 _ _ _ ?_))
    | (fail_if_no_progress (with_reducible apply Keeps.upd)) | (fail_if_no_progress (with_reducible apply Keeps.updHbm)) | split

theorem State.collSettle_keeps (s : State) (t : CollTask) :
    Keeps s (State.collSettle s t) := by
  unfold State.collSettle
  try dsimp only
  repeat' first
    | (with_reducible first
      | exact Keeps.refl _ | assumption | apply Leaves.next_of | exact Leaves.fault _ _ | exact Leaves.refused _ _
      | apply Keeps.step (State.collAgreed_keeps ..) | apply Keeps.step (State.exchange_keeps ..)
      | apply Keeps.step (State.setColl_keeps ..) | apply Keeps.step (Keeps.foldl _ _ _ ?_)
      | apply Keeps.step (Keeps.foldl1 _ _ _ ?_))
    | (fail_if_no_progress (with_reducible apply Keeps.upd)) | (fail_if_no_progress (with_reducible apply Keeps.updHbm)) | split

theorem State.congSample_keeps (s : State) :
    Keeps s (State.congSample s) := by
  unfold State.congSample
  try dsimp only
  repeat' first
    | (with_reducible first
      | exact Keeps.refl _ | assumption | apply Leaves.next_of | exact Leaves.fault _ _ | exact Leaves.refused _ _
      | apply Keeps.step (State.congAdd_keeps ..) | apply Keeps.step (Keeps.foldl _ _ _ ?_)
      | apply Keeps.step (Keeps.foldl1 _ _ _ ?_))
    | (fail_if_no_progress (with_reducible apply Keeps.upd)) | (fail_if_no_progress (with_reducible apply Keeps.updHbm)) | split
    | (intro _; try dsimp only)

theorem State.sendBeacons_keeps (s : State) (c : Nat) :
    Keeps s (State.sendBeacons s c) := by
  unfold State.sendBeacons
  try dsimp only
  repeat' first
    | (with_reducible first
      | exact Keeps.refl _ | assumption | apply Leaves.next_of | exact Leaves.fault _ _ | exact Leaves.refused _ _
      | apply Keeps.step (State.odp_keeps ..) | apply Keeps.step (Keeps.foldl _ _ _ ?_)
      | apply Keeps.step (Keeps.foldl1 _ _ _ ?_))
    | (fail_if_no_progress (with_reducible apply Keeps.upd)) | (fail_if_no_progress (with_reducible apply Keeps.updHbm)) | split

theorem State.contextBoundary_keeps (s : State) (c : Nat) :
    Keeps s (State.contextBoundary s c) := by
  unfold State.contextBoundary
  try dsimp only
  repeat' first
    | (with_reducible first
      | exact Keeps.refl _ | assumption | apply Leaves.next_of | exact Leaves.fault _ _ | exact Leaves.refused _ _
      | apply Keeps.step (State.setCtx_keeps ..) | apply Keeps.step (State.markBoundary_keeps ..)
      | apply Keeps.step (State.sendBeacons_keeps ..) | apply Keeps.step (Keeps.foldl _ _ _ ?_)
      | apply Keeps.step (Keeps.foldl1 _ _ _ ?_))
    | (fail_if_no_progress (with_reducible apply Keeps.upd)) | (fail_if_no_progress (with_reducible apply Keeps.updHbm)) | split

theorem State.countFrames_keeps (s : State) (b : CtlBlock) :
    Keeps s (State.countFrames s b) := by
  unfold State.countFrames
  try dsimp only
  repeat' with_reducible first
    | exact Keeps.refl _ | assumption | apply Leaves.next_of | exact Leaves.fault _ _ | exact Leaves.refused _ _
    | apply Keeps.step (State.bump_keeps ..)

theorem State.dbgDone_keeps (s : State) (core : Nat) (c : Nat) (st : Nat) (result : Nat) :
    Keeps s (State.dbgDone s core c st result) := by
  unfold State.dbgDone
  try dsimp only
  repeat' first
    | (with_reducible first
      | exact Keeps.refl _ | assumption | apply Leaves.next_of | exact Leaves.fault _ _ | exact Leaves.refused _ _
      | apply Keeps.step (Keeps.foldl _ _ _ ?_) | apply Keeps.step (Keeps.foldl1 _ _ _ ?_))
    | (fail_if_no_progress (with_reducible apply Keeps.upd))

theorem State.dbgAdvance_keeps (s : State) :
    Keeps s (State.dbgAdvance s) := by
  unfold State.dbgAdvance
  try dsimp only
  repeat' first
    | (with_reducible first
      | exact Keeps.refl _ | assumption | apply Leaves.next_of | exact Leaves.fault _ _ | exact Leaves.refused _ _
      | apply Keeps.step (Keeps.foldl _ _ _ ?_) | apply Keeps.step (Keeps.foldl1 _ _ _ ?_))
    | (fail_if_no_progress (with_reducible apply Keeps.upd))

theorem State.dbgPoison_keeps (s : State) (st : Nat) (a : Nat) :
    Keeps s (State.dbgPoison s st a) := by
  unfold State.dbgPoison
  try dsimp only
  repeat' first
    | (with_reducible first
      | exact Keeps.refl _ | assumption | apply Leaves.next_of | exact Leaves.fault _ _ | exact Leaves.refused _ _
      | apply Keeps.step (State.storageEvent_keeps ..) | apply Keeps.step (State.metPoison_keeps ..)
      | apply Keeps.step (Keeps.foldl _ _ _ ?_) | apply Keeps.step (Keeps.foldl1 _ _ _ ?_))
    | (fail_if_no_progress (with_reducible apply Keeps.upd)) | (fail_if_no_progress (with_reducible apply Keeps.updHbm)) | split

theorem State.dbgReadMem_keeps (s : State) (r : DbgReq) (a : Nat) :
    Keeps s (State.dbgReadMem s r a) := by
  unfold State.dbgReadMem
  try dsimp only
  repeat' with_reducible first
    | exact Keeps.refl _ | assumption | apply Leaves.next_of | exact Leaves.fault _ _ | exact Leaves.refused _ _
    | apply Keeps.step (State.fetched_keeps ..) | apply Keeps.step (State.dbgDone_keeps ..)
    | apply Keeps.step (State.dbgAdvance_keeps ..) | apply Keeps.step (State.dbgPoison_keeps ..)

theorem State.dbgWriteMem_keeps (s : State) (r : DbgReq) (a : Nat) :
    Keeps s (State.dbgWriteMem s r a) := by
  unfold State.dbgWriteMem
  try dsimp only
  repeat' with_reducible first
    | exact Keeps.refl _ | assumption | apply Leaves.next_of | exact Leaves.fault _ _ | exact Leaves.refused _ _
    | apply Keeps.step (State.writeRun_keeps ..) | apply Keeps.step (State.dbgDone_keeps ..)
    | apply Keeps.step (State.dbgAdvance_keeps ..) | apply Keeps.step (State.dbgPoison_keeps ..)

theorem State.dbgWord_keeps (s : State) (r : DbgReq) (env : MemEnv) :
    Keeps s (State.dbgWord s r env) := by
  unfold State.dbgWord
  try dsimp only
  repeat' first
    | (with_reducible first
      | exact Keeps.refl _ | assumption | apply Leaves.next_of | exact Leaves.fault _ _ | exact Leaves.refused _ _
      | apply Keeps.step (State.inside_keeps _ _ _ ?_) | apply Keeps.step (State.dbgReadMem_keeps ..)
      | apply Keeps.step (State.dbgWriteMem_keeps ..) | apply Keeps.step (State.snoopLines_keeps ..)
      | apply Keeps.step (State.dbgDone_keeps ..) | apply Keeps.step (State.dbgAdvance_keeps ..)
      | apply Keeps.step (State.putStoreRun_keeps ..) | apply Keeps.step (Keeps.foldl _ _ _ ?_)
      | apply Keeps.step (Keeps.foldl1 _ _ _ ?_))
    | (fail_if_no_progress (with_reducible apply Keeps.upd)) | (fail_if_no_progress (with_reducible apply Keeps.updHbm)) | split
    | (intro _; try dsimp only)

theorem State.dbgGoOn_keeps (s : State) :
    Keeps s (State.dbgGoOn s) := by
  unfold State.dbgGoOn
  try dsimp only
  repeat' first
    | (with_reducible first
      | exact Keeps.refl _ | assumption | apply Leaves.next_of | exact Leaves.fault _ _ | exact Leaves.refused _ _
      | apply Keeps.step (State.dbgWord_keeps ..) | apply Keeps.step (Keeps.foldl _ _ _ ?_)
      | apply Keeps.step (Keeps.foldl1 _ _ _ ?_))
    | (fail_if_no_progress (with_reducible apply Keeps.upd)) | (fail_if_no_progress (with_reducible apply Keeps.updHbm)) | split

theorem State.dbgAccess_keeps (s : State) (r : DbgReq) (code : Nat) (keep : Nat) (dark : Bool) (op : State → Nat → Nat → State) (hop :
    ∀ u x1 x2, Keeps u (op u x1 x2)) :
    Keeps s (State.dbgAccess s r code keep dark op) := by
  unfold State.dbgAccess
  try dsimp only
  repeat' first
    | (with_reducible first
      | exact Keeps.refl _ | assumption | apply Leaves.next_of | exact Leaves.fault _ _ | exact Leaves.refused _ _
      | apply Keeps.step (hop ..) | apply Keeps.step (State.dbgGoOn_keeps ..) | apply Keeps.step (State.selectIr_keeps ..)
      | apply Keeps.step (State.emit_keeps ..) | apply Keeps.step (State.bump_keeps ..)
      | apply Keeps.step (State.dbgDone_keeps ..) | apply Keeps.step (Keeps.foldl _ _ _ ?_)
      | apply Keeps.step (Keeps.foldl1 _ _ _ ?_))
    | (fail_if_no_progress (with_reducible apply Keeps.upd)) | (fail_if_no_progress (with_reducible apply Keeps.updHbm)) | split

theorem State.discard_keeps (s : State) (ch : Nat) (p : Nat → Bool) :
    Keeps s (State.discard s ch p) := by
  unfold State.discard
  try dsimp only
  repeat' with_reducible first
    | exact Keeps.refl _ | assumption | apply Leaves.next_of | exact Leaves.fault _ _ | exact Leaves.refused _ _
    | apply Keeps.step (State.setChurn_keeps ..)

theorem State.dmaCounts_keeps (s : State) (e : Nat) (c : Nat) (q : Nat) (h : Nat) (r : List Byte) :
    Keeps s (State.dmaCounts s e c q h r) := by
  unfold State.dmaCounts
  try dsimp only
  repeat' first
    | (with_reducible first
      | exact Keeps.refl _ | assumption | apply Leaves.next_of | exact Leaves.fault _ _ | exact Leaves.refused _ _
      | apply Keeps.step (State.bump_keeps ..) | apply Keeps.step (State.odp_keeps ..) | apply Keeps.step (Keeps.foldl _ _ _ ?_)
      | apply Keeps.step (Keeps.foldl1 _ _ _ ?_))
    | (fail_if_no_progress (with_reducible apply Keeps.upd)) | (fail_if_no_progress (with_reducible apply Keeps.updHbm)) | split

theorem State.dmaSettle_keeps (s : State) (key : Nat) (a2 : Nat) :
    Keeps s (State.dmaSettle s key a2) := by
  induction a2 generalizing s key with
  | zero => unfold State.dmaSettle; exact Keeps.refl _
  | succ n ih =>
    unfold State.dmaSettle
    try dsimp only
    repeat' first
      | (with_reducible first
        | exact Keeps.refl _ | assumption | apply Leaves.next_of | exact Leaves.fault _ _ | exact Leaves.refused _ _
        | apply Keeps.step (State.dmaFinish_keeps ..) | apply Keeps.step (Keeps.foldl _ _ _ ?_)
        | apply Keeps.step (Keeps.foldl1 _ _ _ ?_) | apply Keeps.step (ih ..))
      | (fail_if_no_progress (with_reducible apply Keeps.upd)) | (fail_if_no_progress (with_reducible apply Keeps.updHbm))
      | split

theorem State.dmaStart_keeps (s : State) (key : Nat) (i : Nat) (d : Desc) :
    Keeps s (State.dmaStart s key i d) := by
  unfold State.dmaStart
  try dsimp only
  repeat' with_reducible first
    | exact Keeps.refl _ | assumption | apply Leaves.next_of | exact Leaves.fault _ _ | exact Leaves.refused _ _
    | apply Keeps.step (State.setDq_keeps ..)

theorem State.dmaRun_keeps (s : State) (q : QRef) (op : List Nat → Bool) (act : State → Nat → Nat → Desc → State) (hact : ∀ u x1 x2 x3,
    Keeps u (act u x1 x2 x3)) :
    Keeps s (State.dmaRun s q op act) := by
  unfold State.dmaRun
  try dsimp only
  repeat' first
    | (with_reducible first
      | exact Keeps.refl _ | assumption | apply Leaves.next_of | exact Leaves.fault _ _ | exact Leaves.refused _ _
      | apply Keeps.step (hact ..) | apply Keeps.step (State.dmaSettle_keeps ..) | apply Keeps.step (State.dmaFinish_keeps ..)
      | apply Keeps.step (State.coherent_keeps _ _ _ ?_) | apply Keeps.step (State.dmaStart_keeps ..)
      | apply Keeps.step (Keeps.foldl _ _ _ ?_) | apply Keeps.step (Keeps.foldl1 _ _ _ ?_))
    | (fail_if_no_progress (with_reducible apply Keeps.upd)) | (fail_if_no_progress (with_reducible apply Keeps.updHbm)) | split
    | (intro _; try dsimp only)

theorem State.wroteMoves_keeps (s : State) (alloc : Bool) (ms : List Move) :
    Keeps s (State.wroteMoves s alloc ms) := by
  unfold State.wroteMoves
  try dsimp only
  repeat' first
    | (with_reducible first
      | exact Keeps.refl _ | assumption | apply Leaves.next_of | exact Leaves.fault _ _ | exact Leaves.refused _ _
      | apply Keeps.step (State.sliceWrites_keeps ..) | apply Keeps.step (State.setPoison_keeps ..)
      | apply Keeps.step (Keeps.foldl _ _ _ ?_) | apply Keeps.step (Keeps.foldl1 _ _ _ ?_))
    | (fail_if_no_progress (with_reducible apply Keeps.upd)) | (fail_if_no_progress (with_reducible apply Keeps.updHbm)) | split
    | (intro _; try dsimp only)

theorem State.doMoves_keeps (s : State) (alloc : Bool) (past : Bool) (ms : List Move) (byteOf : Move → Byte) (failOff : Option Nat) :
    Keeps s (State.doMoves s alloc past ms byteOf failOff) := by
  unfold State.doMoves
  try dsimp only
  repeat' first
    | (with_reducible first
      | exact Keeps.refl _ | assumption | apply Leaves.next_of | exact Leaves.fault _ _ | exact Leaves.refused _ _
      | apply Keeps.step (State.drawn_keeps ..) | apply Keeps.step (State.wroteMoves_keeps ..)
      | apply Keeps.step (State.putLoc_keeps ..) | apply Keeps.step (Keeps.foldl _ _ _ ?_)
      | apply Keeps.step (Keeps.foldl1 _ _ _ ?_))
    | (fail_if_no_progress (with_reducible apply Keeps.upd)) | (fail_if_no_progress (with_reducible apply Keeps.updHbm)) | split
    | (intro _; try dsimp only)

theorem State.setSession_keeps (s : State) (x : Session) :
    Keeps s (State.setSession s x) := by
  unfold State.setSession
  try dsimp only
  repeat' first
    | (with_reducible first
      | exact Keeps.refl _ | assumption | apply Leaves.next_of | exact Leaves.fault _ _ | exact Leaves.refused _ _
      | apply Keeps.step (Keeps.foldl _ _ _ ?_) | apply Keeps.step (Keeps.foldl1 _ _ _ ?_))
    | (fail_if_no_progress (with_reducible apply Keeps.upd))

theorem State.endSession_keeps (s : State) (n : Nat) :
    Keeps s (State.endSession s n) := by
  unfold State.endSession
  try dsimp only
  repeat' first
    | (with_reducible first
      | exact Keeps.refl _ | assumption | apply Leaves.next_of | exact Leaves.fault _ _ | exact Leaves.refused _ _
      | apply Keeps.step (Keeps.foldl _ _ _ ?_) | apply Keeps.step (Keeps.foldl1 _ _ _ ?_))
    | (fail_if_no_progress (with_reducible apply Keeps.upd))

theorem State.executeLly_keeps (s : State) (x : Session) (m : Lly) :
    Keeps s (State.executeLly s x m) := by
  unfold State.executeLly
  try dsimp only
  repeat' first
    | (with_reducible first
      | exact Keeps.refl _ | assumption | apply Leaves.next_of | exact Leaves.fault _ _ | exact Leaves.refused _ _
      | apply Keeps.step (State.runLly_keeps ..) | apply Keeps.step (State.bump_keeps ..)
      | apply Keeps.step (State.sendLly_keeps ..) | apply Keeps.step (State.setSession_keeps ..)
      | apply Keeps.step (State.endSession_keeps ..) | apply Keeps.step (Keeps.foldl _ _ _ ?_)
      | apply Keeps.step (Keeps.foldl1 _ _ _ ?_))
    | (fail_if_no_progress (with_reducible apply Keeps.upd)) | (fail_if_no_progress (with_reducible apply Keeps.updHbm)) | split

theorem State.drainLly_keeps (s : State) (n : Nat) (a2 : Nat) :
    Keeps s (State.drainLly s n a2) := by
  induction a2 generalizing s n with
  | zero => unfold State.drainLly; exact Keeps.refl _
  | succ n ih =>
    unfold State.drainLly
    try dsimp only
    repeat' first
      | (with_reducible first
        | exact Keeps.refl _ | assumption | apply Leaves.next_of | exact Leaves.fault _ _ | exact Leaves.refused _ _
        | apply Keeps.step (State.executeLly_keeps ..) | apply Keeps.step (Keeps.foldl _ _ _ ?_)
        | apply Keeps.step (Keeps.foldl1 _ _ _ ?_) | apply Keeps.step (ih ..))
      | (fail_if_no_progress (with_reducible apply Keeps.upd)) | (fail_if_no_progress (with_reducible apply Keeps.updHbm))
      | split

theorem State.dropContexts_keeps (s : State) :
    Keeps s (State.dropContexts s) := by
  unfold State.dropContexts
  try dsimp only
  repeat' first
    | (with_reducible first
      | exact Keeps.refl _ | assumption | apply Leaves.next_of | exact Leaves.fault _ _ | exact Leaves.refused _ _
      | apply Keeps.step (Keeps.foldl _ _ _ ?_) | apply Keeps.step (Keeps.foldl1 _ _ _ ?_))
    | (fail_if_no_progress (with_reducible apply Keeps.upd))

theorem State.dropLine_keeps (s : State) (l : Nat) :
    Keeps s (State.dropLine s l) := by
  unfold State.dropLine
  try dsimp only
  repeat' first
    | (with_reducible first
      | exact Keeps.refl _ | assumption | apply Leaves.next_of | exact Leaves.fault _ _ | exact Leaves.refused _ _
      | apply Keeps.step (Keeps.foldl _ _ _ ?_) | apply Keeps.step (Keeps.foldl1 _ _ _ ?_))
    | (fail_if_no_progress (with_reducible apply Keeps.upd))

theorem State.takeCodes_keeps (s : State) (ch : Nat) (e : ChExec) (v : Nat) (r : Nat) (shadow : Bool) :
    Keeps s (State.takeCodes s ch e v r shadow).1 := by
  unfold State.takeCodes
  try dsimp only
  repeat' first
    | (with_reducible first
      | exact Keeps.refl _ | assumption | apply Leaves.next_of | exact Leaves.fault _ _ | exact Leaves.refused _ _
      | apply Keeps.step (State.accumulate_keeps ..) | apply Keeps.step (State.bump_keeps ..)
      | apply Keeps.step (Keeps.foldl _ _ _ ?_) | apply Keeps.step (Keeps.foldl1 _ _ _ ?_))
    | (fail_if_no_progress (with_reducible apply Keeps.upd)) | (fail_if_no_progress (with_reducible apply Keeps.updHbm)) | split

theorem State.shadowRun_keeps (s : State) (ch : Nat) (e : ChExec) (a3 : Nat) (a4 : List (Nat × Nat × Bool)) :
    Keeps s (State.shadowRun s ch e a3 a4).1 := by
  induction a3 generalizing s ch e a4 with
  | zero => unfold State.shadowRun; exact Keeps.refl _
  | succ n ih =>
    unfold State.shadowRun
    try dsimp only
    repeat' first
      | (with_reducible first
        | exact Keeps.refl _ | assumption | apply Leaves.next_of | exact Leaves.fault _ _ | exact Leaves.refused _ _
        | apply Keeps.step (State.takeCodes_keeps ..) | apply Keeps.step (State.relaunched_keeps ..)
        | apply Keeps.step (Keeps.foldl _ _ _ ?_) | apply Keeps.step (Keeps.foldl1 _ _ _ ?_) | apply Keeps.step (ih ..))
      | (fail_if_no_progress (with_reducible apply Keeps.upd)) | (fail_if_no_progress (with_reducible apply Keeps.updHbm))
      | split

theorem State.shadowStream_keeps (s : State) (ch : Nat) (e : ChExec) (todo : List (Nat × Nat × Bool)) :
    Keeps s (State.shadowStream s ch e todo) := by
  unfold State.shadowStream
  try dsimp only
  repeat' with_reducible first
    | exact Keeps.refl _ | assumption | apply Leaves.next_of | exact Leaves.fault _ _ | exact Leaves.refused _ _
    | apply Keeps.step (State.shadowRun_keeps ..) | apply Keeps.step (State.streamDone_keeps ..)

theorem State.fallBack_keeps (s : State) (ch : Nat) (e : ChExec) :
    Keeps s (State.fallBack s ch e) := by
  unfold State.fallBack
  try dsimp only
  repeat' first
    | (with_reducible first
      | exact Keeps.refl _ | assumption | apply Leaves.next_of | exact Leaves.fault _ _ | exact Leaves.refused _ _
      | apply Keeps.step (State.shadowStream_keeps ..) | apply Keeps.step (State.streamDone_keeps ..)
      | apply Keeps.step (Keeps.foldl _ _ _ ?_) | apply Keeps.step (Keeps.foldl1 _ _ _ ?_))
    | (fail_if_no_progress (with_reducible apply Keeps.upd)) | (fail_if_no_progress (with_reducible apply Keeps.updHbm)) | split

theorem State.dropStreams_keeps (s : State) (ch : Nat) :
    Keeps s (State.dropStreams s ch) := by
  unfold State.dropStreams
  try dsimp only
  repeat' first
    | (with_reducible first
      | exact Keeps.refl _ | assumption | apply Leaves.next_of | exact Leaves.fault _ _ | exact Leaves.refused _ _
      | apply Keeps.step (State.setChurn_keeps ..) | apply Keeps.step (State.fallBack_keeps ..)
      | apply Keeps.step (Keeps.foldl _ _ _ ?_) | apply Keeps.step (Keeps.foldl1 _ _ _ ?_))
    | (fail_if_no_progress (with_reducible apply Keeps.upd)) | (fail_if_no_progress (with_reducible apply Keeps.updHbm)) | split
    | (intro _; try dsimp only)

theorem State.dropWaits_keeps (s : State) (c : Nat) :
    Keeps s (State.dropWaits s c) := by
  unfold State.dropWaits
  try dsimp only
  repeat' first
    | (with_reducible first
      | exact Keeps.refl _ | assumption | apply Leaves.next_of | exact Leaves.fault _ _ | exact Leaves.refused _ _
      | apply Keeps.step (Keeps.foldl _ _ _ ?_) | apply Keeps.step (Keeps.foldl1 _ _ _ ?_))
    | (fail_if_no_progress (with_reducible apply Keeps.upd)) | (fail_if_no_progress (with_reducible apply Keeps.updHbm)) | split
    | (intro _; try dsimp only)

theorem State.setPail_keeps (s : State) (core : Nat) (p : Nat) (i : Nat) (w : Word) :
    Keeps s (State.setPail s core p i w) := by
  unfold State.setPail
  try dsimp only
  repeat' first
    | (with_reducible first
      | exact Keeps.refl _ | assumption | apply Leaves.next_of | exact Leaves.fault _ _ | exact Leaves.refused _ _
      | apply Keeps.step (Keeps.foldl _ _ _ ?_) | apply Keeps.step (Keeps.foldl1 _ _ _ ?_))
    | (fail_if_no_progress (with_reducible apply Keeps.upd))

theorem State.writePail_keeps (s : State) (core : Nat) (pail : Nat) (mask : BitVec 256) (mz : Bool) (res : List (Nat × Word)) :
    Keeps s (State.writePail s core pail mask mz res) := by
  unfold State.writePail
  try dsimp only
  repeat' first
    | (with_reducible first
      | exact Keeps.refl _ | assumption | apply Leaves.next_of | exact Leaves.fault _ _ | exact Leaves.refused _ _
      | apply Keeps.step (State.setPail_keeps ..) | apply Keeps.step (Keeps.foldl _ _ _ ?_)
      | apply Keeps.step (Keeps.foldl1 _ _ _ ?_))
    | (fail_if_no_progress (with_reducible apply Keeps.upd)) | (fail_if_no_progress (with_reducible apply Keeps.updHbm)) | split
    | (intro _; try dsimp only)

theorem State.nextPc_keeps (s : State) (core : Nat) (c : Nat) (f : CoreFile) :
    Keeps s (State.nextPc s core c f) := by
  unfold State.nextPc
  try dsimp only
  repeat' with_reducible first
    | exact Keeps.refl _ | assumption | apply Leaves.next_of | exact Leaves.fault _ _ | exact Leaves.refused _ _
    | apply Keeps.step (State.setFile_keeps ..)

theorem State.elementwise_keeps (s : State) (core : Nat) (c : Nat) (v : VWord) (op : Nat → Word × BitVec 4) :
    Keeps s (State.elementwise s core c v op) := by
  unfold State.elementwise
  try dsimp only
  repeat' with_reducible first
    | exact Keeps.refl _ | assumption | apply Leaves.next_of | exact Leaves.fault _ _ | exact Leaves.refused _ _
    | apply Keeps.step (State.writePail_keeps ..) | apply Keeps.step (State.nextPc_keeps ..)

theorem State.emptiedReady_keeps (s : State) : Keeps s s.emptiedReady := Keeps.wipe (Keeps.refl s) rfl rfl

theorem State.enter_keeps (s : State) (port : Nat) (vc : Nat) (p : Packet) (come : Nat) :
    Keeps s (State.enter s port vc p come) := by
  unfold State.enter
  try dsimp only
  repeat' first
    | (with_reducible first
      | exact Keeps.refl _ | assumption | apply Leaves.next_of | exact Leaves.fault _ _ | exact Leaves.refused _ _
      | apply Keeps.step (Keeps.foldl _ _ _ ?_) | apply Keeps.step (Keeps.foldl1 _ _ _ ?_))
    | (fail_if_no_progress (with_reducible apply Keeps.upd))

theorem State.enterHoldover_keeps (s : State) :
    Keeps s (State.enterHoldover s) := by
  unfold State.enterHoldover
  try dsimp only
  repeat' first
    | (with_reducible first
      | exact Keeps.refl _ | assumption | apply Leaves.next_of | exact Leaves.fault _ _ | exact Leaves.refused _ _
      | apply Keeps.step (State.bump_keeps ..) | apply Keeps.step (Keeps.foldl _ _ _ ?_)
      | apply Keeps.step (Keeps.foldl1 _ _ _ ?_))
    | (fail_if_no_progress (with_reducible apply Keeps.upd))

theorem State.herdClose_keeps (s : State) (truncated : Bool) :
    Keeps s (State.herdClose s truncated) := by
  unfold State.herdClose
  try dsimp only
  repeat' first
    | (with_reducible first
      | exact Keeps.refl _ | assumption | apply Leaves.next_of | exact Leaves.fault _ _ | exact Leaves.refused _ _
      | apply Keeps.step (State.herdWrite_keeps ..) | apply Keeps.step (Keeps.foldl _ _ _ ?_)
      | apply Keeps.step (Keeps.foldl1 _ _ _ ?_))
    | (fail_if_no_progress (with_reducible apply Keeps.upd)) | (fail_if_no_progress (with_reducible apply Keeps.updHbm)) | split
    | (intro _; try dsimp only)

theorem State.opticsDark_keeps (s : State) :
    Keeps s (State.opticsDark s) := by
  unfold State.opticsDark
  try dsimp only
  repeat' first
    | (with_reducible first
      | exact Keeps.refl _ | assumption | apply Leaves.next_of | exact Leaves.fault _ _ | exact Leaves.refused _ _
      | apply Keeps.step (State.setLane_keeps ..) | apply Keeps.step (State.odp_keeps ..)
      | apply Keeps.step (State.linkDown_keeps ..) | apply Keeps.step (Keeps.foldl _ _ _ ?_)
      | apply Keeps.step (Keeps.foldl1 _ _ _ ?_))
    | (fail_if_no_progress (with_reducible apply Keeps.upd)) | (fail_if_no_progress (with_reducible apply Keeps.updHbm)) | split
    | (intro _; try dsimp only)

theorem State.sendAgain_keeps (s : State) (p : Nat) (f : TxFlit) :
    Keeps s (State.sendAgain s p f) := by
  unfold State.sendAgain
  try dsimp only
  repeat' with_reducible first
    | exact Keeps.refl _ | assumption | apply Leaves.next_of | exact Leaves.fault _ _ | exact Leaves.refused _ _
    | apply Keeps.step (State.emitFlit_keeps ..) | apply Keeps.step (State.setLink_keeps ..)

theorem State.resendGo_keeps (s : State) (p : Nat) :
    Keeps s (State.resendGo s p) := by
  unfold State.resendGo
  try dsimp only
  repeat' first
    | (with_reducible first
      | exact Keeps.refl _ | assumption | apply Leaves.next_of | exact Leaves.fault _ _ | exact Leaves.refused _ _
      | apply Keeps.step (State.setLink_keeps ..) | apply Keeps.step (State.emitFlit_keeps ..)
      | apply Keeps.step (State.sendAgain_keeps ..) | apply Keeps.step (Keeps.foldl _ _ _ ?_)
      | apply Keeps.step (Keeps.foldl1 _ _ _ ?_))
    | (fail_if_no_progress (with_reducible apply Keeps.upd)) | (fail_if_no_progress (with_reducible apply Keeps.updHbm)) | split
    | (intro _; try dsimp only)

theorem State.retryHeld_keeps (s : State) :
    Keeps s (State.retryHeld s) := by
  unfold State.retryHeld
  try dsimp only
  repeat' first
    | (with_reducible first
      | exact Keeps.refl _ | assumption | apply Leaves.next_of | exact Leaves.fault _ _ | exact Leaves.refused _ _
      | apply Keeps.step (State.settleHeld_keeps ..) | apply Keeps.step (State.resendGo_keeps ..)
      | apply Keeps.step (State.serve_keeps ..) | apply Keeps.step (Keeps.foldl _ _ _ ?_)
      | apply Keeps.step (Keeps.foldl1 _ _ _ ?_))
    | (fail_if_no_progress (with_reducible apply Keeps.upd)) | (fail_if_no_progress (with_reducible apply Keeps.updHbm)) | split
    | (intro _; try dsimp only)

theorem State.xferReplays_keeps (s : State) (die : Nat) (rs : List (Option (BitVec 3))) :
    Keeps s (State.xferReplays s die rs) := by
  unfold State.xferReplays
  try dsimp only
  repeat' first
    | (with_reducible first
      | exact Keeps.refl _ | assumption | apply Leaves.next_of | exact Leaves.fault _ _ | exact Leaves.refused _ _
      | apply Keeps.step (State.replayed_keeps ..) | apply Keeps.step (State.stackReplays_keeps ..)
      | apply Keeps.step (Keeps.foldl _ _ _ ?_) | apply Keeps.step (Keeps.foldl1 _ _ _ ?_))
    | (fail_if_no_progress (with_reducible apply Keeps.upd)) | (fail_if_no_progress (with_reducible apply Keeps.updHbm)) | split
    | (intro _; try dsimp only)

theorem State.replaysEnd_keeps (s : State) (die : Nat) (at_ : Option Nat) :
    Keeps s (State.replaysEnd s die at_) := by
  unfold State.replaysEnd
  try dsimp only
  repeat' first
    | (with_reducible first
      | exact Keeps.refl _ | assumption | apply Leaves.next_of | exact Leaves.fault _ _ | exact Leaves.refused _ _
      | apply Keeps.step (State.stackReplays_keeps ..) | apply Keeps.step (State.replayed_keeps ..)
      | apply Keeps.step (Keeps.foldl _ _ _ ?_) | apply Keeps.step (Keeps.foldl1 _ _ _ ?_))
    | (fail_if_no_progress (with_reducible apply Keeps.upd)) | (fail_if_no_progress (with_reducible apply Keeps.updHbm)) | split

theorem State.xferDone_keeps (s : State) (key : Nat) (i : Nat) (d : Desc) (env : XferEnv) (fail : Option (Nat × Nat)) (status : Nat)
    (flags : Nat) (absent : Nat) (bytes : Nat) (failAddr : Option Nat) :
    Keeps s (State.xferDone s key i d env fail status flags absent bytes failAddr) := by
  unfold State.xferDone
  try dsimp only
  repeat' first
    | (with_reducible first
      | exact Keeps.refl _ | assumption | apply Leaves.next_of | exact Leaves.fault _ _ | exact Leaves.refused _ _
      | apply Keeps.step (State.xferReplays_keeps ..) | apply Keeps.step (State.replaysEnd_keeps ..)
      | apply Keeps.step (State.storageEvent_keeps ..) | apply Keeps.step (State.metPoison_keeps ..)
      | apply Keeps.step (State.dmaFinish_keeps ..) | apply Keeps.step (Keeps.foldl _ _ _ ?_)
      | apply Keeps.step (Keeps.foldl1 _ _ _ ?_))
    | (fail_if_no_progress (with_reducible apply Keeps.upd)) | (fail_if_no_progress (with_reducible apply Keeps.updHbm)) | split

theorem State.hostStop_keeps (s : State) (key : Nat) (i : Nat) (d : Desc) :
    Keeps s (State.hostStop s key i d) := by
  unfold State.hostStop
  try dsimp only
  repeat' with_reducible first
    | exact Keeps.refl _ | assumption | apply Leaves.next_of | exact Leaves.fault _ _ | exact Leaves.refused _ _
    | apply Keeps.step (State.dmaSettle_keeps ..) | apply Keeps.step (State.xferDone_keeps ..)
    | apply Keeps.step (State.doMoves_keeps ..) | apply Keeps.step (State.bump_keeps ..)

theorem State.hostStops_keeps (s : State) :
    Keeps s (State.hostStops s) := by
  unfold State.hostStops
  try dsimp only
  repeat' first
    | (with_reducible first
      | exact Keeps.refl _ | assumption | apply Leaves.next_of | exact Leaves.fault _ _ | exact Leaves.refused _ _
      | apply Keeps.step (State.hostStop_keeps ..) | apply Keeps.step (Keeps.foldl _ _ _ ?_)
      | apply Keeps.step (Keeps.foldl1 _ _ _ ?_))
    | (fail_if_no_progress (with_reducible apply Keeps.upd)) | (fail_if_no_progress (with_reducible apply Keeps.updHbm)) | split
    | (intro _; try dsimp only)

theorem State.linkLost_keeps (s : State) :
    Keeps s (State.linkLost s) := by
  unfold State.linkLost
  try dsimp only
  repeat' first
    | (with_reducible first
      | exact Keeps.refl _ | assumption | apply Leaves.next_of | exact Leaves.fault _ _ | exact Leaves.refused _ _
      | apply Keeps.step (State.retryHeld_keeps ..) | apply Keeps.step (State.hostStops_keeps ..)
      | apply Keeps.step (State.odp_keeps ..) | apply Keeps.step (Keeps.foldl _ _ _ ?_)
      | apply Keeps.step (Keeps.foldl1 _ _ _ ?_))
    | (fail_if_no_progress (with_reducible apply Keeps.upd))

theorem State.powerDown_keeps (s : State) : Keeps s s.powerDown := by
  refine ⟨?_, fun _ => rfl⟩
  unfold State.powerDown
  dsimp only
  refine Keeps.pending (s := s) ?_
  repeat' first
    | (with_reducible first
      | exact Keeps.refl _
      | apply Keeps.step (State.opticsDark_keeps ..) | apply Keeps.step (State.linkLost_keeps ..)
      | apply Keeps.step (State.churnsOff_keeps ..) | apply Keeps.step (State.odp_keeps ..)
      | apply Keeps.step (State.resetDies_keeps ..) | apply Keeps.step (Keeps.foldl _ _ _ ?_))
    | (fail_if_no_progress (with_reducible apply Keeps.upd)) | split
    | (intro _; try dsimp only)

theorem State.enterSafe_keeps (s : State) (cause : Nat) (inst : Nat) :
    Keeps s (State.enterSafe s cause inst) := by
  unfold State.enterSafe
  try dsimp only
  repeat' first
    | (with_reducible first
      | exact Keeps.refl _ | assumption | apply Leaves.next_of | exact Leaves.fault _ _ | exact Leaves.refused _ _
      | apply Keeps.step (State.herdNow_keeps ..) | apply Keeps.step (State.herdClose_keeps ..)
      | apply Keeps.step (State.bump_keeps ..) | apply Keeps.step (State.odp_keeps ..)
      | apply Keeps.step (State.request_keeps ..) | apply Keeps.step (State.powerDown_keeps ..)
      | apply Keeps.step (State.closeSessions_keeps ..) | apply Keeps.step (State.dropContexts_keeps ..)
      | apply Keeps.step (Keeps.foldl _ _ _ ?_) | apply Keeps.step (Keeps.foldl1 _ _ _ ?_))
    | (fail_if_no_progress (with_reducible apply Keeps.upd)) | (fail_if_no_progress (with_reducible apply Keeps.updHbm)) | split

theorem State.enterStandby_keeps (s : State) :
    Keeps s (State.enterStandby s) := by
  unfold State.enterStandby
  try dsimp only
  repeat' first
    | (with_reducible first
      | exact Keeps.refl _ | assumption | apply Leaves.next_of | exact Leaves.fault _ _ | exact Leaves.refused _ _
      | apply Keeps.step (State.powerDown_keeps ..) | apply Keeps.step (State.odp_keeps ..)
      | apply Keeps.step (State.noteBroken_keeps ..) | apply Keeps.step (State.closeSessions_keeps ..)
      | apply Keeps.step (Keeps.foldl _ _ _ ?_) | apply Keeps.step (Keeps.foldl1 _ _ _ ?_))
    | (fail_if_no_progress (with_reducible apply Keeps.upd)) | (fail_if_no_progress (with_reducible apply Keeps.updHbm)) | split

theorem State.signalRecord_keeps (s : State) (job : Nat) (b : List Byte) :
    Keeps s (State.signalRecord s job b) := by
  unfold State.signalRecord
  try dsimp only
  repeat' first
    | (with_reducible first
      | exact Keeps.refl _ | assumption | apply Leaves.next_of | exact Leaves.fault _ _ | exact Leaves.refused _ _
      | apply Keeps.step (State.signal_keeps ..) | apply Keeps.step (State.bump_keeps ..)
      | apply Keeps.step (Keeps.foldl _ _ _ ?_) | apply Keeps.step (Keeps.foldl1 _ _ _ ?_))
    | (fail_if_no_progress (with_reducible apply Keeps.upd)) | (fail_if_no_progress (with_reducible apply Keeps.updHbm)) | split

theorem State.entryComplete_keeps (s : State) (i : Nat) :
    Keeps s (State.entryComplete s i) := by
  unfold State.entryComplete
  try dsimp only
  repeat' first
    | (with_reducible first
      | exact Keeps.refl _ | assumption | apply Leaves.next_of | exact Leaves.fault _ _ | exact Leaves.refused _ _
      | apply Keeps.step (State.setEntry_keeps ..) | apply Keeps.step (State.bump_keeps ..)
      | apply Keeps.step (State.signalRecord_keeps ..) | apply Keeps.step (State.signal_keeps ..)
      | apply Keeps.step (Keeps.foldl _ _ _ ?_) | apply Keeps.step (Keeps.foldl1 _ _ _ ?_))
    | (fail_if_no_progress (with_reducible apply Keeps.upd)) | (fail_if_no_progress (with_reducible apply Keeps.updHbm)) | split
    | (intro _; try dsimp only)

theorem State.entryStarts_keeps (s : State) (c : Nat) (pos : Nat) :
    Keeps s (State.entryStarts s c pos) := by
  unfold State.entryStarts
  try dsimp only
  repeat' with_reducible first
    | exact Keeps.refl _ | assumption | apply Leaves.next_of | exact Leaves.fault _ _ | exact Leaves.refused _ _
    | apply Keeps.step (State.traced_keeps ..)

theorem State.fillRows_keeps (s : State) (t : MilkTask) (a2 : List (List Byte)) :
    Keeps s (State.fillRows s t a2).1 := by
  induction a2 generalizing s t with
  | nil => unfold State.fillRows; exact Keeps.refl _
  | cons b l ih =>
    unfold State.fillRows
    try dsimp only
    repeat' first
      | (with_reducible first
        | exact Keeps.refl _ | assumption | apply Leaves.next_of | exact Leaves.fault _ _ | exact Leaves.refused _ _
        | apply Keeps.step (State.routineWrite_keeps ..) | apply Keeps.step (Keeps.foldl _ _ _ ?_)
        | apply Keeps.step (Keeps.foldl1 _ _ _ ?_) | apply Keeps.step (ih ..))
      | (fail_if_no_progress (with_reducible apply Keeps.upd)) | (fail_if_no_progress (with_reducible apply Keeps.updHbm))
      | split

theorem State.fillSects_keeps (s : State) (t : MilkTask) (a2 : List (List Byte)) :
    Keeps s (State.fillSects s t a2).1 := by
  induction a2 generalizing s t with
  | nil => unfold State.fillSects; exact Keeps.refl _
  | cons b l ih =>
    unfold State.fillSects
    try dsimp only
    repeat' first
      | (with_reducible first
        | exact Keeps.refl _ | assumption | apply Leaves.next_of | exact Leaves.fault _ _ | exact Leaves.refused _ _
        | apply Keeps.step (State.routineWrite_keeps ..) | apply Keeps.step (Keeps.foldl _ _ _ ?_)
        | apply Keeps.step (Keeps.foldl1 _ _ _ ?_) | apply Keeps.step (ih ..))
      | (fail_if_no_progress (with_reducible apply Keeps.upd)) | (fail_if_no_progress (with_reducible apply Keeps.updHbm))
      | split

theorem State.finalRow_keeps (s : State) (region : Nat) (d : List Byte) (r : Nat) (x : RowSt) :
    Keeps s (State.finalRow s region d r x) := by
  unfold State.finalRow
  try dsimp only
  repeat' with_reducible first
    | exact Keeps.refl _ | assumption | apply Leaves.next_of | exact Leaves.fault _ _ | exact Leaves.refused _ _
    | apply Keeps.step (State.putRegion_keeps ..)

theorem State.startFlow_keeps (s : State) (c : Nat) (pos : Nat) (e : PlanEntry) :
    Keeps s (State.startFlow s c pos e) := by
  unfold State.startFlow
  try dsimp only
  repeat' with_reducible first
    | exact Keeps.refl _ | assumption | apply Leaves.next_of | exact Leaves.fault _ _ | exact Leaves.refused _ _
    | apply Keeps.step (State.entryStarts_keeps ..) | apply Keeps.step (State.setCtx_keeps ..)

theorem State.flowRun_keeps (s : State) (op : Nat) (act : State → Nat → Nat → PlanEntry → State) (hact : ∀ u x1 x2 x3, Keeps u (act u x1 x2 x3)) :
    Keeps s (State.flowRun s op act) := by
  unfold State.flowRun
  try dsimp only
  repeat' first
    | (with_reducible first
      | exact Keeps.refl _ | assumption | apply Leaves.next_of | exact Leaves.fault _ _ | exact Leaves.refused _ _
      | apply Keeps.step (hact ..) | apply Keeps.step (State.startFlow_keeps ..) | apply Keeps.step (State.entryDone_keeps ..)
      | apply Keeps.step (Keeps.foldl _ _ _ ?_) | apply Keeps.step (Keeps.foldl1 _ _ _ ?_))
    | (fail_if_no_progress (with_reducible apply Keeps.upd)) | (fail_if_no_progress (with_reducible apply Keeps.updHbm)) | split

theorem State.flowRunIn_keeps (s : State) (env : MemEnv) (op : Nat) (act : State → Nat → Nat → PlanEntry → State) (hact : ∀ u x1 x2 x3,
    Keeps u (act u x1 x2 x3)) :
    Keeps s (State.flowRunIn s env op act) := by
  unfold State.flowRunIn
  try dsimp only
  repeat' first
    | (with_reducible first
      | exact Keeps.refl _ | assumption | apply Leaves.next_of | exact Leaves.fault _ _ | exact Leaves.refused _ _
      | apply Keeps.step (hact ..) | apply Keeps.step (State.within_keeps _ _ _ ?_)
      | apply Keeps.step (State.flowRun_keeps _ _ _ ?_) | apply Keeps.step (Keeps.foldl _ _ _ ?_)
      | apply Keeps.step (Keeps.foldl1 _ _ _ ?_))
    | (fail_if_no_progress (with_reducible apply Keeps.upd)) | (fail_if_no_progress (with_reducible apply Keeps.updHbm)) | split
    | (intro _; try dsimp only)

theorem State.setMilk_keeps (s : State) (t : MilkTask) :
    Keeps s (State.setMilk s t) := by
  unfold State.setMilk
  try dsimp only
  repeat' first
    | (with_reducible first
      | exact Keeps.refl _ | assumption | apply Leaves.next_of | exact Leaves.fault _ _ | exact Leaves.refused _ _
      | apply Keeps.step (Keeps.foldl _ _ _ ?_) | apply Keeps.step (Keeps.foldl1 _ _ _ ?_))
    | (fail_if_no_progress (with_reducible apply Keeps.upd))

theorem State.milkAdvance_keeps (s : State) (t : MilkTask) (a2 : Nat) :
    Keeps s (State.milkAdvance s t a2) := by
  induction a2 generalizing s t with
  | zero => unfold State.milkAdvance; exact State.setMilk_keeps ..
  | succ n ih =>
    unfold State.milkAdvance
    try dsimp only
    repeat' first
      | (with_reducible first
        | exact Keeps.refl _ | assumption | apply Leaves.next_of | exact Leaves.fault _ _ | exact Leaves.refused _ _
        | apply Keeps.step (State.setMilk_keeps ..) | apply Keeps.step (State.signal_keeps ..)
        | apply Keeps.step (State.bump_keeps ..) | apply Keeps.step (State.routineDone_keeps ..)
        | apply Keeps.step (Keeps.foldl _ _ _ ?_) | apply Keeps.step (Keeps.foldl1 _ _ _ ?_) | apply Keeps.step (ih ..))
      | (fail_if_no_progress (with_reducible apply Keeps.upd)) | (fail_if_no_progress (with_reducible apply Keeps.updHbm))
      | split

theorem State.milkGo_keeps (s : State) (t : MilkTask) :
    Keeps s (State.milkGo s t) := by
  unfold State.milkGo
  try dsimp only
  repeat' with_reducible first
    | exact Keeps.refl _ | assumption | apply Leaves.next_of | exact Leaves.fault _ _ | exact Leaves.refused _ _
    | apply Keeps.step (State.fillRows_keeps ..) | apply Keeps.step (State.fillSects_keeps ..)
    | apply Keeps.step (State.milkAdvance_keeps ..)

theorem State.forwardParcel_keeps (s : State) (t : MilkTask) (u : MilkTask) (a : Nat) (n : Nat) :
    Keeps s (State.forwardParcel s t u a n) := by
  unfold State.forwardParcel
  try dsimp only
  repeat' first
    | (with_reducible first
      | exact Keeps.refl _ | assumption | apply Leaves.next_of | exact Leaves.fault _ _ | exact Leaves.refused _ _
      | apply Keeps.step (State.routineRead_keeps ..) | apply Keeps.step (State.milkGo_keeps ..)
      | apply Keeps.step (State.bump_keeps ..) | apply Keeps.step (State.drawn_keeps ..)
      | apply Keeps.step (State.sendRoutine_keeps ..) | apply Keeps.step (Keeps.foldl _ _ _ ?_)
      | apply Keeps.step (Keeps.foldl1 _ _ _ ?_))
    | (fail_if_no_progress (with_reducible apply Keeps.upd)) | (fail_if_no_progress (with_reducible apply Keeps.updHbm)) | split

theorem State.freeCtx_keeps (s : State) (c : Nat) :
    Keeps s (State.freeCtx s c) := by
  unfold State.freeCtx
  try dsimp only
  repeat' first
    | (with_reducible first
      | exact Keeps.refl _ | assumption | apply Leaves.next_of | exact Leaves.fault _ _ | exact Leaves.refused _ _
      | apply Keeps.step (State.dropTasks_keeps ..) | apply Keeps.step (State.setChurn_keeps ..)
      | apply Keeps.step (State.parkLanes_keeps ..) | apply Keeps.step (Keeps.foldl _ _ _ ?_)
      | apply Keeps.step (Keeps.foldl1 _ _ _ ?_))
    | (fail_if_no_progress (with_reducible apply Keeps.upd)) | (fail_if_no_progress (with_reducible apply Keeps.updHbm)) | split
    | (intro _; try dsimp only)

theorem State.invalidEvent_keeps (s : State) (c : Nat) :
    Keeps s (State.invalidEvent s c) := by
  unfold State.invalidEvent
  try dsimp only
  repeat' with_reducible first
    | exact Keeps.refl _ | assumption | apply Leaves.next_of | exact Leaves.fault _ _ | exact Leaves.refused _ _
    | apply Keeps.step (State.drawn_keeps ..) | apply Keeps.step (State.numericEvent_keeps ..)

theorem State.gatherWrite_keeps (s : State) (c : Nat) (d : List Byte) (off : Nat) (bytes : List Byte) :
    Keeps s (State.gatherWrite s c d off bytes) := by
  unfold State.gatherWrite
  try dsimp only
  repeat' first
    | (with_reducible first
      | exact Keeps.refl _ | assumption | apply Leaves.next_of | exact Leaves.fault _ _ | exact Leaves.refused _ _
      | apply Keeps.step (State.routineWrite_keeps ..) | apply Keeps.step (State.putLoc_keeps ..)
      | apply Keeps.step (Keeps.foldl _ _ _ ?_) | apply Keeps.step (Keeps.foldl1 _ _ _ ?_))
    | (fail_if_no_progress (with_reducible apply Keeps.upd)) | (fail_if_no_progress (with_reducible apply Keeps.updHbm)) | split
    | (intro _; try dsimp only)

theorem State.gatherSeg_keeps (s : State) (t : GatherTask) (g : Nat) (seg : List Byte) :
    Keeps s (State.gatherSeg s t g seg).1 := by
  unfold State.gatherSeg
  try dsimp only
  repeat' first
    | (with_reducible first
      | exact Keeps.refl _ | assumption | apply Leaves.next_of | exact Leaves.fault _ _ | exact Leaves.refused _ _
      | apply Keeps.step (State.invalidEvent_keeps ..) | apply Keeps.step (State.gatherWrite_keeps ..)
      | apply Keeps.step (Keeps.foldl _ _ _ ?_) | apply Keeps.step (Keeps.foldl1 _ _ _ ?_))
    | (fail_if_no_progress (with_reducible apply Keeps.upd)) | (fail_if_no_progress (with_reducible apply Keeps.updHbm)) | split

theorem State.setGather_keeps (s : State) (t : GatherTask) :
    Keeps s (State.setGather s t) := by
  unfold State.setGather
  try dsimp only
  repeat' first
    | (with_reducible first
      | exact Keeps.refl _ | assumption | apply Leaves.next_of | exact Leaves.fault _ _ | exact Leaves.refused _ _
      | apply Keeps.step (Keeps.foldl _ _ _ ?_) | apply Keeps.step (Keeps.foldl1 _ _ _ ?_))
    | (fail_if_no_progress (with_reducible apply Keeps.upd))

theorem State.gatherSettle_keeps (s : State) (t : GatherTask) :
    Keeps s (State.gatherSettle s t) := by
  unfold State.gatherSettle
  try dsimp only
  repeat' first
    | (with_reducible first
      | exact Keeps.refl _ | assumption | apply Leaves.next_of | exact Leaves.fault _ _ | exact Leaves.refused _ _
      | apply Keeps.step (State.bump_keeps ..) | apply Keeps.step (State.signal_keeps ..)
      | apply Keeps.step (State.routineDone_keeps ..) | apply Keeps.step (State.setGather_keeps ..)
      | apply Keeps.step (Keeps.foldl _ _ _ ?_) | apply Keeps.step (Keeps.foldl1 _ _ _ ?_))
    | (fail_if_no_progress (with_reducible apply Keeps.upd)) | (fail_if_no_progress (with_reducible apply Keeps.updHbm)) | split

theorem State.goOff_keeps (s : State) :
    Keeps s (State.goOff s) := by
  unfold State.goOff
  try dsimp only
  repeat' first
    | (with_reducible first
      | exact Keeps.refl _ | assumption | apply Leaves.next_of | exact Leaves.fault _ _ | exact Leaves.refused _ _
      | apply Keeps.step (State.powerDown_keeps ..) | apply Keeps.step (State.closeSessions_keeps ..)
      | apply Keeps.step (State.dropContexts_keeps ..) | apply Keeps.step (Keeps.foldl _ _ _ ?_)
      | apply Keeps.step (Keeps.foldl1 _ _ _ ?_))
    | (fail_if_no_progress (with_reducible apply Keeps.upd))

theorem State.headFlit_keeps (s : State) (p : Nat) (f : RxFlit) :
    Keeps s (State.headFlit s p f) := by
  unfold State.headFlit
  try dsimp only
  repeat' first
    | (with_reducible first
      | exact Keeps.refl _ | assumption | apply Leaves.next_of | exact Leaves.fault _ _ | exact Leaves.refused _ _
      | apply Keeps.step (State.setLink_keeps ..) | apply Keeps.step (State.route_keeps ..)
      | apply Keeps.step (State.enter_keeps ..) | apply Keeps.step (Keeps.foldl _ _ _ ?_)
      | apply Keeps.step (Keeps.foldl1 _ _ _ ?_))
    | (fail_if_no_progress (with_reducible apply Keeps.upd)) | (fail_if_no_progress (with_reducible apply Keeps.updHbm)) | split

theorem State.refuseLly_keeps (s : State) (m : Lly) :
    Keeps s (State.refuseLly s m) := by
  unfold State.refuseLly
  try dsimp only
  repeat' first
    | (with_reducible first
      | exact Keeps.refl _ | assumption | apply Leaves.next_of | exact Leaves.fault _ _ | exact Leaves.refused _ _
      | apply Keeps.step (State.answerLly_keeps ..) | apply Keeps.step (Keeps.foldl _ _ _ ?_)
      | apply Keeps.step (Keeps.foldl1 _ _ _ ?_))
    | (fail_if_no_progress (with_reducible apply Keeps.upd)) | (fail_if_no_progress (with_reducible apply Keeps.updHbm)) | split

theorem State.requestLly_keeps (s : State) (m : Lly) :
    Keeps s (State.requestLly s m) := by
  unfold State.requestLly
  try dsimp only
  repeat' first
    | (with_reducible first
      | exact Keeps.refl _ | assumption | apply Leaves.next_of | exact Leaves.fault _ _ | exact Leaves.refused _ _
      | apply Keeps.step (State.answerLly_keeps ..) | apply Keeps.step (State.setSession_keeps ..)
      | apply Keeps.step (State.drainLly_keeps ..) | apply Keeps.step (State.executeLly_keeps ..)
      | apply Keeps.step (State.bump_keeps ..) | apply Keeps.step (State.sendLly_keeps ..)
      | apply Keeps.step (Keeps.foldl _ _ _ ?_) | apply Keeps.step (Keeps.foldl1 _ _ _ ?_))
    | (fail_if_no_progress (with_reducible apply Keeps.upd)) | (fail_if_no_progress (with_reducible apply Keeps.updHbm)) | split

theorem State.hearLly_keeps (s : State) (m : Lly) (op : Nat) :
    Keeps s (State.hearLly s m op) := by
  unfold State.hearLly
  try dsimp only
  repeat' first
    | (with_reducible first
      | exact Keeps.refl _ | assumption | apply Leaves.next_of | exact Leaves.fault _ _ | exact Leaves.refused _ _
      | apply Keeps.step (State.refuseLly_keeps ..) | apply Keeps.step (State.requestLly_keeps ..)
      | apply Keeps.step (Keeps.foldl _ _ _ ?_) | apply Keeps.step (Keeps.foldl1 _ _ _ ?_))
    | (fail_if_no_progress (with_reducible apply Keeps.upd)) | (fail_if_no_progress (with_reducible apply Keeps.updHbm)) | split

theorem State.hopIn_keeps (s : State) (t : CollTask) (i : Nat) (g : Nat) (seg : List Byte) :
    Keeps s (State.hopIn s t i g seg) := by
  unfold State.hopIn
  try dsimp only
  repeat' first
    | (with_reducible first
      | exact Keeps.refl _ | assumption | apply Leaves.next_of | exact Leaves.fault _ _ | exact Leaves.refused _ _
      | apply Keeps.step (State.collStop_keeps ..) | apply Keeps.step (State.lostEvent_keeps ..)
      | apply Keeps.step (State.bump_keeps ..) | apply Keeps.step (State.moveBlock_keeps ..)
      | apply Keeps.step (State.collSettle_keeps ..) | apply Keeps.step (State.sendMoves_keeps ..)
      | apply Keeps.step (Keeps.foldl _ _ _ ?_) | apply Keeps.step (Keeps.foldl1 _ _ _ ?_))
    | (fail_if_no_progress (with_reducible apply Keeps.upd)) | (fail_if_no_progress (with_reducible apply Keeps.updHbm)) | split

theorem State.resetHostSide_keeps (s : State) :
    Keeps s (State.resetHostSide s) := by
  unfold State.resetHostSide
  try dsimp only
  repeat' with_reducible first
    | exact Keeps.refl _ | assumption | apply Leaves.next_of | exact Leaves.fault _ _ | exact Leaves.refused _ _
    | apply Keeps.step (State.resetGroup_keeps ..)

theorem State.odDefaults_keeps (s : State) (idx : Nat) (lo : Nat) (hi : Nat) :
    Keeps s (State.odDefaults s idx lo hi) := by
  unfold State.odDefaults
  try dsimp only
  repeat' first
    | (with_reducible first
      | exact Keeps.refl _ | assumption | apply Leaves.next_of | exact Leaves.fault _ _ | exact Leaves.refused _ _
      | apply Keeps.step (Keeps.foldl _ _ _ ?_) | apply Keeps.step (Keeps.foldl1 _ _ _ ?_))
    | (fail_if_no_progress (with_reducible apply Keeps.upd))

theorem State.hostDefaults_keeps (s : State) :
    Keeps s (State.hostDefaults s) := by
  unfold State.hostDefaults
  try dsimp only
  repeat' first
    | (with_reducible first
      | exact Keeps.refl _ | assumption | apply Leaves.next_of | exact Leaves.fault _ _ | exact Leaves.refused _ _
      | apply Keeps.step (State.resetHostSide_keeps ..) | apply Keeps.step (State.odDefaults_keeps ..)
      | apply Keeps.step (State.ringStop_keeps ..) | apply Keeps.step (State.hostStops_keeps ..)
      | apply Keeps.step (State.retryHeld_keeps ..) | apply Keeps.step (Keeps.foldl _ _ _ ?_)
      | apply Keeps.step (Keeps.foldl1 _ _ _ ?_))
    | (fail_if_no_progress (with_reducible apply Keeps.upd))

theorem State.identityFails_keeps (s : State) (n : Nat) :
    Keeps s (State.identityFails s n) := by
  unfold State.identityFails
  try dsimp only
  repeat' first
    | (with_reducible first
      | exact Keeps.refl _ | assumption | apply Leaves.next_of | exact Leaves.fault _ _ | exact Leaves.refused _ _
      | apply Keeps.step (State.bump_keeps ..) | apply Keeps.step (Keeps.foldl _ _ _ ?_)
      | apply Keeps.step (Keeps.foldl1 _ _ _ ?_))
    | (fail_if_no_progress (with_reducible apply Keeps.upd)) | (fail_if_no_progress (with_reducible apply Keeps.updHbm)) | split

theorem State.insideR_keeps (s : State) (env : MemEnv) (act : State → State × Nat) (hact : ∀ u, Keeps u (act u).1) :
    Keeps s (State.insideR s env act).1 := by
  unfold State.insideR
  try dsimp only
  repeat' first
    | (with_reducible first
      | exact Keeps.refl _ | assumption | apply Leaves.next_of | exact Leaves.fault _ _ | exact Leaves.refused _ _
      | apply Keeps.step (hact ..) | apply Keeps.step (State.meets_keeps ..) | apply Keeps.step (Keeps.foldl _ _ _ ?_)
      | apply Keeps.step (Keeps.foldl1 _ _ _ ?_))
    | (fail_if_no_progress (with_reducible apply Keeps.upd)) | (fail_if_no_progress (with_reducible apply Keeps.updHbm))

theorem State.issue_keeps (s : State) (i : Issue) (ops : List Nat) (word : Nat → CoreFile → Nat → Nat) (body : State → Nat → Nat → Nat
    → State) (hbody : ∀ u x1 x2 x3, Keeps u (body u x1 x2 x3)) :
    Keeps s (State.issue s i ops word body) := by
  unfold State.issue
  try dsimp only
  repeat' first
    | (with_reducible first
      | exact Keeps.refl _ | assumption | apply Leaves.next_of | exact Leaves.fault _ _ | exact Leaves.refused _ _
      | apply Keeps.step (hbody ..) | apply Keeps.step (State.coreFault_keeps ..) | apply Keeps.step (State.coreEvent_keeps ..)
      | apply Keeps.step (State.replayed_keeps ..) | apply Keeps.step (State.afterIssue_keeps ..)
      | apply Keeps.step (Keeps.foldl _ _ _ ?_) | apply Keeps.step (Keeps.foldl1 _ _ _ ?_))
    | (fail_if_no_progress (with_reducible apply Keeps.upd)) | (fail_if_no_progress (with_reducible apply Keeps.updHbm)) | split

theorem State.jobEvent_keeps (s : State) (ctx : Nat) (status : Nat) (tag : Nat) :
    Keeps s (State.jobEvent s ctx status tag) := by
  unfold State.jobEvent
  try dsimp only
  repeat' with_reducible first
    | exact Keeps.refl _ | assumption | apply Leaves.next_of | exact Leaves.fault _ _ | exact Leaves.refused _ _
    | apply Keeps.step (State.respond_keeps ..)

theorem State.jobRun_keeps (s : State) (e : JobEntry) (op : Nat) (uses : Bool × Bool × Bool) (act : State → Nat → State × Nat) (hact :
    ∀ u x1, Keeps u (act u x1).1) :
    Keeps s (State.jobRun s e op uses act) := by
  unfold State.jobRun
  try dsimp only
  repeat' first
    | (with_reducible first
      | exact Keeps.refl _ | assumption | apply Leaves.next_of | exact Leaves.fault _ _ | exact Leaves.refused _ _
      | apply Keeps.step (hact ..) | apply Keeps.step (State.answerEntry_keeps ..) | apply Keeps.step (Keeps.foldl _ _ _ ?_)
      | apply Keeps.step (Keeps.foldl1 _ _ _ ?_))
    | (fail_if_no_progress (with_reducible apply Keeps.upd)) | (fail_if_no_progress (with_reducible apply Keeps.updHbm)) | split

theorem State.landExec_keeps (s : State) (ch : Nat) (e : ChExec) (a3 : Nat) :
    Keeps s (State.landExec s ch e a3).1 := by
  induction a3 generalizing s ch e with
  | zero => unfold State.landExec; exact Keeps.refl _
  | succ n ih =>
    unfold State.landExec
    try dsimp only
    repeat' first
      | (with_reducible first
        | exact Keeps.refl _ | assumption | apply Leaves.next_of | exact Leaves.fault _ _ | exact Leaves.refused _ _
        | apply Keeps.step (State.takeCodes_keeps ..) | apply Keeps.step (Keeps.foldl _ _ _ ?_)
        | apply Keeps.step (Keeps.foldl1 _ _ _ ?_) | apply Keeps.step (ih ..))
      | (fail_if_no_progress (with_reducible apply Keeps.upd)) | (fail_if_no_progress (with_reducible apply Keeps.updHbm))
      | split

theorem State.landAll_keeps (s : State) (ch : Nat) :
    Keeps s (State.landAll s ch) := by
  unfold State.landAll
  try dsimp only
  repeat' first
    | (with_reducible first
      | exact Keeps.refl _ | assumption | apply Leaves.next_of | exact Leaves.fault _ _ | exact Leaves.refused _ _
      | apply Keeps.step (State.landExec_keeps ..) | apply Keeps.step (State.setChurn_keeps ..)
      | apply Keeps.step (Keeps.foldl _ _ _ ?_) | apply Keeps.step (Keeps.foldl1 _ _ _ ?_))
    | (fail_if_no_progress (with_reducible apply Keeps.upd)) | (fail_if_no_progress (with_reducible apply Keeps.updHbm)) | split
    | (intro _; try dsimp only)

theorem State.rejoinLanes_keeps (s : State) (ls : List (Bool × Nat)) :
    Keeps s (State.rejoinLanes s ls) := by
  unfold State.rejoinLanes
  try dsimp only
  repeat' first
    | (with_reducible first
      | exact Keeps.refl _ | assumption | apply Leaves.next_of | exact Leaves.fault _ _ | exact Leaves.refused _ _
      | apply Keeps.step (State.awaitLane_keeps ..) | apply Keeps.step (Keeps.foldl _ _ _ ?_)
      | apply Keeps.step (Keeps.foldl1 _ _ _ ?_))
    | (fail_if_no_progress (with_reducible apply Keeps.upd)) | (fail_if_no_progress (with_reducible apply Keeps.updHbm)) | split
    | (intro _; try dsimp only)

theorem State.relockLane_keeps (s : State) (l : Bool × Nat) :
    Keeps s (State.relockLane s l) := by
  unfold State.relockLane
  try dsimp only
  repeat' with_reducible first
    | exact Keeps.refl _ | assumption | apply Leaves.next_of | exact Leaves.fault _ _ | exact Leaves.refused _ _
    | apply Keeps.step (State.rejoinLanes_keeps ..) | apply Keeps.step (State.setLane_keeps ..)

theorem State.setTries_keeps (s : State) (k : Nat) (v : Nat) :
    Keeps s (State.setTries s k v) := by
  unfold State.setTries
  try dsimp only
  repeat' first
    | (with_reducible first
      | exact Keeps.refl _ | assumption | apply Leaves.next_of | exact Leaves.fault _ _ | exact Leaves.refused _ _
      | apply Keeps.step (Keeps.foldl _ _ _ ?_) | apply Keeps.step (Keeps.foldl1 _ _ _ ?_))
    | (fail_if_no_progress (with_reducible apply Keeps.upd))

theorem State.retireLane_keeps (s : State) (l : Bool × Nat) :
    Keeps s (State.retireLane s l) := by
  unfold State.retireLane
  try dsimp only
  repeat' with_reducible first
    | exact Keeps.refl _ | assumption | apply Leaves.next_of | exact Leaves.fault _ _ | exact Leaves.refused _ _
    | apply Keeps.step (State.setLane_keeps ..)

theorem State.laneRelock_keeps (s : State) (tx : Bool) (n : Nat) (ok : Bool) :
    Keeps s (State.laneRelock s tx n ok) := by
  unfold State.laneRelock
  try dsimp only
  repeat' first
    | (with_reducible first
      | exact Keeps.refl _ | assumption | apply Leaves.next_of | exact Leaves.fault _ _ | exact Leaves.refused _ _
      | apply Keeps.step (State.bump_keeps ..) | apply Keeps.step (State.herdEvent_keeps ..)
      | apply Keeps.step (State.relockLane_keeps ..) | apply Keeps.step (State.setTries_keeps ..)
      | apply Keeps.step (State.retireLane_keeps ..) | apply Keeps.step (Keeps.foldl _ _ _ ?_)
      | apply Keeps.step (Keeps.foldl1 _ _ _ ?_))
    | (fail_if_no_progress (with_reducible apply Keeps.upd)) | (fail_if_no_progress (with_reducible apply Keeps.updHbm)) | split

theorem State.latchMap_keeps (s : State) :
    Keeps s (State.latchMap s) := by
  unfold State.latchMap
  try dsimp only
  repeat' first
    | (with_reducible first
      | exact Keeps.refl _ | assumption | apply Leaves.next_of | exact Leaves.fault _ _ | exact Leaves.refused _ _
      | apply Keeps.step (State.odBytes_keeps ..) | apply Keeps.step (Keeps.foldl _ _ _ ?_)
      | apply Keeps.step (Keeps.foldl1 _ _ _ ?_))
    | (fail_if_no_progress (with_reducible apply Keeps.upd)) | (fail_if_no_progress (with_reducible apply Keeps.updHbm)) | split
    | (intro _; try dsimp only)

theorem State.takeNack_keeps (s : State) (p : Nat) (nack : Option (Nat × Nat)) :
    Keeps s (State.takeNack s p nack) := by
  unfold State.takeNack
  try dsimp only
  repeat' first
    | (with_reducible first
      | exact Keeps.refl _ | assumption | apply Leaves.next_of | exact Leaves.fault _ _ | exact Leaves.refused _ _
      | apply Keeps.step (State.setLink_keeps ..) | apply Keeps.step (State.linkDown_keeps ..)
      | apply Keeps.step (State.bump_keeps ..) | apply Keeps.step (Keeps.foldl _ _ _ ?_)
      | apply Keeps.step (Keeps.foldl1 _ _ _ ?_))
    | (fail_if_no_progress (with_reducible apply Keeps.upd)) | (fail_if_no_progress (with_reducible apply Keeps.updHbm)) | split

theorem State.takeEpochBit_keeps (s : State) (p : Nat) (e : Bool) :
    Keeps s (State.takeEpochBit s p e) := by
  unfold State.takeEpochBit
  try dsimp only
  repeat' first
    | (with_reducible first
      | exact Keeps.refl _ | assumption | apply Leaves.next_of | exact Leaves.fault _ _ | exact Leaves.refused _ _
      | apply Keeps.step (State.setLink_keeps ..) | apply Keeps.step (State.bump_keeps ..)
      | apply Keeps.step (Keeps.foldl _ _ _ ?_) | apply Keeps.step (Keeps.foldl1 _ _ _ ?_))
    | (fail_if_no_progress (with_reducible apply Keeps.upd)) | (fail_if_no_progress (with_reducible apply Keeps.updHbm)) | split

theorem State.takeRepair_keeps (s : State) (p : Nat) (b : LinkFields) :
    Keeps s (State.takeRepair s p b) := by
  unfold State.takeRepair
  try dsimp only
  repeat' with_reducible first
    | exact Keeps.refl _ | assumption | apply Leaves.next_of | exact Leaves.fault _ _ | exact Leaves.refused _ _
    | apply Keeps.step (State.setLink_keeps ..)

theorem State.takeAudit_keeps (s : State) (p : Nat) (audit : Option AuditFields) :
    Keeps s (State.takeAudit s p audit) := by
  unfold State.takeAudit
  try dsimp only
  repeat' first
    | (with_reducible first
      | exact Keeps.refl _ | assumption | apply Leaves.next_of | exact Leaves.fault _ _ | exact Leaves.refused _ _
      | apply Keeps.step (State.setLink_keeps ..) | apply Keeps.step (State.bump_keeps ..)
      | apply Keeps.step (State.violate_keeps ..) | apply Keeps.step (Keeps.foldl _ _ _ ?_)
      | apply Keeps.step (Keeps.foldl1 _ _ _ ?_))
    | (fail_if_no_progress (with_reducible apply Keeps.upd)) | (fail_if_no_progress (with_reducible apply Keeps.updHbm)) | split

theorem State.linkBlock_keeps (s : State) (p : Nat) (slot : Nat) (b : LinkFields) :
    Keeps s (State.linkBlock s p slot b) := by
  unfold State.linkBlock
  try dsimp only
  repeat' first
    | (with_reducible first
      | exact Keeps.refl _ | assumption | apply Leaves.next_of | exact Leaves.fault _ _ | exact Leaves.refused _ _
      | apply Keeps.step (State.takeNack_keeps ..) | apply Keeps.step (State.setLink_keeps ..)
      | apply Keeps.step (State.retryHeld_keeps ..) | apply Keeps.step (State.takeEpochBit_keeps ..)
      | apply Keeps.step (State.takeRepair_keeps ..) | apply Keeps.step (State.auditLate_keeps ..)
      | apply Keeps.step (State.takeAudit_keeps ..) | apply Keeps.step (Keeps.foldl _ _ _ ?_)
      | apply Keeps.step (Keeps.foldl1 _ _ _ ?_))
    | (fail_if_no_progress (with_reducible apply Keeps.upd)) | (fail_if_no_progress (with_reducible apply Keeps.updHbm)) | split

theorem State.linkRecovers_keeps (s : State) :
    Keeps s (State.linkRecovers s) := by
  unfold State.linkRecovers
  try dsimp only
  repeat' with_reducible first
    | exact Keeps.refl _ | assumption | apply Leaves.next_of | exact Leaves.fault _ _ | exact Leaves.refused _ _
    | apply Keeps.step (State.linkLost_keeps ..) | apply Keeps.step (State.resetHostSide_keeps ..)
    | apply Keeps.step (State.bump_keeps ..)

theorem State.noteUsable_keeps (s : State) :
    Keeps s (State.noteUsable s) := by
  unfold State.noteUsable
  try dsimp only
  repeat' first
    | (with_reducible first
      | exact Keeps.refl _ | assumption | apply Leaves.next_of | exact Leaves.fault _ _ | exact Leaves.refused _ _
      | apply Keeps.step (Keeps.foldl _ _ _ ?_) | apply Keeps.step (Keeps.foldl1 _ _ _ ?_))
    | (fail_if_no_progress (with_reducible apply Keeps.upd))

theorem State.sendBlock_keeps (s : State) (n : Nat) (p : Nat) :
    Keeps s (State.sendBlock s n p) := by
  unfold State.sendBlock
  try dsimp only
  repeat' first
    | (with_reducible first
      | exact Keeps.refl _ | assumption | apply Leaves.next_of | exact Leaves.fault _ _ | exact Leaves.refused _ _
      | apply Keeps.step (State.setLink_keeps ..) | apply Keeps.step (Keeps.foldl _ _ _ ?_)
      | apply Keeps.step (Keeps.foldl1 _ _ _ ?_))
    | (fail_if_no_progress (with_reducible apply Keeps.upd)) | (fail_if_no_progress (with_reducible apply Keeps.updHbm)) | split

theorem State.linkSlot_keeps (s : State) (n : Nat) :
    Keeps s (State.linkSlot s n) := by
  unfold State.linkSlot
  try dsimp only
  repeat' first
    | (with_reducible first
      | exact Keeps.refl _ | assumption | apply Leaves.next_of | exact Leaves.fault _ _ | exact Leaves.refused _ _
      | apply Keeps.step (State.sendPreamble_keeps ..) | apply Keeps.step (State.retryHeld_keeps ..)
      | apply Keeps.step (State.noteUsable_keeps ..) | apply Keeps.step (State.sendBlock_keeps ..)
      | apply Keeps.step (Keeps.foldl _ _ _ ?_) | apply Keeps.step (Keeps.foldl1 _ _ _ ?_))
    | (fail_if_no_progress (with_reducible apply Keeps.upd)) | (fail_if_no_progress (with_reducible apply Keeps.updHbm)) | split
    | (intro _; try dsimp only)

theorem State.loadCells_keeps (s : State) (v : BitVec 64) :
    Keeps s (State.loadCells s v) := by
  unfold State.loadCells
  try dsimp only
  repeat' first
    | (with_reducible first
      | exact Keeps.refl _ | assumption | apply Leaves.next_of | exact Leaves.fault _ _ | exact Leaves.refused _ _
      | apply Keeps.step (Keeps.foldl _ _ _ ?_) | apply Keeps.step (Keeps.foldl1 _ _ _ ?_))
    | (fail_if_no_progress (with_reducible apply Keeps.upd))

theorem State.takeCtx_keeps (s : State) (c : Nat) (d : List Byte) :
    Keeps s (State.takeCtx s c d) := by
  unfold State.takeCtx
  try dsimp only
  repeat' first
    | (with_reducible first
      | exact Keeps.refl _ | assumption | apply Leaves.next_of | exact Leaves.fault _ _ | exact Leaves.refused _ _
      | apply Keeps.step (State.setCtx_keeps ..) | apply Keeps.step (State.parkLanes_keeps ..)
      | apply Keeps.step (Keeps.foldl _ _ _ ?_) | apply Keeps.step (Keeps.foldl1 _ _ _ ?_))
    | (fail_if_no_progress (with_reducible apply Keeps.upd))

theorem State.loadDesc_keeps (s : State) (c : Nat) (d : List Byte) :
    Keeps s (State.loadDesc s c d).1 := by
  unfold State.loadDesc
  try dsimp only
  repeat' first
    | (with_reducible first
      | exact Keeps.refl _ | assumption | apply Leaves.next_of | exact Leaves.fault _ _ | exact Leaves.refused _ _
      | apply Keeps.step (State.fetched_keeps ..) | apply Keeps.step (State.takeCtx_keeps ..)
      | apply Keeps.step (State.storageEvent_keeps ..) | apply Keeps.step (State.metPoison_keeps ..)
      | apply Keeps.step (Keeps.foldl _ _ _ ?_) | apply Keeps.step (Keeps.foldl1 _ _ _ ?_))
    | (fail_if_no_progress (with_reducible apply Keeps.upd)) | (fail_if_no_progress (with_reducible apply Keeps.updHbm)) | split

theorem State.lockTo_keeps (s : State) (t : Nat) :
    Keeps s (State.lockTo s t) := by
  unfold State.lockTo
  try dsimp only
  repeat' first
    | (with_reducible first
      | exact Keeps.refl _ | assumption | apply Leaves.next_of | exact Leaves.fault _ _ | exact Leaves.refused _ _
      | apply Keeps.step (Keeps.foldl _ _ _ ?_) | apply Keeps.step (Keeps.foldl1 _ _ _ ?_))
    | (fail_if_no_progress (with_reducible apply Keeps.upd))

theorem State.relockCut_keeps (s : State) (ch : Nat) :
    Keeps s (State.relockCut s ch) := by
  unfold State.relockCut
  try dsimp only
  repeat' first
    | (with_reducible first
      | exact Keeps.refl _ | assumption | apply Leaves.next_of | exact Leaves.fault _ _ | exact Leaves.refused _ _
      | apply Keeps.step (State.herdEvent_keeps ..) | apply Keeps.step (Keeps.foldl _ _ _ ?_)
      | apply Keeps.step (Keeps.foldl1 _ _ _ ?_))
    | (fail_if_no_progress (with_reducible apply Keeps.upd)) | (fail_if_no_progress (with_reducible apply Keeps.updHbm)) | split
    | (intro _; try dsimp only)

theorem State.loseLight_keeps (s : State) (ch : Nat) :
    Keeps s (State.loseLight s ch) := by
  unfold State.loseLight
  try dsimp only
  repeat' with_reducible first
    | exact Keeps.refl _ | assumption | apply Leaves.next_of | exact Leaves.fault _ _ | exact Leaves.refused _ _
    | apply Keeps.step (State.relockCut_keeps ..) | apply Keeps.step (State.setChurn_keeps ..)
    | apply Keeps.step (State.chSettle_keeps ..) | apply Keeps.step (State.dropStreams_keeps ..)
    | apply Keeps.step (State.setHealthy_keeps ..)

theorem State.loseObj_keeps (s : State) (i : Nat) :
    Keeps s (State.loseObj s i) := by
  unfold State.loseObj
  try dsimp only
  repeat' first
    | (with_reducible first
      | exact Keeps.refl _ | assumption | apply Leaves.next_of | exact Leaves.fault _ _ | exact Leaves.refused _ _
      | apply Keeps.step (State.storageEvent_keeps ..) | apply Keeps.step (Keeps.foldl _ _ _ ?_)
      | apply Keeps.step (Keeps.foldl1 _ _ _ ?_))
    | (fail_if_no_progress (with_reducible apply Keeps.upd)) | (fail_if_no_progress (with_reducible apply Keeps.updHbm)) | split
    | (intro _; try dsimp only)

theorem State.markEarly_keeps (s : State) (c : Nat) (pos : Nat) :
    Keeps s (State.markEarly s c pos) := by
  unfold State.markEarly
  try dsimp only
  repeat' with_reducible first
    | exact Keeps.refl _ | assumption | apply Leaves.next_of | exact Leaves.fault _ _ | exact Leaves.refused _ _
    | apply Keeps.step (State.setCtx_keeps ..)

theorem State.missBeacons_keeps (s : State) (c : Nat) :
    Keeps s (State.missBeacons s c) := by
  unfold State.missBeacons
  try dsimp only
  repeat' first
    | (with_reducible first
      | exact Keeps.refl _ | assumption | apply Leaves.next_of | exact Leaves.fault _ _ | exact Leaves.refused _ _
      | apply Keeps.step (State.setCtx_keeps ..) | apply Keeps.step (State.bump_keeps ..)
      | apply Keeps.step (Keeps.foldl _ _ _ ?_) | apply Keeps.step (Keeps.foldl1 _ _ _ ?_))
    | (fail_if_no_progress (with_reducible apply Keeps.upd)) | (fail_if_no_progress (with_reducible apply Keeps.updHbm)) | split

theorem State.multicast_keeps (s : State) (t : MilkTask) (bytes : List Byte) :
    Keeps s (State.multicast s t bytes) := by
  unfold State.multicast
  try dsimp only
  repeat' first
    | (with_reducible first
      | exact Keeps.refl _ | assumption | apply Leaves.next_of | exact Leaves.fault _ _ | exact Leaves.refused _ _
      | apply Keeps.step (State.setWin_keeps ..) | apply Keeps.step (State.drawn_keeps ..)
      | apply Keeps.step (Keeps.foldl _ _ _ ?_) | apply Keeps.step (Keeps.foldl1 _ _ _ ?_))
    | (fail_if_no_progress (with_reducible apply Keeps.upd)) | (fail_if_no_progress (with_reducible apply Keeps.updHbm)) | split
    | (intro _; try dsimp only)

theorem State.noteCool_keeps (s : State) (k : Nat) (t : Int) :
    Keeps s (State.noteCool s k t) := by
  unfold State.noteCool
  try dsimp only
  repeat' first
    | (with_reducible first
      | exact Keeps.refl _ | assumption | apply Leaves.next_of | exact Leaves.fault _ _ | exact Leaves.refused _ _
      | apply Keeps.step (Keeps.foldl _ _ _ ?_) | apply Keeps.step (Keeps.foldl1 _ _ _ ?_))
    | (fail_if_no_progress (with_reducible apply Keeps.upd)) | (fail_if_no_progress (with_reducible apply Keeps.updHbm)) | split
    | (intro _; try dsimp only)

theorem State.noteTemp_keeps (s : State) (n : Nat) (temp : Int) :
    Keeps s (State.noteTemp s n temp) := by
  unfold State.noteTemp
  try dsimp only
  repeat' first
    | (with_reducible first
      | exact Keeps.refl _ | assumption | apply Leaves.next_of | exact Leaves.fault _ _ | exact Leaves.refused _ _
      | apply Keeps.step (Keeps.foldl _ _ _ ?_) | apply Keeps.step (Keeps.foldl1 _ _ _ ?_))
    | (fail_if_no_progress (with_reducible apply Keeps.upd))

theorem State.optBlock_keeps (s : State) (c : Nat) (d : List Byte) (sc : Word) (k : Nat) :
    Keeps s (State.optBlock s c d sc k).1 := by
  unfold State.optBlock
  try dsimp only
  repeat' first
    | (with_reducible first
      | exact Keeps.refl _ | assumption | apply Leaves.next_of | exact Leaves.fault _ _ | exact Leaves.refused _ _
      | apply Keeps.step (State.fetched_keeps ..) | apply Keeps.step (State.routineWrite_keeps ..)
      | apply Keeps.step (State.routineFlags_keeps ..) | apply Keeps.step (Keeps.foldl _ _ _ ?_)
      | apply Keeps.step (Keeps.foldl1 _ _ _ ?_))
    | (fail_if_no_progress (with_reducible apply Keeps.upd)) | (fail_if_no_progress (with_reducible apply Keeps.updHbm)) | split
    | (intro _; try dsimp only)

theorem State.optEnd_keeps (s : State) (c : Nat) (pos : Nat) (ma : Nat) (d : List Byte) (st : Nat) :
    Keeps s (State.optEnd s c pos ma d st) := by
  unfold State.optEnd
  try dsimp only
  repeat' first
    | (with_reducible first
      | exact Keeps.refl _ | assumption | apply Leaves.next_of | exact Leaves.fault _ _ | exact Leaves.refused _ _
      | apply Keeps.step (State.bump_keeps ..) | apply Keeps.step (State.routineWrite_keeps ..)
      | apply Keeps.step (State.signal_keeps ..) | apply Keeps.step (State.routineDone_keeps ..)
      | apply Keeps.step (Keeps.foldl _ _ _ ?_) | apply Keeps.step (Keeps.foldl1 _ _ _ ?_))
    | (fail_if_no_progress (with_reducible apply Keeps.upd)) | (fail_if_no_progress (with_reducible apply Keeps.updHbm)) | split

theorem State.setRings_keeps (s : State) (f : StartFinding) :
    Keeps s (State.setRings s f) := by
  unfold State.setRings
  try dsimp only
  repeat' first
    | (with_reducible first
      | exact Keeps.refl _ | assumption | apply Leaves.next_of | exact Leaves.fault _ _ | exact Leaves.refused _ _
      | apply Keeps.step (State.odp_keeps ..) | apply Keeps.step (Keeps.foldl _ _ _ ?_)
      | apply Keeps.step (Keeps.foldl1 _ _ _ ?_))
    | (fail_if_no_progress (with_reducible apply Keeps.upd)) | (fail_if_no_progress (with_reducible apply Keeps.updHbm)) | split
    | (intro _; try dsimp only)

theorem State.opticsUp_keeps (s : State) (f : StartFinding) :
    Keeps s (State.opticsUp s f) := by
  unfold State.opticsUp
  try dsimp only
  repeat' first
    | (with_reducible first
      | exact Keeps.refl _ | assumption | apply Leaves.next_of | exact Leaves.fault _ _ | exact Leaves.refused _ _
      | apply Keeps.step (State.setRings_keeps ..) | apply Keeps.step (State.setLane_keeps ..)
      | apply Keeps.step (State.herdEvent_keeps ..) | apply Keeps.step (State.retireLane_keeps ..)
      | apply Keeps.step (State.lightPlan_keeps ..) | apply Keeps.step (State.odp_keeps ..)
      | apply Keeps.step (Keeps.foldl _ _ _ ?_) | apply Keeps.step (Keeps.foldl1 _ _ _ ?_))
    | (fail_if_no_progress (with_reducible apply Keeps.upd)) | (fail_if_no_progress (with_reducible apply Keeps.updHbm)) | split
    | (intro _; try dsimp only)

theorem State.orDark_keeps (s : State) (ch : Nat) :
    Keeps s (State.orDark s ch) := by
  unfold State.orDark
  try dsimp only
  repeat' first
    | (with_reducible first
      | exact Keeps.refl _ | assumption | apply Leaves.next_of | exact Leaves.fault _ _ | exact Leaves.refused _ _
      | apply Keeps.step (State.loseLight_keeps ..) | apply Keeps.step (Keeps.foldl _ _ _ ?_)
      | apply Keeps.step (Keeps.foldl1 _ _ _ ?_))
    | (fail_if_no_progress (with_reducible apply Keeps.upd)) | (fail_if_no_progress (with_reducible apply Keeps.updHbm)) | split

theorem State.pairIn_keeps (s : State) (t : CollTask) (p : Nat × Nat) :
    Keeps s (State.pairIn s t p) := by
  unfold State.pairIn
  try dsimp only
  repeat' first
    | (with_reducible first
      | exact Keeps.refl _ | assumption | apply Leaves.next_of | exact Leaves.fault _ _ | exact Leaves.refused _ _
      | apply Keeps.step (State.collDone_keeps ..) | apply Keeps.step (State.exchange_keeps ..)
      | apply Keeps.step (State.setColl_keeps ..) | apply Keeps.step (Keeps.foldl _ _ _ ?_)
      | apply Keeps.step (Keeps.foldl1 _ _ _ ?_))
    | (fail_if_no_progress (with_reducible apply Keeps.upd)) | (fail_if_no_progress (with_reducible apply Keeps.updHbm)) | split

theorem State.parcelIn_keeps (s : State) (t : MilkTask) (sender : Nat) (rows : List Byte) :
    Keeps s (State.parcelIn s t sender rows) := by
  unfold State.parcelIn
  try dsimp only
  repeat' first
    | (with_reducible first
      | exact Keeps.refl _ | assumption | apply Leaves.next_of | exact Leaves.fault _ _ | exact Leaves.refused _ _
      | apply Keeps.step (State.milkGo_keeps ..) | apply Keeps.step (State.routineWrite_keeps ..)
      | apply Keeps.step (Keeps.foldl _ _ _ ?_) | apply Keeps.step (Keeps.foldl1 _ _ _ ?_))
    | (fail_if_no_progress (with_reducible apply Keeps.upd)) | (fail_if_no_progress (with_reducible apply Keeps.updHbm)) | split

theorem State.putRecord_keeps (s : State) (sp : Nat) (a : Nat) (c : Nat) (r : List Byte) :
    Keeps s (State.putRecord s sp a c r) := by
  unfold State.putRecord
  try dsimp only
  repeat' first
    | (with_reducible first
      | exact Keeps.refl _ | assumption | apply Leaves.next_of | exact Leaves.fault _ _ | exact Leaves.refused _ _
      | apply Keeps.step (State.writeRun_keeps ..) | apply Keeps.step (State.storageEvent_keeps ..)
      | apply Keeps.step (State.putStoreRun_keeps ..) | apply Keeps.step (Keeps.foldl _ _ _ ?_)
      | apply Keeps.step (Keeps.foldl1 _ _ _ ?_))
    | (fail_if_no_progress (with_reducible apply Keeps.upd)) | (fail_if_no_progress (with_reducible apply Keeps.updHbm)) | split

theorem State.readEntry_keeps (s : State) (die : Nat) (c : Nat) (sp : Nat) (a : Nat) (env : XferEnv) :
    Keeps s (State.readEntry s die c sp a env).1 := by
  unfold State.readEntry
  try dsimp only
  repeat' first
    | (with_reducible first
      | exact Keeps.refl _ | assumption | apply Leaves.next_of | exact Leaves.fault _ _ | exact Leaves.refused _ _
      | apply Keeps.step (State.xferReplays_keeps ..) | apply Keeps.step (State.readRange_keeps ..)
      | apply Keeps.step (State.replaysEnd_keeps ..) | apply Keeps.step (State.storageEvent_keeps ..)
      | apply Keeps.step (State.metPoison_keeps ..) | apply Keeps.step (Keeps.foldl _ _ _ ?_)
      | apply Keeps.step (Keeps.foldl1 _ _ _ ?_))
    | (fail_if_no_progress (with_reducible apply Keeps.upd)) | (fail_if_no_progress (with_reducible apply Keeps.updHbm)) | split

theorem State.readGroup_keeps (s : State) (c : Nat) (k : Nat) :
    Keeps s (State.readGroup s c k).1 := by
  unfold State.readGroup
  try dsimp only
  repeat' first
    | (with_reducible first
      | exact Keeps.refl _ | assumption | apply Leaves.next_of | exact Leaves.fault _ _ | exact Leaves.refused _ _
      | apply Keeps.step (State.routineRead_keeps ..) | apply Keeps.step (Keeps.foldl _ _ _ ?_)
      | apply Keeps.step (Keeps.foldl1 _ _ _ ?_))
    | (fail_if_no_progress (with_reducible apply Keeps.upd)) | (fail_if_no_progress (with_reducible apply Keeps.updHbm)) | split

theorem State.readHead_keeps (s : State) (head : Nat) (rspDone : Nat) :
    Keeps s (State.readHead s head rspDone) := by
  unfold State.readHead
  try dsimp only
  repeat' first
    | (with_reducible first
      | exact Keeps.refl _ | assumption | apply Leaves.next_of | exact Leaves.fault _ _ | exact Leaves.refused _ _
      | apply Keeps.step (State.drainAll_keeps ..) | apply Keeps.step (Keeps.foldl _ _ _ ?_)
      | apply Keeps.step (Keeps.foldl1 _ _ _ ?_))
    | (fail_if_no_progress (with_reducible apply Keeps.upd))

theorem State.readMoves_keeps (s : State) (alloc : Bool) (ecc : List (BitVec 34 × EccFinding)) (len : Nat) (ms : List Move) :
    Keeps s (State.readMoves s alloc ecc len ms) := by
  unfold State.readMoves
  try dsimp only
  repeat' first
    | (with_reducible first
      | exact Keeps.refl _ | assumption | apply Leaves.next_of | exact Leaves.fault _ _ | exact Leaves.refused _ _
      | apply Keeps.step (State.readSector_keeps ..) | apply Keeps.step (Keeps.foldl _ _ _ ?_)
      | apply Keeps.step (Keeps.foldl1 _ _ _ ?_))
    | (fail_if_no_progress (with_reducible apply Keeps.upd)) | (fail_if_no_progress (with_reducible apply Keeps.updHbm)) | split
    | (intro _; try dsimp only)

theorem State.readObj_keeps (s : State) (core : Nat) (o : Nat) (bad : BitVec 2) :
    Keeps s (State.readObj s core o bad) := by
  unfold State.readObj
  try dsimp only
  repeat' first
    | (with_reducible first
      | exact Keeps.refl _ | assumption | apply Leaves.next_of | exact Leaves.fault _ _ | exact Leaves.refused _ _
      | apply Keeps.step (State.loseObj_keeps ..) | apply Keeps.step (State.replayed_keeps ..)
      | apply Keeps.step (Keeps.foldl _ _ _ ?_) | apply Keeps.step (Keeps.foldl1 _ _ _ ?_))
    | (fail_if_no_progress (with_reducible apply Keeps.upd)) | (fail_if_no_progress (with_reducible apply Keeps.updHbm)) | split

theorem State.reducePower_keeps (s : State) :
    Keeps s (State.reducePower s) := by
  unfold State.reducePower
  try dsimp only
  repeat' first
    | (with_reducible first
      | exact Keeps.refl _ | assumption | apply Leaves.next_of | exact Leaves.fault _ _ | exact Leaves.refused _ _
      | apply Keeps.step (State.settleRamps_keeps ..) | apply Keeps.step (Keeps.foldl _ _ _ ?_)
      | apply Keeps.step (Keeps.foldl1 _ _ _ ?_))
    | (fail_if_no_progress (with_reducible apply Keeps.upd)) | (fail_if_no_progress (with_reducible apply Keeps.updHbm)) | split

theorem State.relit_keeps (s : State) (ch : Nat) (locked : BitVec 4) (f : CalFinding) :
    Keeps s (State.relit s ch locked f) := by
  unfold State.relit
  try dsimp only
  repeat' with_reducible first
    | exact Keeps.refl _ | assumption | apply Leaves.next_of | exact Leaves.fault _ _ | exact Leaves.refused _ _
    | apply Keeps.step (State.setChurn_keeps ..) | apply Keeps.step (State.applyCal_keeps ..)
    | apply Keeps.step (State.setHealthy_keeps ..) | apply Keeps.step (State.chSettleAll_keeps ..)
    | apply Keeps.step (State.orDark_keeps ..) | apply Keeps.step (State.calsDone_keeps ..)

theorem State.reloadBanks_keeps (s : State) (ch : Nat) :
    Keeps s (State.reloadBanks s ch) := by
  unfold State.reloadBanks
  try dsimp only
  repeat' first
    | (with_reducible first
      | exact Keeps.refl _ | assumption | apply Leaves.next_of | exact Leaves.fault _ _ | exact Leaves.refused _ _
      | apply Keeps.step (State.setChurn_keeps ..) | apply Keeps.step (Keeps.foldl _ _ _ ?_)
      | apply Keeps.step (Keeps.foldl1 _ _ _ ?_))
    | (fail_if_no_progress (with_reducible apply Keeps.upd)) | (fail_if_no_progress (with_reducible apply Keeps.updHbm)) | split

theorem State.remapSync_keeps (s : State) :
    Keeps s (State.remapSync s) := by
  unfold State.remapSync
  try dsimp only
  repeat' first
    | (with_reducible first
      | exact Keeps.refl _ | assumption | apply Leaves.next_of | exact Leaves.fault _ _ | exact Leaves.refused _ _
      | apply Keeps.step (State.herdEvent_keeps ..) | apply Keeps.step (State.request_keeps ..)
      | apply Keeps.step (Keeps.foldl _ _ _ ?_) | apply Keeps.step (Keeps.foldl1 _ _ _ ?_))
    | (fail_if_no_progress (with_reducible apply Keeps.upd)) | (fail_if_no_progress (with_reducible apply Keeps.updHbm)) | split
    | (intro _; try dsimp only)

theorem State.reserve_keeps (s : State) (k : Nat) (n : Nat) (id : Nat) (job : Nat) (owner : Option (Nat × Nat)) :
    Keeps s (State.reserve s k n id job owner) := by
  unfold State.reserve
  try dsimp only
  repeat' with_reducible first
    | exact Keeps.refl _ | assumption | apply Leaves.next_of | exact Leaves.fault _ _ | exact Leaves.refused _ _
    | apply Keeps.step (State.setWin_keeps ..)

theorem State.resumeStreams_keeps (s : State) (ch : Nat) :
    Keeps s (State.resumeStreams s ch) := by
  unfold State.resumeStreams
  try dsimp only
  repeat' first
    | (with_reducible first
      | exact Keeps.refl _ | assumption | apply Leaves.next_of | exact Leaves.fault _ _ | exact Leaves.refused _ _
      | apply Keeps.step (State.setChurn_keeps ..) | apply Keeps.step (State.dropStreams_keeps ..)
      | apply Keeps.step (Keeps.foldl _ _ _ ?_) | apply Keeps.step (Keeps.foldl1 _ _ _ ?_))
    | (fail_if_no_progress (with_reducible apply Keeps.upd)) | (fail_if_no_progress (with_reducible apply Keeps.updHbm)) | split

theorem State.restoreChurn_keeps (s : State) (inc : Nat) (ch : Nat) :
    Keeps s (State.restoreChurn s inc ch) := by
  unfold State.restoreChurn
  try dsimp only
  repeat' first
    | (with_reducible first
      | exact Keeps.refl _ | assumption | apply Leaves.next_of | exact Leaves.fault _ _ | exact Leaves.refused _ _
      | apply Keeps.step (State.setChurn_keeps ..) | apply Keeps.step (State.reloadBanks_keeps ..)
      | apply Keeps.step (State.chSettleAll_keeps ..) | apply Keeps.step (State.chRefill_keeps ..)
      | apply Keeps.step (State.resumeStreams_keeps ..) | apply Keeps.step (Keeps.foldl _ _ _ ?_)
      | apply Keeps.step (Keeps.foldl1 _ _ _ ?_))
    | (fail_if_no_progress (with_reducible apply Keeps.upd)) | (fail_if_no_progress (with_reducible apply Keeps.updHbm)) | split

theorem State.timedRun_keeps (s : State) (op : Nat) (act : State → Nat → Nat → PlanEntry → State) (hact : ∀ u x1 x2 x3, Keeps u (act u x1 x2 x3)) :
    Keeps s (State.timedRun s op act) := by
  unfold State.timedRun
  try dsimp only
  repeat' first
    | (with_reducible first
      | exact Keeps.refl _ | assumption | apply Leaves.next_of | exact Leaves.fault _ _ | exact Leaves.refused _ _
      | apply Keeps.step (hact ..) | apply Keeps.step (State.entryStarts_keeps ..) | apply Keeps.step (State.setCtx_keeps ..)
      | apply Keeps.step (Keeps.foldl _ _ _ ?_) | apply Keeps.step (Keeps.foldl1 _ _ _ ?_))
    | (fail_if_no_progress (with_reducible apply Keeps.upd)) | (fail_if_no_progress (with_reducible apply Keeps.updHbm)) | split

theorem State.timedRunIn_keeps (s : State) (env : MemEnv) (op : Nat) (act : State → Nat → Nat → PlanEntry → State) (hact : ∀ u x1 x2
    x3, Keeps u (act u x1 x2 x3)) :
    Keeps s (State.timedRunIn s env op act) := by
  unfold State.timedRunIn
  try dsimp only
  repeat' first
    | (with_reducible first
      | exact Keeps.refl _ | assumption | apply Leaves.next_of | exact Leaves.fault _ _ | exact Leaves.refused _ _
      | apply Keeps.step (hact ..) | apply Keeps.step (State.within_keeps _ _ _ ?_)
      | apply Keeps.step (State.timedRun_keeps _ _ _ ?_) | apply Keeps.step (Keeps.foldl _ _ _ ?_)
      | apply Keeps.step (Keeps.foldl1 _ _ _ ?_))
    | (fail_if_no_progress (with_reducible apply Keeps.upd)) | (fail_if_no_progress (with_reducible apply Keeps.updHbm)) | split
    | (intro _; try dsimp only)

theorem State.stopCtx_keeps (s : State) (c : Nat) (status : Nat) (tag : Nat) :
    Keeps s (State.stopCtx s c status tag) := by
  unfold State.stopCtx
  try dsimp only
  repeat' with_reducible first
    | exact Keeps.refl _ | assumption | apply Leaves.next_of | exact Leaves.fault _ _ | exact Leaves.refused _ _
    | apply Keeps.step (State.jobEvent_keeps ..) | apply Keeps.step (State.setCtx_keeps ..)

theorem State.resumeCtx_keeps (s : State) (c : Nat) :
    Keeps s (State.resumeCtx s c) := by
  unfold State.resumeCtx
  try dsimp only
  repeat' first
    | (with_reducible first
      | exact Keeps.refl _ | assumption | apply Leaves.next_of | exact Leaves.fault _ _ | exact Leaves.refused _ _
      | apply Keeps.step (State.markBoundary_keeps ..) | apply Keeps.step (State.setCtx_keeps ..)
      | apply Keeps.step (State.beginStep_keeps ..) | apply Keeps.step (Keeps.foldl _ _ _ ?_)
      | apply Keeps.step (Keeps.foldl1 _ _ _ ?_))
    | (fail_if_no_progress (with_reducible apply Keeps.upd)) | (fail_if_no_progress (with_reducible apply Keeps.updHbm)) | split

theorem State.resumeAt_keeps (s : State) (n : Nat) :
    Keeps s (State.resumeAt s n) := by
  unfold State.resumeAt
  try dsimp only
  repeat' first
    | (with_reducible first
      | exact Keeps.refl _ | assumption | apply Leaves.next_of | exact Leaves.fault _ _ | exact Leaves.refused _ _
      | apply Keeps.step (State.resumeCtx_keeps ..) | apply Keeps.step (State.sendBeacons_keeps ..)
      | apply Keeps.step (Keeps.foldl _ _ _ ?_) | apply Keeps.step (Keeps.foldl1 _ _ _ ?_))
    | (fail_if_no_progress (with_reducible apply Keeps.upd)) | (fail_if_no_progress (with_reducible apply Keeps.updHbm)) | split

theorem State.ringRelock_keeps (s : State) (r : Bool × Nat × Nat) (ok : Bool) :
    Keeps s (State.ringRelock s r ok) := by
  unfold State.ringRelock
  try dsimp only
  repeat' first
    | (with_reducible first
      | exact Keeps.refl _ | assumption | apply Leaves.next_of | exact Leaves.fault _ _ | exact Leaves.refused _ _
      | apply Keeps.step (State.bump_keeps ..) | apply Keeps.step (State.setTries_keeps ..)
      | apply Keeps.step (State.rejoinLanes_keeps ..) | apply Keeps.step (State.odp_keeps ..)
      | apply Keeps.step (Keeps.foldl _ _ _ ?_) | apply Keeps.step (Keeps.foldl1 _ _ _ ?_))
    | (fail_if_no_progress (with_reducible apply Keeps.upd)) | (fail_if_no_progress (with_reducible apply Keeps.updHbm)) | split

theorem State.roundStart_keeps (s : State) (t : MilkTask) :
    Keeps s (State.roundStart s t) := by
  unfold State.roundStart
  try dsimp only
  repeat' first
    | (with_reducible first
      | exact Keeps.refl _ | assumption | apply Leaves.next_of | exact Leaves.fault _ _ | exact Leaves.refused _ _
      | apply Keeps.step (State.routineRead_keeps ..) | apply Keeps.step (State.milkGo_keeps ..)
      | apply Keeps.step (State.bump_keeps ..) | apply Keeps.step (State.multicast_keeps ..)
      | apply Keeps.step (Keeps.foldl _ _ _ ?_) | apply Keeps.step (Keeps.foldl1 _ _ _ ?_))
    | (fail_if_no_progress (with_reducible apply Keeps.upd)) | (fail_if_no_progress (with_reducible apply Keeps.updHbm)) | split

theorem State.rxFlit_keeps (s : State) (p : Nat) (down : State → State) (f : RxFlit) (hdown : ∀ u, Keeps u (down u)) :
    Keeps s (State.rxFlit s p down f) := by
  unfold State.rxFlit
  try dsimp only
  repeat' first
    | (with_reducible first
      | exact Keeps.refl _ | assumption | apply Leaves.next_of | exact Leaves.fault _ _ | exact Leaves.refused _ _
      | apply Keeps.step (hdown ..) | apply Keeps.step (State.setLink_keeps ..)
      | apply Keeps.step (State.badFlit_keeps _ _ _ _ ?_) | apply Keeps.step (State.bodyFlit_keeps ..)
      | apply Keeps.step (State.headFlit_keeps ..) | apply Keeps.step (Keeps.foldl _ _ _ ?_)
      | apply Keeps.step (Keeps.foldl1 _ _ _ ?_))
    | (fail_if_no_progress (with_reducible apply Keeps.upd)) | (fail_if_no_progress (with_reducible apply Keeps.updHbm)) | split

theorem State.underPresence_keeps (s : State) (act : State → State × Nat) (hact : ∀ u, Keeps u (act u).1) :
    Keeps s (State.underPresence s act).1 := by
  unfold State.underPresence
  try dsimp only
  repeat' first
    | (with_reducible first
      | exact Keeps.refl _ | assumption | apply Leaves.next_of | exact Leaves.fault _ _ | exact Leaves.refused _ _
      | apply Keeps.step (hact ..) | apply Keeps.step (Keeps.foldl _ _ _ ?_) | apply Keeps.step (Keeps.foldl1 _ _ _ ?_))
    | (fail_if_no_progress (with_reducible apply Keeps.upd)) | (fail_if_no_progress (with_reducible apply Keeps.updHbm)) | split

theorem State.secWrite_keeps (s : State) (act : State → State × Nat) (hact : ∀ u, Keeps u (act u).1) :
    Keeps s (State.secWrite s act) := by
  unfold State.secWrite
  try dsimp only
  repeat' first
    | (with_reducible first
      | exact Keeps.refl _ | assumption | apply Leaves.next_of | exact Leaves.fault _ _ | exact Leaves.refused _ _
      | apply Keeps.step (hact ..) | apply Keeps.step (State.underPresence_keeps _ _ ?_)
      | apply Keeps.step (State.answered_keeps ..) | apply Keeps.step (Keeps.foldl _ _ _ ?_)
      | apply Keeps.step (Keeps.foldl1 _ _ _ ?_))
    | (fail_if_no_progress (with_reducible apply Keeps.upd)) | (fail_if_no_progress (with_reducible apply Keeps.updHbm)) | split

theorem State.sectionIn_keeps (s : State) (t : MilkTask) (bytes : List Byte) :
    Keeps s (State.sectionIn s t bytes) := by
  unfold State.sectionIn
  try dsimp only
  repeat' first
    | (with_reducible first
      | exact Keeps.refl _ | assumption | apply Leaves.next_of | exact Leaves.fault _ _ | exact Leaves.refused _ _
      | apply Keeps.step (State.milkGo_keeps ..) | apply Keeps.step (Keeps.foldl _ _ _ ?_)
      | apply Keeps.step (Keeps.foldl1 _ _ _ ?_))
    | (fail_if_no_progress (with_reducible apply Keeps.upd)) | (fail_if_no_progress (with_reducible apply Keeps.updHbm)) | split

theorem State.sendDone_keeps (s : State) (key : Nat) (h : Nat) :
    Keeps s (State.sendDone s key h) := by
  unfold State.sendDone
  try dsimp only
  repeat' first
    | (with_reducible first
      | exact Keeps.refl _ | assumption | apply Leaves.next_of | exact Leaves.fault _ _ | exact Leaves.refused _ _
      | apply Keeps.step (State.dmaSettle_keeps ..) | apply Keeps.step (State.dmaFinish_keeps ..)
      | apply Keeps.step (Keeps.foldl _ _ _ ?_) | apply Keeps.step (Keeps.foldl1 _ _ _ ?_))
    | (fail_if_no_progress (with_reducible apply Keeps.upd)) | (fail_if_no_progress (with_reducible apply Keeps.updHbm)) | split

theorem State.sendOwn_keeps (s : State) (p : Packet) :
    Keeps s (State.sendOwn s p) := by
  unfold State.sendOwn
  try dsimp only
  repeat' with_reducible first
    | exact Keeps.refl _ | assumption | apply Leaves.next_of | exact Leaves.fault _ _ | exact Leaves.refused _ _
    | apply Keeps.step (State.route_keeps ..) | apply Keeps.step (State.enter_keeps ..)

theorem State.setProbe_keeps (s : State) (p : Nat) (x : Probe) :
    Keeps s (State.setProbe s p x) := by
  unfold State.setProbe
  try dsimp only
  repeat' first
    | (with_reducible first
      | exact Keeps.refl _ | assumption | apply Leaves.next_of | exact Leaves.fault _ _ | exact Leaves.refused _ _
      | apply Keeps.step (Keeps.foldl _ _ _ ?_) | apply Keeps.step (Keeps.foldl1 _ _ _ ?_))
    | (fail_if_no_progress (with_reducible apply Keeps.upd))

theorem State.sendProbe_keeps (s : State) (p : Nat) :
    Keeps s (State.sendProbe s p) := by
  unfold State.sendProbe
  try dsimp only
  repeat' first
    | (with_reducible first
      | exact Keeps.refl _ | assumption | apply Leaves.next_of | exact Leaves.fault _ _ | exact Leaves.refused _ _
      | apply Keeps.step (State.bump_keeps ..) | apply Keeps.step (State.setProbe_keeps ..)
      | apply Keeps.step (Keeps.foldl _ _ _ ?_) | apply Keeps.step (Keeps.foldl1 _ _ _ ?_))
    | (fail_if_no_progress (with_reducible apply Keeps.upd)) | (fail_if_no_progress (with_reducible apply Keeps.updHbm)) | split

theorem State.setCool_keeps (s : State) (n : Nat) (v : Nat) :
    Keeps s (State.setCool s n v) := by
  unfold State.setCool
  try dsimp only
  repeat' first
    | (with_reducible first
      | exact Keeps.refl _ | assumption | apply Leaves.next_of | exact Leaves.fault _ _ | exact Leaves.refused _ _
      | apply Keeps.step (Keeps.foldl _ _ _ ?_) | apply Keeps.step (Keeps.foldl1 _ _ _ ?_))
    | (fail_if_no_progress (with_reducible apply Keeps.upd))

theorem State.setDbgReg_keeps (s : State) (core : Nat) (c : Nat) (sel : Nat) (v : Dword) :
    Keeps s (State.setDbgReg s core c sel v) := by
  unfold State.setDbgReg
  try dsimp only
  repeat' first
    | (with_reducible first
      | exact Keeps.refl _ | assumption | apply Leaves.next_of | exact Leaves.fault _ _ | exact Leaves.refused _ _
      | apply Keeps.step (State.setFile_keeps ..) | apply Keeps.step (State.setPail_keeps ..)
      | apply Keeps.step (Keeps.foldl _ _ _ ?_) | apply Keeps.step (Keeps.foldl1 _ _ _ ?_))
    | (fail_if_no_progress (with_reducible apply Keeps.upd)) | (fail_if_no_progress (with_reducible apply Keeps.updHbm)) | split

theorem State.setIlim_keeps (s : State) (n : Nat) (f : Nat) :
    Keeps s (State.setIlim s n f) := by
  unfold State.setIlim
  try dsimp only
  repeat' first
    | (with_reducible first
      | exact Keeps.refl _ | assumption | apply Leaves.next_of | exact Leaves.fault _ _ | exact Leaves.refused _ _
      | apply Keeps.step (Keeps.foldl _ _ _ ?_) | apply Keeps.step (Keeps.foldl1 _ _ _ ?_))
    | (fail_if_no_progress (with_reducible apply Keeps.upd))

theorem State.setObj_keeps (s : State) (i : Nat) (t : BitVec 2) (v : Dword) :
    Keeps s (State.setObj s i t v) := by
  unfold State.setObj
  try dsimp only
  repeat' first
    | (with_reducible first
      | exact Keeps.refl _ | assumption | apply Leaves.next_of | exact Leaves.fault _ _ | exact Leaves.refused _ _
      | apply Keeps.step (State.touchObj_keeps ..) | apply Keeps.step (Keeps.foldl _ _ _ ?_)
      | apply Keeps.step (Keeps.foldl1 _ _ _ ?_))
    | (fail_if_no_progress (with_reducible apply Keeps.upd)) | (fail_if_no_progress (with_reducible apply Keeps.updHbm)) | split

theorem State.setTrigMode_keeps (s : State) (m : Nat) :
    Keeps s (State.setTrigMode s m) := by
  unfold State.setTrigMode
  try dsimp only
  repeat' first
    | (with_reducible first
      | exact Keeps.refl _ | assumption | apply Leaves.next_of | exact Leaves.fault _ _ | exact Leaves.refused _ _
      | apply Keeps.step (Keeps.foldl _ _ _ ?_) | apply Keeps.step (Keeps.foldl1 _ _ _ ?_))
    | (fail_if_no_progress (with_reducible apply Keeps.upd))

theorem State.settleBallast_keeps (s : State) :
    Keeps s (State.settleBallast s) := by
  unfold State.settleBallast
  try dsimp only
  repeat' first
    | (with_reducible first
      | exact Keeps.refl _ | assumption | apply Leaves.next_of | exact Leaves.fault _ _ | exact Leaves.refused _ _
      | apply Keeps.step (Keeps.foldl _ _ _ ?_) | apply Keeps.step (Keeps.foldl1 _ _ _ ?_))
    | (fail_if_no_progress (with_reducible apply Keeps.upd))

theorem State.startHead_keeps (s : State) (ch : Nat) (e : ChExec) :
    Keeps s (State.startHead s ch e) := by
  unfold State.startHead
  try dsimp only
  repeat' with_reducible first
    | exact Keeps.refl _ | assumption | apply Leaves.next_of | exact Leaves.fault _ _ | exact Leaves.refused _ _
    | apply Keeps.step (State.setChurn_keeps ..)

theorem State.startRegion_keeps (s : State) (c : Nat) (pc : Nat) (region : Nat) :
    Keeps s (State.startRegion s c pc region) := by
  unfold State.startRegion
  try dsimp only
  repeat' first
    | (with_reducible first
      | exact Keeps.refl _ | assumption | apply Leaves.next_of | exact Leaves.fault _ _ | exact Leaves.refused _ _
      | apply Keeps.step (State.setFile_keeps ..) | apply Keeps.step (Keeps.foldl _ _ _ ?_)
      | apply Keeps.step (Keeps.foldl1 _ _ _ ?_))
    | (fail_if_no_progress (with_reducible apply Keeps.upd)) | (fail_if_no_progress (with_reducible apply Keeps.updHbm)) | split
    | (intro _; try dsimp only)

theorem State.startShares_keeps (s : State) :
    Keeps s (State.startShares s) := by
  unfold State.startShares
  try dsimp only
  repeat' first
    | (with_reducible first
      | exact Keeps.refl _ | assumption | apply Leaves.next_of | exact Leaves.fault _ _ | exact Leaves.refused _ _
      | apply Keeps.step (Keeps.foldl _ _ _ ?_) | apply Keeps.step (Keeps.foldl1 _ _ _ ?_))
    | (fail_if_no_progress (with_reducible apply Keeps.upd)) | (fail_if_no_progress (with_reducible apply Keeps.updHbm)) | split
    | (intro _; try dsimp only)

theorem State.startStream_keeps (s : State) (ch : Nat) (cmd : List Byte) (parity : Option (BitVec 12)) :
    Keeps s (State.startStream s ch cmd parity) := by
  unfold State.startStream
  try dsimp only
  repeat' first
    | (with_reducible first
      | exact Keeps.refl _ | assumption | apply Leaves.next_of | exact Leaves.fault _ _ | exact Leaves.refused _ _
      | apply Keeps.step (State.beginStream_keeps ..) | apply Keeps.step (State.chSettle_keeps ..)
      | apply Keeps.step (State.shadowStream_keeps ..) | apply Keeps.step (State.setChurn_keeps ..)
      | apply Keeps.step (State.chSettleAll_keeps ..) | apply Keeps.step (State.chComplete_keeps ..)
      | apply Keeps.step (State.dropHead_keeps ..) | apply Keeps.step (State.boundary_keeps ..)
      | apply Keeps.step (Keeps.foldl _ _ _ ?_) | apply Keeps.step (Keeps.foldl1 _ _ _ ?_))
    | (fail_if_no_progress (with_reducible apply Keeps.upd)) | (fail_if_no_progress (with_reducible apply Keeps.updHbm)) | split

theorem State.stateWrite_keeps (s : State) (t : ModState) (cleared : Bool) :
    Keeps s (State.stateWrite s t cleared) := by
  unfold State.stateWrite
  try dsimp only
  repeat' first
    | (with_reducible first
      | exact Keeps.refl _ | assumption | apply Leaves.next_of | exact Leaves.fault _ _ | exact Leaves.refused _ _
      | apply Keeps.step (State.answered_keeps ..) | apply Keeps.step (State.takeState_keeps ..)
      | apply Keeps.step (Keeps.foldl _ _ _ ?_) | apply Keeps.step (Keeps.foldl1 _ _ _ ?_))
    | (fail_if_no_progress (with_reducible apply Keeps.upd)) | (fail_if_no_progress (with_reducible apply Keeps.updHbm)) | split

theorem State.steerLane_keeps (s : State) (stack : Nat) (channel : Nat) :
    Keeps s (State.steerLane s stack channel) := by
  unfold State.steerLane
  try dsimp only
  repeat' first
    | (with_reducible first
      | exact Keeps.refl _ | assumption | apply Leaves.next_of | exact Leaves.fault _ _ | exact Leaves.refused _ _
      | apply Keeps.step (State.bump_keeps ..) | apply Keeps.step (State.request_keeps ..)
      | apply Keeps.step (State.stackFails_keeps ..) | apply Keeps.step (Keeps.foldl _ _ _ ?_)
      | apply Keeps.step (Keeps.foldl1 _ _ _ ?_))
    | (fail_if_no_progress (with_reducible apply Keeps.upd)) | (fail_if_no_progress (with_reducible apply Keeps.updHbm)) | split

theorem State.swapChurn_keeps (s : State) (old : Option Nat) (inc : Nat) (ch : Nat) :
    Keeps s (State.swapChurn s old inc ch) := by
  unfold State.swapChurn
  try dsimp only
  repeat' first
    | (with_reducible first
      | exact Keeps.refl _ | assumption | apply Leaves.next_of | exact Leaves.fault _ _ | exact Leaves.refused _ _
      | apply Keeps.step (State.finishStreams_keeps ..) | apply Keeps.step (State.landAll_keeps ..)
      | apply Keeps.step (State.drawn_keeps ..) | apply Keeps.step (State.writeRun_keeps ..)
      | apply Keeps.step (State.restoreChurn_keeps ..) | apply Keeps.step (Keeps.foldl _ _ _ ?_)
      | apply Keeps.step (Keeps.foldl1 _ _ _ ?_))
    | (fail_if_no_progress (with_reducible apply Keeps.upd)) | (fail_if_no_progress (with_reducible apply Keeps.updHbm)) | split

theorem State.swapCtx_keeps (s : State) (old : Option Nat) (inc : Nat) :
    Keeps s (State.swapCtx s old inc) := by
  unfold State.swapCtx
  try dsimp only
  repeat' first
    | (with_reducible first
      | exact Keeps.refl _ | assumption | apply Leaves.next_of | exact Leaves.fault _ _ | exact Leaves.refused _ _
      | apply Keeps.step (State.dropWaits_keeps ..) | apply Keeps.step (State.swapChurn_keeps ..)
      | apply Keeps.step (Keeps.foldl _ _ _ ?_) | apply Keeps.step (Keeps.foldl1 _ _ _ ?_))
    | (fail_if_no_progress (with_reducible apply Keeps.upd)) | (fail_if_no_progress (with_reducible apply Keeps.updHbm)) | split
    | (intro _; try dsimp only)

theorem State.takeAgree_keeps (s : State) (p : Nat) (ms : List AgreeMsg) :
    Keeps s (State.takeAgree s p ms) := by
  unfold State.takeAgree
  try dsimp only
  repeat' first
    | (with_reducible first
      | exact Keeps.refl _ | assumption | apply Leaves.next_of | exact Leaves.fault _ _ | exact Leaves.refused _ _
      | apply Keeps.step (State.setPeers_keeps ..) | apply Keeps.step (State.odp_keeps ..)
      | apply Keeps.step (State.bump_keeps ..) | apply Keeps.step (State.linkDown_keeps ..)
      | apply Keeps.step (Keeps.foldl _ _ _ ?_) | apply Keeps.step (Keeps.foldl1 _ _ _ ?_))
    | (fail_if_no_progress (with_reducible apply Keeps.upd)) | (fail_if_no_progress (with_reducible apply Keeps.updHbm)) | split
    | (intro _; try dsimp only)

theorem State.takeModes_keeps (s : State) (idle : Bool) :
    Keeps s (State.takeModes s idle) := by
  unfold State.takeModes
  try dsimp only
  repeat' first
    | (with_reducible first
      | exact Keeps.refl _ | assumption | apply Leaves.next_of | exact Leaves.fault _ _ | exact Leaves.refused _ _
      | apply Keeps.step (State.setTrigMode_keeps ..) | apply Keeps.step (State.bump_keeps ..)
      | apply Keeps.step (State.takeLevel_keeps ..) | apply Keeps.step (Keeps.foldl _ _ _ ?_)
      | apply Keeps.step (Keeps.foldl1 _ _ _ ?_))
    | (fail_if_no_progress (with_reducible apply Keeps.upd)) | (fail_if_no_progress (with_reducible apply Keeps.updHbm)) | split

theorem State.takeRequests_keeps (s : State) (n : Nat) :
    Keeps s (State.takeRequests s n) := by
  unfold State.takeRequests
  try dsimp only
  repeat' first
    | (with_reducible first
      | exact Keeps.refl _ | assumption | apply Leaves.next_of | exact Leaves.fault _ _ | exact Leaves.refused _ _
      | apply Keeps.step (State.setEpoch_keeps ..) | apply Keeps.step (State.changePlan_keeps ..)
      | apply Keeps.step (Keeps.foldl _ _ _ ?_) | apply Keeps.step (Keeps.foldl1 _ _ _ ?_))
    | (fail_if_no_progress (with_reducible apply Keeps.upd)) | (fail_if_no_progress (with_reducible apply Keeps.updHbm)) | split

theorem State.takeTime_keeps (s : State) (p : Nat) (b : CtlBlock) :
    Keeps s (State.takeTime s p b) := by
  unfold State.takeTime
  try dsimp only
  repeat' first
    | (with_reducible first
      | exact Keeps.refl _ | assumption | apply Leaves.next_of | exact Leaves.fault _ _ | exact Leaves.refused _ _
      | apply Keeps.step (State.odp_keeps ..) | apply Keeps.step (State.lockTo_keeps ..)
      | apply Keeps.step (State.enterHoldover_keeps ..) | apply Keeps.step (Keeps.foldl _ _ _ ?_)
      | apply Keeps.step (Keeps.foldl1 _ _ _ ?_))
    | (fail_if_no_progress (with_reducible apply Keeps.upd)) | (fail_if_no_progress (with_reducible apply Keeps.updHbm)) | split

theorem State.takeTold_keeps (s : State) (p : Nat) (refused : BitVec 32) :
    Keeps s (State.takeTold s p refused) := by
  unfold State.takeTold
  try dsimp only
  repeat' first
    | (with_reducible first
      | exact Keeps.refl _ | assumption | apply Leaves.next_of | exact Leaves.fault _ _ | exact Leaves.refused _ _
      | apply Keeps.step (Keeps.foldl _ _ _ ?_) | apply Keeps.step (Keeps.foldl1 _ _ _ ?_))
    | (fail_if_no_progress (with_reducible apply Keeps.upd))

theorem State.tick_keeps (s : State) :
    Keeps s (State.tick s) := by
  unfold State.tick
  try dsimp only
  repeat' with_reducible first
    | exact Keeps.refl _ | assumption | apply Leaves.next_of | exact Leaves.fault _ _ | exact Leaves.refused _ _
    | apply Keeps.step (State.advance_keeps ..)

theorem State.toMembers_keeps (s : State) (r : Group) (tc : Nat) (rxq : Nat) (job : Nat) (bytes : List Byte) (owner : Nat × Nat) :
    Keeps s (State.toMembers s r tc rxq job bytes owner) := by
  unfold State.toMembers
  try dsimp only
  repeat' first
    | (with_reducible first
      | exact Keeps.refl _ | assumption | apply Leaves.next_of | exact Leaves.fault _ _ | exact Leaves.refused _ _
      | apply Keeps.step (State.sendRoutine_keeps ..) | apply Keeps.step (Keeps.foldl _ _ _ ?_)
      | apply Keeps.step (Keeps.foldl1 _ _ _ ?_))
    | (fail_if_no_progress (with_reducible apply Keeps.upd)) | (fail_if_no_progress (with_reducible apply Keeps.updHbm)) | split
    | (intro _; try dsimp only)

theorem State.totalsIn_keeps (s : State) (t : CollTask) (ps : List (Nat × Nat)) :
    Keeps s (State.totalsIn s t ps) := by
  unfold State.totalsIn
  try dsimp only
  repeat' first
    | (with_reducible first
      | exact Keeps.refl _ | assumption | apply Leaves.next_of | exact Leaves.fault _ _ | exact Leaves.refused _ _
      | apply Keeps.step (State.collDone_keeps ..) | apply Keeps.step (Keeps.foldl _ _ _ ?_)
      | apply Keeps.step (Keeps.foldl1 _ _ _ ?_))
    | (fail_if_no_progress (with_reducible apply Keeps.upd)) | (fail_if_no_progress (with_reducible apply Keeps.updHbm)) | split

theorem State.triggered_keeps (s : State) (k : Nat) :
    Keeps s (State.triggered s k) := by
  unfold State.triggered
  try dsimp only
  repeat' first
    | (with_reducible first
      | exact Keeps.refl _ | assumption | apply Leaves.next_of | exact Leaves.fault _ _ | exact Leaves.refused _ _
      | apply Keeps.step (State.drawn_keeps ..) | apply Keeps.step (State.bump_keeps ..)
      | apply Keeps.step (State.traced_keeps ..) | apply Keeps.step (State.odp_keeps ..)
      | apply Keeps.step (State.signal_keeps ..) | apply Keeps.step (Keeps.foldl _ _ _ ?_)
      | apply Keeps.step (Keeps.foldl1 _ _ _ ?_))
    | (fail_if_no_progress (with_reducible apply Keeps.upd)) | (fail_if_no_progress (with_reducible apply Keeps.updHbm)) | split

theorem State.undoRecord_keeps (s : State) (c : Nat) (d : List Byte) :
    Keeps s (State.undoRecord s c d) := by
  unfold State.undoRecord
  try dsimp only
  repeat' first
    | (with_reducible first
      | exact Keeps.refl _ | assumption | apply Leaves.next_of | exact Leaves.fault _ _ | exact Leaves.refused _ _
      | apply Keeps.step (State.routineRead_keeps ..) | apply Keeps.step (State.routineWrite_keeps ..)
      | apply Keeps.step (Keeps.foldl _ _ _ ?_) | apply Keeps.step (Keeps.foldl1 _ _ _ ?_))
    | (fail_if_no_progress (with_reducible apply Keeps.upd)) | (fail_if_no_progress (with_reducible apply Keeps.updHbm)) | split
    | (intro _; try dsimp only)

theorem State.undoAll_keeps (s : State) (c : Nat) :
    Keeps s (State.undoAll s c) := by
  unfold State.undoAll
  try dsimp only
  repeat' first
    | (with_reducible first
      | exact Keeps.refl _ | assumption | apply Leaves.next_of | exact Leaves.fault _ _ | exact Leaves.refused _ _
      | apply Keeps.step (State.undoRecord_keeps ..) | apply Keeps.step (State.setCtx_keeps ..)
      | apply Keeps.step (Keeps.foldl _ _ _ ?_) | apply Keeps.step (Keeps.foldl1 _ _ _ ?_))
    | (fail_if_no_progress (with_reducible apply Keeps.upd)) | (fail_if_no_progress (with_reducible apply Keeps.updHbm)) | split
    | (intro _; try dsimp only)

theorem State.verdictTaken_keeps (s : State) (c : Nat) (x : Ctx) (r : Verdict) (why : Nat) :
    Keeps s (State.verdictTaken s c x r why) := by
  unfold State.verdictTaken
  try dsimp only
  repeat' first
    | (with_reducible first
      | exact Keeps.refl _ | assumption | apply Leaves.next_of | exact Leaves.fault _ _ | exact Leaves.refused _ _
      | apply Keeps.step (State.odp_keeps ..) | apply Keeps.step (State.bump_keeps ..) | apply Keeps.step (State.setCtx_keeps ..)
      | apply Keeps.step (State.abandon_keeps ..) | apply Keeps.step (State.stopCtx_keeps ..)
      | apply Keeps.step (Keeps.foldl _ _ _ ?_) | apply Keeps.step (Keeps.foldl1 _ _ _ ?_))
    | (fail_if_no_progress (with_reducible apply Keeps.upd)) | (fail_if_no_progress (with_reducible apply Keeps.updHbm)) | split

theorem State.windowTake_keeps (s : State) (o : Nat) (bytes : List Byte) :
    Keeps s (State.windowTake s o bytes) := by
  unfold State.windowTake
  try dsimp only
  repeat' first
    | (with_reducible first
      | exact Keeps.refl _ | assumption | apply Leaves.next_of | exact Leaves.fault _ _ | exact Leaves.refused _ _
      | apply Keeps.step (State.bump_keeps ..) | apply Keeps.step (State.apSelect_keeps ..)
      | apply Keeps.step (State.apStatus_keeps ..) | apply Keeps.step (Keeps.foldl _ _ _ ?_)
      | apply Keeps.step (Keeps.foldl1 _ _ _ ?_))
    | (fail_if_no_progress (with_reducible apply Keeps.upd)) | (fail_if_no_progress (with_reducible apply Keeps.updHbm)) | split

theorem State.writeGrads_keeps (s : State) (acc : Bool) (base : Nat) (rows : List (List Word)) :
    Keeps s (State.writeGrads s acc base rows) := by
  unfold State.writeGrads
  try dsimp only
  repeat' with_reducible first
    | exact Keeps.refl _ | assumption | apply Leaves.next_of | exact Leaves.fault _ _ | exact Leaves.refused _ _
    | apply Keeps.step (State.writeRun_keeps ..)

theorem State.writeRow_keeps (s : State) (region : Nat) (d : List Byte) (r : Nat) (x : RowSt) :
    Keeps s (State.writeRow s region d r x) := by
  unfold State.writeRow
  try dsimp only
  repeat' first
    | (with_reducible first
      | exact Keeps.refl _ | assumption | apply Leaves.next_of | exact Leaves.fault _ _ | exact Leaves.refused _ _
      | apply Keeps.step (State.putRegion_keeps ..) | apply Keeps.step (Keeps.foldl _ _ _ ?_)
      | apply Keeps.step (Keeps.foldl1 _ _ _ ?_))
    | (fail_if_no_progress (with_reducible apply Keeps.upd)) | (fail_if_no_progress (with_reducible apply Keeps.updHbm)) | split
    | (intro _; try dsimp only)

theorem State.writtenIf_keeps (s : State) (st : Nat) (act : State → State) (hact : ∀ u, Keeps u (act u)) :
    Keeps s (State.writtenIf s st act) := by
  unfold State.writtenIf
  try dsimp only
  repeat' first
    | (with_reducible first
      | exact Keeps.refl _ | assumption | apply Leaves.next_of | exact Leaves.fault _ _ | exact Leaves.refused _ _
      | apply Keeps.step (hact ..) | apply Keeps.step (State.answered_keeps ..) | apply Keeps.step (Keeps.foldl _ _ _ ?_)
      | apply Keeps.step (Keeps.foldl1 _ _ _ ?_))
    | (fail_if_no_progress (with_reducible apply Keeps.upd)) | (fail_if_no_progress (with_reducible apply Keeps.updHbm)) | split

theorem attnBackwardCall_keeps (region : Nat) (s : State) (c : Nat) (h : Nat) (d : List Byte) :
    Keeps s (attnBackwardCall region s c h d) := by
  unfold attnBackwardCall
  try dsimp only
  repeat' first
    | (with_reducible first
      | exact Keeps.refl _ | assumption | apply Leaves.next_of | exact Leaves.fault _ _ | exact Leaves.refused _ _
      | apply Keeps.step (State.attnStopped_keeps ..) | apply Keeps.step (State.putRegion_keeps ..)
      | apply Keeps.step (State.writeGrads_keeps ..) | apply Keeps.step (State.spoilRegion_keeps ..)
      | apply Keeps.step (State.attnDone_keeps ..) | apply Keeps.step (Keeps.foldl _ _ _ ?_)
      | apply Keeps.step (Keeps.foldl1 _ _ _ ?_))
    | (fail_if_no_progress (with_reducible apply Keeps.upd)) | (fail_if_no_progress (with_reducible apply Keeps.updHbm)) | split
    | (intro _; try dsimp only)

theorem attnForwardCall_keeps (region : Nat) (s : State) (c : Nat) (h : Nat) (d : List Byte) :
    Keeps s (attnForwardCall region s c h d) := by
  unfold attnForwardCall
  try dsimp only
  repeat' first
    | (with_reducible first
      | exact Keeps.refl _ | assumption | apply Leaves.next_of | exact Leaves.fault _ _ | exact Leaves.refused _ _
      | apply Keeps.step (State.attnStopped_keeps ..) | apply Keeps.step (State.writeRow_keeps ..)
      | apply Keeps.step (State.finalRow_keeps ..) | apply Keeps.step (State.spoilRegion_keeps ..)
      | apply Keeps.step (State.attnDone_keeps ..) | apply Keeps.step (Keeps.foldl _ _ _ ?_)
      | apply Keeps.step (Keeps.foldl1 _ _ _ ?_))
    | (fail_if_no_progress (with_reducible apply Keeps.upd)) | (fail_if_no_progress (with_reducible apply Keeps.updHbm)) | split
    | (intro _; try dsimp only)

theorem binOp_keeps (f32 : Word → Word → Word) (i32 : Int → Int → Int) (s : State) (core : Nat) (c : Nat) (w : Nat) :
    Keeps s (binOp f32 i32 s core c w) := by
  unfold binOp
  try dsimp only
  repeat' with_reducible first
    | exact Keeps.refl _ | assumption | apply Leaves.next_of | exact Leaves.fault _ _ | exact Leaves.refused _ _
    | apply Keeps.step (State.elementwise_keeps ..)

theorem bs8Block_keeps (eacc : Int) (blk : Bs8) (a : Nat) (s : State) :
    Keeps s (bs8Block eacc blk a s).1 := by
  unfold bs8Block
  try dsimp only
  repeat' first
    | (with_reducible first
      | exact Keeps.refl _ | assumption | apply Leaves.next_of | exact Leaves.fault _ _ | exact Leaves.refused _ _
      | apply Keeps.step (State.putMem_keeps ..) | apply Keeps.step (Keeps.foldl _ _ _ ?_)
      | apply Keeps.step (Keeps.foldl1 _ _ _ ?_))
    | (fail_if_no_progress (with_reducible apply Keeps.upd)) | (fail_if_no_progress (with_reducible apply Keeps.updHbm)) | split
    | (intro _; try dsimp only)

theorem collStart_keeps (s : State) (c : Nat) (pos : Nat) (e : PlanEntry) :
    Keeps s (collStart s c pos e) := by
  unfold collStart
  try dsimp only
  repeat' first
    | (with_reducible first
      | exact Keeps.refl _ | assumption | apply Leaves.next_of | exact Leaves.fault _ _ | exact Leaves.refused _ _
      | apply Keeps.step (State.routineRead_keeps ..) | apply Keeps.step (State.readGroup_keeps ..)
      | apply Keeps.step (State.collRejected_keeps ..) | apply Keeps.step (State.attempt_keeps ..)
      | apply Keeps.step (State.collSettle_keeps ..) | apply Keeps.step (Keeps.foldl _ _ _ ?_)
      | apply Keeps.step (Keeps.foldl1 _ _ _ ?_))
    | (fail_if_no_progress (with_reducible apply Keeps.upd)) | (fail_if_no_progress (with_reducible apply Keeps.updHbm)) | split

theorem dmaAtomic_keeps (f : Nat → Nat → Nat → Nat) (env : XferEnv) (s : State) (key : Nat) (i : Nat) (d : Desc) :
    Keeps s (dmaAtomic f env s key i d) := by
  unfold dmaAtomic
  try dsimp only
  repeat' first
    | (with_reducible first
      | exact Keeps.refl _ | assumption | apply Leaves.next_of | exact Leaves.fault _ _ | exact Leaves.refused _ _
      | apply Keeps.step (State.readRange_keeps ..) | apply Keeps.step (State.xferDone_keeps ..)
      | apply Keeps.step (State.bump_keeps ..) | apply Keeps.step (State.sliceWrites_keeps ..)
      | apply Keeps.step (State.putMem_keeps ..) | apply Keeps.step (State.putStoreRun_keeps ..)
      | apply Keeps.step (Keeps.foldl _ _ _ ?_) | apply Keeps.step (Keeps.foldl1 _ _ _ ?_))
    | (fail_if_no_progress (with_reducible apply Keeps.upd)) | (fail_if_no_progress (with_reducible apply Keeps.updHbm)) | split

theorem dmaBs8_keeps (env : XferEnv) (s : State) (key : Nat) (i : Nat) (d : Desc) :
    Keeps s (dmaBs8 env s key i d) := by
  unfold dmaBs8
  try dsimp only
  repeat' first
    | (with_reducible first
      | exact Keeps.refl _ | assumption | apply Leaves.next_of | exact Leaves.fault _ _ | exact Leaves.refused _ _
      | apply Keeps.step (State.readMoves_keeps ..) | apply Keeps.step (State.readRange_keeps ..)
      | apply Keeps.step (bs8Block_keeps ..) | apply Keeps.step (State.bump_keeps ..)
      | apply Keeps.step (State.sliceWrites_keeps ..) | apply Keeps.step (State.xferDone_keeps ..)
      | apply Keeps.step (Keeps.foldl _ _ _ ?_) | apply Keeps.step (Keeps.foldl1 _ _ _ ?_))
    | (fail_if_no_progress (with_reducible apply Keeps.upd)) | (fail_if_no_progress (with_reducible apply Keeps.updHbm)) | split
    | (intro _; try dsimp only)

theorem dmaCopy_keeps (env : XferEnv) (s : State) (key : Nat) (i : Nat) (d : Desc) :
    Keeps s (dmaCopy env s key i d) := by
  unfold dmaCopy
  try dsimp only
  repeat' with_reducible first
    | exact Keeps.refl _ | assumption | apply Leaves.next_of | exact Leaves.fault _ _ | exact Leaves.refused _ _
    | apply Keeps.step (State.readMoves_keeps ..) | apply Keeps.step (State.xferDone_keeps ..)
    | apply Keeps.step (State.doMoves_keeps ..)

theorem dmaFill_keeps (env : XferEnv) (s : State) (key : Nat) (i : Nat) (d : Desc) :
    Keeps s (dmaFill env s key i d) := by
  unfold dmaFill
  try dsimp only
  repeat' with_reducible first
    | exact Keeps.refl _ | assumption | apply Leaves.next_of | exact Leaves.fault _ _ | exact Leaves.refused _ _
    | apply Keeps.step (State.xferDone_keeps ..) | apply Keeps.step (State.doMoves_keeps ..)

theorem dmaPage_keeps (env : XferEnv) (s : State) (key : Nat) (i : Nat) (d : Desc) :
    Keeps s (dmaPage env s key i d) := by
  unfold dmaPage
  try dsimp only
  repeat' with_reducible first
    | exact Keeps.refl _ | assumption | apply Leaves.next_of | exact Leaves.fault _ _ | exact Leaves.refused _ _
    | apply Keeps.step (State.readRange_keeps ..) | apply Keeps.step (State.readMoves_keeps ..)
    | apply Keeps.step (State.xferDone_keeps ..) | apply Keeps.step (State.doMoves_keeps ..)

theorem reduceElem_keeps (op : Word → Word → Word) (esize : Nat) (d : List Byte) (src : List Byte) (s : State) (t : Nat) :
    Keeps s (reduceElem op esize d src s t) := by
  unfold reduceElem
  try dsimp only
  repeat' with_reducible first
    | exact Keeps.refl _ | assumption | apply Leaves.next_of | exact Leaves.fault _ _ | exact Leaves.refused _ _
    | apply Keeps.step (State.putMem_keeps ..)

theorem dmaReduce_keeps (op : Word → Word → Word) (esize : Nat) (env : XferEnv) (s : State) (key : Nat) (i : Nat) (d : Desc) :
    Keeps s (dmaReduce op esize env s key i d) := by
  unfold dmaReduce
  try dsimp only
  repeat' first
    | (with_reducible first
      | exact Keeps.refl _ | assumption | apply Leaves.next_of | exact Leaves.fault _ _ | exact Leaves.refused _ _
      | apply Keeps.step (State.readMoves_keeps ..) | apply Keeps.step (State.readSector_keeps ..)
      | apply Keeps.step (reduceElem_keeps ..) | apply Keeps.step (State.bump_keeps ..)
      | apply Keeps.step (State.sliceWrites_keeps ..) | apply Keeps.step (State.xferDone_keeps ..)
      | apply Keeps.step (Keeps.foldl _ _ _ ?_) | apply Keeps.step (Keeps.foldl1 _ _ _ ?_))
    | (fail_if_no_progress (with_reducible apply Keeps.upd)) | (fail_if_no_progress (with_reducible apply Keeps.updHbm)) | split
    | (intro _; try dsimp only)

theorem dmaSend_keeps (env : XferEnv) (s : State) (key : Nat) (i : Nat) (d : Desc) :
    Keeps s (dmaSend env s key i d) := by
  unfold dmaSend
  try dsimp only
  repeat' first
    | (with_reducible first
      | exact Keeps.refl _ | assumption | apply Leaves.next_of | exact Leaves.fault _ _ | exact Leaves.refused _ _
      | apply Keeps.step (State.readMoves_keeps ..) | apply Keeps.step (State.sendMessage_keeps ..)
      | apply Keeps.step (State.setDq_keeps ..) | apply Keeps.step (State.xferReplays_keeps ..)
      | apply Keeps.step (State.xferDone_keeps ..) | apply Keeps.step (State.closeMsgs_keeps ..)
      | apply Keeps.step (Keeps.foldl _ _ _ ?_) | apply Keeps.step (Keeps.foldl1 _ _ _ ?_))
    | (fail_if_no_progress (with_reducible apply Keeps.upd)) | (fail_if_no_progress (with_reducible apply Keeps.updHbm)) | split
    | (intro _; try dsimp only)

theorem runAtomic_keeps (code : Nat) (f : Nat → Nat → Nat → Nat) (q : QRef) (env : XferEnv) (s : State) :
    Keeps s (runAtomic code f q env s) := by
  unfold runAtomic
  try dsimp only
  repeat' first
    | (with_reducible first
      | exact Keeps.refl _ | assumption | apply Leaves.next_of | exact Leaves.fault _ _ | exact Leaves.refused _ _
      | apply Keeps.step (State.dmaRun_keeps _ _ _ _ ?_) | apply Keeps.step (dmaAtomic_keeps ..)
      | apply Keeps.step (Keeps.foldl _ _ _ ?_) | apply Keeps.step (Keeps.foldl1 _ _ _ ?_))
    | (fail_if_no_progress (with_reducible apply Keeps.upd)) | (fail_if_no_progress (with_reducible apply Keeps.updHbm)) | split
    | (intro _; try dsimp only)

theorem unOp_keeps (op : VWord → Word → Word × BitVec 4) (s : State) (core : Nat) (c : Nat) (w : Nat) :
    Keeps s (unOp op s core c w) := by
  unfold unOp
  try dsimp only
  repeat' with_reducible first
    | exact Keeps.refl _ | assumption | apply Leaves.next_of | exact Leaves.fault _ _ | exact Leaves.refused _ _
    | apply Keeps.step (State.elementwise_keeps ..)

theorem milkStart_keeps (s : State) (c : Nat) (pos : Nat) (e : PlanEntry) :
    Keeps s (milkStart s c pos e) := by
  unfold milkStart
  try dsimp only
  repeat' first
    | (with_reducible first
      | exact Keeps.refl _ | assumption | apply Leaves.next_of | exact Leaves.fault _ _ | exact Leaves.refused _ _
      | apply Keeps.step (State.routineRead_keeps ..) | apply Keeps.step (State.herdEvent_keeps ..)
      | apply Keeps.step (State.storageEvent_keeps ..) | apply Keeps.step (State.metPoison_keeps ..)
      | apply Keeps.step (State.fetched_keeps ..) | apply Keeps.step (State.routineWrite_keeps ..)
      | apply Keeps.step (State.milkAdvance_keeps ..) | apply Keeps.step (Keeps.foldl _ _ _ ?_)
      | apply Keeps.step (Keeps.foldl1 _ _ _ ?_))
    | (fail_if_no_progress (with_reducible apply Keeps.upd)) | (fail_if_no_progress (with_reducible apply Keeps.updHbm)) | split
    | (intro _; try dsimp only)

theorem gatherStart_keeps (s : State) (c : Nat) (pos : Nat) (e : PlanEntry) :
    Keeps s (gatherStart s c pos e) := by
  unfold gatherStart
  try dsimp only
  repeat' first
    | (with_reducible first
      | exact Keeps.refl _ | assumption | apply Leaves.next_of | exact Leaves.fault _ _ | exact Leaves.refused _ _
      | apply Keeps.step (State.routineRead_keeps ..) | apply Keeps.step (State.readGroup_keeps ..)
      | apply Keeps.step (State.routineFlags_keeps ..) | apply Keeps.step (State.toMembers_keeps ..)
      | apply Keeps.step (State.gatherSeg_keeps ..) | apply Keeps.step (State.drawn_keeps ..)
      | apply Keeps.step (State.gatherSettle_keeps ..) | apply Keeps.step (Keeps.foldl _ _ _ ?_)
      | apply Keeps.step (Keeps.foldl1 _ _ _ ?_))
    | (fail_if_no_progress (with_reducible apply Keeps.upd)) | (fail_if_no_progress (with_reducible apply Keeps.updHbm)) | split
    | (intro _; try dsimp only)

theorem optStart_keeps (s : State) (c : Nat) (pos : Nat) (e : PlanEntry) :
    Keeps s (optStart s c pos e) := by
  unfold optStart
  try dsimp only
  repeat' first
    | (with_reducible first
      | exact Keeps.refl _ | assumption | apply Leaves.next_of | exact Leaves.fault _ _ | exact Leaves.refused _ _
      | apply Keeps.step (State.routineRead_keeps ..) | apply Keeps.step (State.optEnd_keeps ..)
      | apply Keeps.step (State.storageEvent_keeps ..) | apply Keeps.step (State.metPoison_keeps ..)
      | apply Keeps.step (State.optBlock_keeps ..) | apply Keeps.step (State.setCtx_keeps ..)
      | apply Keeps.step (State.numericEvent_keeps ..) | apply Keeps.step (State.bump_keeps ..)
      | apply Keeps.step (Keeps.foldl _ _ _ ?_) | apply Keeps.step (Keeps.foldl1 _ _ _ ?_))
    | (fail_if_no_progress (with_reducible apply Keeps.upd)) | (fail_if_no_progress (with_reducible apply Keeps.updHbm)) | split
    | (intro _; try dsimp only)

theorem loadOp_keeps (size : VWord → Nat) (conv : VWord → Nat → Word × BitVec 4) (s : State) (core : Nat) (c : Nat) (w : Nat) :
    Keeps s (loadOp size conv s core c w) := by
  unfold loadOp
  try dsimp only
  repeat' first
    | (with_reducible first
      | exact Keeps.refl _ | assumption | apply Leaves.next_of | exact Leaves.fault _ _ | exact Leaves.refused _ _
      | apply Keeps.step (State.elementwise_keeps ..) | apply Keeps.step (State.coreFault_keeps ..)
      | apply Keeps.step (Keeps.foldl _ _ _ ?_) | apply Keeps.step (Keeps.foldl1 _ _ _ ?_))
    | (fail_if_no_progress (with_reducible apply Keeps.upd)) | (fail_if_no_progress (with_reducible apply Keeps.updHbm)) | split

theorem storeOp_keeps (size : VWord → Nat) (conv : State → Nat → Nat → VWord → Nat → Word → Nat × BitVec 4) (s : State) (core : Nat) (c
    : Nat) (w : Nat) :
    Keeps s (storeOp size conv s core c w) := by
  unfold storeOp
  try dsimp only
  repeat' first
    | (with_reducible first
      | exact Keeps.refl _ | assumption | apply Leaves.next_of | exact Leaves.fault _ _ | exact Leaves.refused _ _
      | apply Keeps.step (State.nextPc_keeps ..) | apply Keeps.step (State.putStoreRun_keeps ..)
      | apply Keeps.step (State.coreFault_keeps ..) | apply Keeps.step (Keeps.foldl _ _ _ ?_)
      | apply Keeps.step (Keeps.foldl1 _ _ _ ?_))
    | (fail_if_no_progress (with_reducible apply Keeps.upd)) | (fail_if_no_progress (with_reducible apply Keeps.updHbm)) | split
    | (intro _; try dsimp only)

theorem runReduce_keeps (code : Nat) (op : Word → Word → Word) (esize : Nat) (q : QRef) (env : XferEnv) (s : State) :
    Keeps s (runReduce code op esize q env s) := by
  unfold runReduce
  try dsimp only
  repeat' first
    | (with_reducible first
      | exact Keeps.refl _ | assumption | apply Leaves.next_of | exact Leaves.fault _ _ | exact Leaves.refused _ _
      | apply Keeps.step (State.dmaRun_keeps _ _ _ _ ?_) | apply Keeps.step (dmaReduce_keeps ..)
      | apply Keeps.step (Keeps.foldl _ _ _ ?_) | apply Keeps.step (Keeps.foldl1 _ _ _ ?_))
    | (fail_if_no_progress (with_reducible apply Keeps.upd)) | (fail_if_no_progress (with_reducible apply Keeps.updHbm)) | split
    | (intro _; try dsimp only)

theorem reduceOp_keeps (ident : VWord → Word) (start : VWord → Word → Word × BitVec 4) (op : VWord → Word → Word → Word × BitVec 4) (s
    : State) (core : Nat) (c : Nat) (w : Nat) :
    Keeps s (reduceOp ident start op s core c w) := by
  unfold reduceOp
  try dsimp only
  repeat' first
    | (with_reducible first
      | exact Keeps.refl _ | assumption | apply Leaves.next_of | exact Leaves.fault _ _ | exact Leaves.refused _ _
      | apply Keeps.step (State.setPail_keeps ..) | apply Keeps.step (State.nextPc_keeps ..)
      | apply Keeps.step (Keeps.foldl _ _ _ ?_) | apply Keeps.step (Keeps.foldl1 _ _ _ ?_))
    | (fail_if_no_progress (with_reducible apply Keeps.upd)) | (fail_if_no_progress (with_reducible apply Keeps.updHbm)) | split
    | (intro _; try dsimp only)

theorem scalarOp_keeps (op : Dword → Dword → Dword) (s : State) (core : Nat) (c : Nat) (w : Nat) :
    Keeps s (scalarOp op s core c w) := by
  unfold scalarOp
  try dsimp only
  repeat' with_reducible first
    | exact Keeps.refl _ | assumption | apply Leaves.next_of | exact Leaves.fault _ _ | exact Leaves.refused _ _
    | apply Keeps.step (State.nextPc_keeps ..)

theorem skipifStart_keeps (s : State) (c : Nat) (pos : Nat) (e : PlanEntry) :
    Keeps s (skipifStart s c pos e) := by
  unfold skipifStart
  try dsimp only
  repeat' first
    | (with_reducible first
      | exact Keeps.refl _ | assumption | apply Leaves.next_of | exact Leaves.fault _ _ | exact Leaves.refused _ _
      | apply Keeps.step (State.routineRead_keeps ..) | apply Keeps.step (State.entryDone_keeps ..)
      | apply Keeps.step (State.setCtx_keeps ..) | apply Keeps.step (Keeps.foldl _ _ _ ?_)
      | apply Keeps.step (Keeps.foldl1 _ _ _ ?_))
    | (fail_if_no_progress (with_reducible apply Keeps.upd)) | (fail_if_no_progress (with_reducible apply Keeps.updHbm)) | split

theorem stashStart_keeps (s : State) (c : Nat) (pos : Nat) (a3 : PlanEntry) :
    Keeps s (stashStart s c pos a3) := by
  unfold stashStart
  try dsimp only
  repeat' first
    | (with_reducible first
      | exact Keeps.refl _ | assumption | apply Leaves.next_of | exact Leaves.fault _ _ | exact Leaves.refused _ _
      | apply Keeps.step (State.entryDone_keeps ..) | apply Keeps.step (State.setCtx_keeps ..)
      | apply Keeps.step (State.bump_keeps ..) | apply Keeps.step (State.writeRun_keeps ..)
      | apply Keeps.step (State.storageEvent_keeps ..) | apply Keeps.step (Keeps.foldl _ _ _ ?_)
      | apply Keeps.step (Keeps.foldl1 _ _ _ ?_))
    | (fail_if_no_progress (with_reducible apply Keeps.upd)) | (fail_if_no_progress (with_reducible apply Keeps.updHbm)) | split

end Sys2Proof.Machine
end

