-- ==== Sys2Proof/Laws/KeepsCommands.lean ====
section
/-! SUPPORT. Every next state of a command has the queue it began with, and module memory in its canonical form where it began so. -/

namespace Sys2Proof.Machine

theorem execStepEnd_keeps (env : MemEnv) (s : State) :
    Leaves s (execStepEnd env s) := by
  unfold execStepEnd
  try dsimp only
  repeat' first
    | (with_reducible first
      | exact Keeps.refl _ | assumption | apply Leaves.next_of | exact Leaves.fault _ _ | exact Leaves.refused _ _
      | apply Keeps.step (State.timedRunIn_keeps _ _ _ _ ?_) | apply Keeps.step (State.entryDone_keeps ..)
      | apply Keeps.step (State.stopCtx_keeps ..) | apply Keeps.step (State.setCtx_keeps ..)
      | apply Keeps.step (State.sendBeacons_keeps ..) | apply Keeps.step (State.beginStep_keeps ..)
      | apply Keeps.step (Keeps.foldl _ _ _ ?_) | apply Keeps.step (Keeps.foldl1 _ _ _ ?_))
    | (fail_if_no_progress (with_reducible apply Keeps.upd)) | (fail_if_no_progress (with_reducible apply Keeps.updHbm)) | split
    | (intro _; try dsimp only)

theorem execPathSwitch_keeps (out : Bool) (port : BitVec 6) (channel : BitVec 5) (connect : Bool) (s : State) :
    Leaves s (execPathSwitch out port channel connect s) := by
  unfold execPathSwitch
  try dsimp only
  repeat' first
    | (with_reducible first
      | exact Keeps.refl _ | assumption | apply Leaves.next_of | exact Leaves.fault _ _ | exact Leaves.refused _ _
      | apply Keeps.step (Keeps.foldl _ _ _ ?_) | apply Keeps.step (Keeps.foldl1 _ _ _ ?_))
    | (fail_if_no_progress (with_reducible apply Keeps.upd)) | (fail_if_no_progress (with_reducible apply Keeps.updHbm)) | split

theorem execApertureRead_keeps (off : BitVec 21) (len : BitVec 4) (s : State) :
    Leaves s (execApertureRead off len s) := by
  unfold execApertureRead
  try dsimp only
  repeat' first
    | (with_reducible first
      | exact Keeps.refl _ | assumption | apply Leaves.next_of | exact Leaves.fault _ _ | exact Leaves.refused _ _
      | apply Keeps.step (State.emit_keeps ..) | apply Keeps.step (State.apRead_keeps ..)
      | apply Keeps.step (Keeps.foldl _ _ _ ?_) | apply Keeps.step (Keeps.foldl1 _ _ _ ?_))
    | (fail_if_no_progress (with_reducible apply Keeps.upd)) | (fail_if_no_progress (with_reducible apply Keeps.updHbm)) | split

theorem execApertureSelect_keeps (k : BitVec 4) (v : BitVec 32) (s : State) :
    Leaves s (execApertureSelect k v s) := by
  unfold execApertureSelect
  try dsimp only
  repeat' first
    | (with_reducible first
      | exact Keeps.refl _ | assumption | apply Leaves.next_of | exact Leaves.fault _ _ | exact Leaves.refused _ _
      | apply Keeps.step (State.apSelect_keeps ..) | apply Keeps.step (Keeps.foldl _ _ _ ?_)
      | apply Keeps.step (Keeps.foldl1 _ _ _ ?_))
    | (fail_if_no_progress (with_reducible apply Keeps.upd)) | (fail_if_no_progress (with_reducible apply Keeps.updHbm)) | split

theorem execApertureWrite_keeps (off : BitVec 21) (bytes : List Byte) (s : State) :
    Leaves s (execApertureWrite off bytes s) := by
  unfold execApertureWrite
  try dsimp only
  repeat' first
    | (with_reducible first
      | exact Keeps.refl _ | assumption | apply Leaves.next_of | exact Leaves.fault _ _ | exact Leaves.refused _ _
      | apply Keeps.step (State.windowTake_keeps ..) | apply Keeps.step (State.apTake_keeps ..)
      | apply Keeps.step (State.bump_keeps ..) | apply Keeps.step (Keeps.foldl _ _ _ ?_)
      | apply Keeps.step (Keeps.foldl1 _ _ _ ?_))
    | (fail_if_no_progress (with_reducible apply Keeps.upd)) | (fail_if_no_progress (with_reducible apply Keeps.updHbm)) | split

theorem execAtAddF32_keeps (q : QRef) (env : XferEnv) (s : State) :
    Leaves s (execAtAddF32 q env s) := by
  unfold execAtAddF32
  try dsimp only
  repeat' with_reducible first
    | exact Keeps.refl _ | assumption | apply Leaves.next_of | exact Leaves.fault _ _ | exact Leaves.refused _ _
    | apply Keeps.step (runAtomic_keeps ..)

theorem execAtAddU32_keeps (q : QRef) (env : XferEnv) (s : State) :
    Leaves s (execAtAddU32 q env s) := by
  unfold execAtAddU32
  try dsimp only
  repeat' with_reducible first
    | exact Keeps.refl _ | assumption | apply Leaves.next_of | exact Leaves.fault _ _ | exact Leaves.refused _ _
    | apply Keeps.step (runAtomic_keeps ..)

theorem execAtAddU64_keeps (q : QRef) (env : XferEnv) (s : State) :
    Leaves s (execAtAddU64 q env s) := by
  unfold execAtAddU64
  try dsimp only
  repeat' with_reducible first
    | exact Keeps.refl _ | assumption | apply Leaves.next_of | exact Leaves.fault _ _ | exact Leaves.refused _ _
    | apply Keeps.step (runAtomic_keeps ..)

theorem execAtAnd_keeps (q : QRef) (env : XferEnv) (s : State) :
    Leaves s (execAtAnd q env s) := by
  unfold execAtAnd
  try dsimp only
  repeat' with_reducible first
    | exact Keeps.refl _ | assumption | apply Leaves.next_of | exact Leaves.fault _ _ | exact Leaves.refused _ _
    | apply Keeps.step (runAtomic_keeps ..)

theorem execAtCasU32_keeps (q : QRef) (env : XferEnv) (s : State) :
    Leaves s (execAtCasU32 q env s) := by
  unfold execAtCasU32
  try dsimp only
  repeat' with_reducible first
    | exact Keeps.refl _ | assumption | apply Leaves.next_of | exact Leaves.fault _ _ | exact Leaves.refused _ _
    | apply Keeps.step (runAtomic_keeps ..)

theorem execAtCasU64_keeps (q : QRef) (env : XferEnv) (s : State) :
    Leaves s (execAtCasU64 q env s) := by
  unfold execAtCasU64
  try dsimp only
  repeat' with_reducible first
    | exact Keeps.refl _ | assumption | apply Leaves.next_of | exact Leaves.fault _ _ | exact Leaves.refused _ _
    | apply Keeps.step (runAtomic_keeps ..)

theorem execAtMaxF32_keeps (q : QRef) (env : XferEnv) (s : State) :
    Leaves s (execAtMaxF32 q env s) := by
  unfold execAtMaxF32
  try dsimp only
  repeat' with_reducible first
    | exact Keeps.refl _ | assumption | apply Leaves.next_of | exact Leaves.fault _ _ | exact Leaves.refused _ _
    | apply Keeps.step (runAtomic_keeps ..)

theorem execAtMaxI32_keeps (q : QRef) (env : XferEnv) (s : State) :
    Leaves s (execAtMaxI32 q env s) := by
  unfold execAtMaxI32
  try dsimp only
  repeat' with_reducible first
    | exact Keeps.refl _ | assumption | apply Leaves.next_of | exact Leaves.fault _ _ | exact Leaves.refused _ _
    | apply Keeps.step (runAtomic_keeps ..)

theorem execAtMaxU32_keeps (q : QRef) (env : XferEnv) (s : State) :
    Leaves s (execAtMaxU32 q env s) := by
  unfold execAtMaxU32
  try dsimp only
  repeat' with_reducible first
    | exact Keeps.refl _ | assumption | apply Leaves.next_of | exact Leaves.fault _ _ | exact Leaves.refused _ _
    | apply Keeps.step (runAtomic_keeps ..)

theorem execAtMinF32_keeps (q : QRef) (env : XferEnv) (s : State) :
    Leaves s (execAtMinF32 q env s) := by
  unfold execAtMinF32
  try dsimp only
  repeat' with_reducible first
    | exact Keeps.refl _ | assumption | apply Leaves.next_of | exact Leaves.fault _ _ | exact Leaves.refused _ _
    | apply Keeps.step (runAtomic_keeps ..)

theorem execAtMinI32_keeps (q : QRef) (env : XferEnv) (s : State) :
    Leaves s (execAtMinI32 q env s) := by
  unfold execAtMinI32
  try dsimp only
  repeat' with_reducible first
    | exact Keeps.refl _ | assumption | apply Leaves.next_of | exact Leaves.fault _ _ | exact Leaves.refused _ _
    | apply Keeps.step (runAtomic_keeps ..)

theorem execAtMinU32_keeps (q : QRef) (env : XferEnv) (s : State) :
    Leaves s (execAtMinU32 q env s) := by
  unfold execAtMinU32
  try dsimp only
  repeat' with_reducible first
    | exact Keeps.refl _ | assumption | apply Leaves.next_of | exact Leaves.fault _ _ | exact Leaves.refused _ _
    | apply Keeps.step (runAtomic_keeps ..)

theorem execAtOr_keeps (q : QRef) (env : XferEnv) (s : State) :
    Leaves s (execAtOr q env s) := by
  unfold execAtOr
  try dsimp only
  repeat' with_reducible first
    | exact Keeps.refl _ | assumption | apply Leaves.next_of | exact Leaves.fault _ _ | exact Leaves.refused _ _
    | apply Keeps.step (runAtomic_keeps ..)

theorem execAtSwapU32_keeps (q : QRef) (env : XferEnv) (s : State) :
    Leaves s (execAtSwapU32 q env s) := by
  unfold execAtSwapU32
  try dsimp only
  repeat' with_reducible first
    | exact Keeps.refl _ | assumption | apply Leaves.next_of | exact Leaves.fault _ _ | exact Leaves.refused _ _
    | apply Keeps.step (runAtomic_keeps ..)

theorem execAtSwapU64_keeps (q : QRef) (env : XferEnv) (s : State) :
    Leaves s (execAtSwapU64 q env s) := by
  unfold execAtSwapU64
  try dsimp only
  repeat' with_reducible first
    | exact Keeps.refl _ | assumption | apply Leaves.next_of | exact Leaves.fault _ _ | exact Leaves.refused _ _
    | apply Keeps.step (runAtomic_keeps ..)

theorem execAtXor_keeps (q : QRef) (env : XferEnv) (s : State) :
    Leaves s (execAtXor q env s) := by
  unfold execAtXor
  try dsimp only
  repeat' with_reducible first
    | exact Keeps.refl _ | assumption | apply Leaves.next_of | exact Leaves.fault _ _ | exact Leaves.refused _ _
    | apply Keeps.step (runAtomic_keeps ..)

theorem execAttestationRequest_keeps (nonce : List Byte) (s : State) :
    Leaves s (execAttestationRequest nonce s) := by
  unfold execAttestationRequest
  try dsimp only
  repeat' first
    | (with_reducible first
      | exact Keeps.refl _ | assumption | apply Leaves.next_of | exact Leaves.fault _ _ | exact Leaves.refused _ _
      | apply Keeps.step (State.writtenIf_keeps _ _ _ ?_) | apply Keeps.step (State.takeNonce_keeps ..)
      | apply Keeps.step (Keeps.foldl _ _ _ ?_) | apply Keeps.step (Keeps.foldl1 _ _ _ ?_))
    | (fail_if_no_progress (with_reducible apply Keeps.upd)) | (fail_if_no_progress (with_reducible apply Keeps.updHbm)) | split
    | (intro _; try dsimp only)

theorem execAttnBackward_keeps (region : BitVec 6) (env : MemEnv) (s : State) :
    Leaves s (execAttnBackward region env s) := by
  unfold execAttnBackward
  try dsimp only
  repeat' first
    | (with_reducible first
      | exact Keeps.refl _ | assumption | apply Leaves.next_of | exact Leaves.fault _ _ | exact Leaves.refused _ _
      | apply Keeps.step (State.attnCall_keeps _ _ _ _ _ ?_) | apply Keeps.step (attnBackwardCall_keeps ..)
      | apply Keeps.step (Keeps.foldl _ _ _ ?_) | apply Keeps.step (Keeps.foldl1 _ _ _ ?_))
    | (fail_if_no_progress (with_reducible apply Keeps.upd)) | (fail_if_no_progress (with_reducible apply Keeps.updHbm)) | split
    | (intro _; try dsimp only)

theorem execAttnForward_keeps (region : BitVec 6) (env : MemEnv) (s : State) :
    Leaves s (execAttnForward region env s) := by
  unfold execAttnForward
  try dsimp only
  repeat' first
    | (with_reducible first
      | exact Keeps.refl _ | assumption | apply Leaves.next_of | exact Leaves.fault _ _ | exact Leaves.refused _ _
      | apply Keeps.step (State.attnCall_keeps _ _ _ _ _ ?_) | apply Keeps.step (attnForwardCall_keeps ..)
      | apply Keeps.step (Keeps.foldl _ _ _ ?_) | apply Keeps.step (Keeps.foldl1 _ _ _ ?_))
    | (fail_if_no_progress (with_reducible apply Keeps.upd)) | (fail_if_no_progress (with_reducible apply Keeps.updHbm)) | split
    | (intro _; try dsimp only)

theorem execBeaconReceive_keeps (port : BitVec 6) (word : BitVec 64) (s : State) :
    Leaves s (execBeaconReceive port word s) := by
  unfold execBeaconReceive
  try dsimp only
  repeat' first
    | (with_reducible first
      | exact Keeps.refl _ | assumption | apply Leaves.next_of | exact Leaves.fault _ _ | exact Leaves.refused _ _
      | apply Keeps.step (State.setCtx_keeps ..) | apply Keeps.step (Keeps.foldl _ _ _ ?_)
      | apply Keeps.step (Keeps.foldl1 _ _ _ ?_))
    | (fail_if_no_progress (with_reducible apply Keeps.upd)) | (fail_if_no_progress (with_reducible apply Keeps.updHbm)) | split

theorem execLoadContext_keeps (e : JobEntry) (hostDesc : Option (List Byte)) (env : MemEnv) (s : State) :
    Leaves s (execLoadContext e hostDesc env s) := by
  unfold execLoadContext
  try dsimp only
  repeat' first
    | (with_reducible first
      | exact Keeps.refl _ | assumption | apply Leaves.next_of | exact Leaves.fault _ _ | exact Leaves.refused _ _
      | apply Keeps.step (State.coherently_keeps _ _ ?_) | apply Keeps.step (State.jobRun_keeps _ _ _ _ _ ?_)
      | apply Keeps.step (State.insideR_keeps _ _ _ ?_) | apply Keeps.step (State.loadDesc_keeps ..)
      | apply Keeps.step (State.storageEvent_keeps ..) | apply Keeps.step (State.metPoison_keeps ..)
      | apply Keeps.step (State.fetched_keeps ..) | apply Keeps.step (Keeps.foldl _ _ _ ?_)
      | apply Keeps.step (Keeps.foldl1 _ _ _ ?_))
    | (fail_if_no_progress (with_reducible apply Keeps.upd)) | (fail_if_no_progress (with_reducible apply Keeps.updHbm)) | split
    | (intro _; try dsimp only)

theorem execBiSnoopResponse_keeps (line : BitVec 33) (dirty : Option (List Byte)) (s : State) :
    Leaves s (execBiSnoopResponse line dirty s) := by
  unfold execBiSnoopResponse
  try dsimp only
  repeat' first
    | (with_reducible first
      | exact Keeps.refl _ | assumption | apply Leaves.next_of | exact Leaves.fault _ _ | exact Leaves.refused _ _
      | apply Keeps.step (State.writeRun_keeps ..) | apply Keeps.step (State.retryHeld_keeps ..)
      | apply Keeps.step (State.dropLine_keeps ..) | apply Keeps.step (Keeps.foldl _ _ _ ?_)
      | apply Keeps.step (Keeps.foldl1 _ _ _ ?_))
    | (fail_if_no_progress (with_reducible apply Keeps.upd)) | (fail_if_no_progress (with_reducible apply Keeps.updHbm)) | split

theorem execBr_keeps (i : Issue) (s : State) :
    Leaves s (execBr i s) := by
  unfold execBr
  try dsimp only
  repeat' first
    | (with_reducible first
      | exact Keeps.refl _ | assumption | apply Leaves.next_of | exact Leaves.fault _ _ | exact Leaves.refused _ _
      | apply Keeps.step (State.issue_keeps _ _ _ _ _ ?_) | apply Keeps.step (State.setFile_keeps ..)
      | apply Keeps.step (State.nextPc_keeps ..) | apply Keeps.step (Keeps.foldl _ _ _ ?_)
      | apply Keeps.step (Keeps.foldl1 _ _ _ ?_))
    | (fail_if_no_progress (with_reducible apply Keeps.upd)) | (fail_if_no_progress (with_reducible apply Keeps.updHbm)) | split
    | (intro _; try dsimp only)

theorem execBreakpointHit_keeps (core : BitVec 12) (s : State) :
    Leaves s (execBreakpointHit core s) := by
  unfold execBreakpointHit
  try dsimp only
  repeat' first
    | (with_reducible first
      | exact Keeps.refl _ | assumption | apply Leaves.next_of | exact Leaves.fault _ _ | exact Leaves.refused _ _
      | apply Keeps.step (State.traced_keeps ..) | apply Keeps.step (State.setFile_keeps ..)
      | apply Keeps.step (Keeps.foldl _ _ _ ?_) | apply Keeps.step (Keeps.foldl1 _ _ _ ?_))
    | (fail_if_no_progress (with_reducible apply Keeps.upd)) | (fail_if_no_progress (with_reducible apply Keeps.updHbm)) | split

theorem execBypass_keeps (s : State) :
    Leaves s (execBypass s) := by
  unfold execBypass
  try dsimp only
  repeat' first
    | (with_reducible first
      | exact Keeps.refl _ | assumption | apply Leaves.next_of | exact Leaves.fault _ _ | exact Leaves.refused _ _
      | apply Keeps.step (State.bypassed_keeps ..) | apply Keeps.step (Keeps.foldl _ _ _ ?_)
      | apply Keeps.step (Keeps.foldl1 _ _ _ ?_))
    | (fail_if_no_progress (with_reducible apply Keeps.upd)) | (fail_if_no_progress (with_reducible apply Keeps.updHbm)) | split

theorem execLoad_keeps (ch : BitVec 6) (parity : Option (BitVec 12)) (s : State) :
    Leaves s (execLoad ch parity s) := by
  unfold execLoad
  try dsimp only
  repeat' first
    | (with_reducible first
      | exact Keeps.refl _ | assumption | apply Leaves.next_of | exact Leaves.fault _ _ | exact Leaves.refused _ _
      | apply Keeps.step (State.startHead_keeps ..) | apply Keeps.step (State.chSettle_keeps ..)
      | apply Keeps.step (State.boundary_keeps ..) | apply Keeps.step (State.operandParity_keeps ..)
      | apply Keeps.step (Keeps.foldl _ _ _ ?_) | apply Keeps.step (Keeps.foldl1 _ _ _ ?_))
    | (fail_if_no_progress (with_reducible apply Keeps.upd)) | (fail_if_no_progress (with_reducible apply Keeps.updHbm)) | split

theorem execCal_keeps (ch : BitVec 6) (s : State) :
    Leaves s (execCal ch s) := by
  unfold execCal
  try dsimp only
  repeat' first
    | (with_reducible first
      | exact Keeps.refl _ | assumption | apply Leaves.next_of | exact Leaves.fault _ _ | exact Leaves.refused _ _
      | apply Keeps.step (State.chSettleAll_keeps ..) | apply Keeps.step (State.chComplete_keeps ..)
      | apply Keeps.step (State.dropHead_keeps ..) | apply Keeps.step (State.calibrate_keeps ..)
      | apply Keeps.step (State.boundary_keeps ..) | apply Keeps.step (State.startHead_keeps ..)
      | apply Keeps.step (State.chSettle_keeps ..) | apply Keeps.step (Keeps.foldl _ _ _ ?_)
      | apply Keeps.step (Keeps.foldl1 _ _ _ ?_))
    | (fail_if_no_progress (with_reducible apply Keeps.upd)) | (fail_if_no_progress (with_reducible apply Keeps.updHbm)) | split

theorem execCalibrationDone_keeps (ch : BitVec 6) (f : CalFinding) (s : State) :
    Leaves s (execCalibrationDone ch f s) := by
  unfold execCalibrationDone
  try dsimp only
  repeat' first
    | (with_reducible first
      | exact Keeps.refl _ | assumption | apply Leaves.next_of | exact Leaves.fault _ _ | exact Leaves.refused _ _
      | apply Keeps.step (State.setChurn_keeps ..) | apply Keeps.step (State.applyCal_keeps ..)
      | apply Keeps.step (State.setHealthy_keeps ..) | apply Keeps.step (State.chSettleAll_keeps ..)
      | apply Keeps.step (State.calAgain_keeps ..) | apply Keeps.step (State.orDark_keeps ..)
      | apply Keeps.step (State.calsDone_keeps ..) | apply Keeps.step (State.reloadBanks_keeps ..)
      | apply Keeps.step (Keeps.foldl _ _ _ ?_) | apply Keeps.step (Keeps.foldl1 _ _ _ ?_))
    | (fail_if_no_progress (with_reducible apply Keeps.upd)) | (fail_if_no_progress (with_reducible apply Keeps.updHbm)) | split

theorem execCalibrationDue_keeps (ch : BitVec 6) (s : State) :
    Leaves s (execCalibrationDue ch s) := by
  unfold execCalibrationDue
  try dsimp only
  repeat' first
    | (with_reducible first
      | exact Keeps.refl _ | assumption | apply Leaves.next_of | exact Leaves.fault _ _ | exact Leaves.refused _ _
      | apply Keeps.step (State.calibrate_keeps ..) | apply Keeps.step (Keeps.foldl _ _ _ ?_)
      | apply Keeps.step (Keeps.foldl1 _ _ _ ?_))
    | (fail_if_no_progress (with_reducible apply Keeps.upd)) | (fail_if_no_progress (with_reducible apply Keeps.updHbm)) | split

theorem execCapEvaluation_keeps (r : PowerReading) (s : State) :
    Leaves s (execCapEvaluation r s) := by
  unfold execCapEvaluation
  try dsimp only
  repeat' first
    | (with_reducible first
      | exact Keeps.refl _ | assumption | apply Leaves.next_of | exact Leaves.fault _ _ | exact Leaves.refused _ _
      | apply Keeps.step (State.bump_keeps ..) | apply Keeps.step (State.reducePower_keeps ..)
      | apply Keeps.step (Keeps.foldl _ _ _ ?_) | apply Keeps.step (Keeps.foldl1 _ _ _ ?_))
    | (fail_if_no_progress (with_reducible apply Keeps.upd)) | (fail_if_no_progress (with_reducible apply Keeps.updHbm)) | split

theorem execCissue_keeps (i : Issue) (s : State) :
    Leaves s (execCissue i s) := by
  unfold execCissue
  try dsimp only
  repeat' first
    | (with_reducible first
      | exact Keeps.refl _ | assumption | apply Leaves.next_of | exact Leaves.fault _ _ | exact Leaves.refused _ _
      | apply Keeps.step (State.issue_keeps _ _ _ _ _ ?_) | apply Keeps.step (State.nextPc_keeps ..)
      | apply Keeps.step (State.chSettle_keeps ..) | apply Keeps.step (State.setChurn_keeps ..)
      | apply Keeps.step (Keeps.foldl _ _ _ ?_) | apply Keeps.step (Keeps.foldl1 _ _ _ ?_))
    | (fail_if_no_progress (with_reducible apply Keeps.upd)) | (fail_if_no_progress (with_reducible apply Keeps.updHbm)) | split
    | (intro _; try dsimp only)

theorem execClockStop_keeps (domain : BitVec 5) (inst : BitVec 6) (s : State) :
    Leaves s (execClockStop domain inst s) := by
  unfold execClockStop
  try dsimp only
  repeat' first
    | (with_reducible first
      | exact Keeps.refl _ | assumption | apply Leaves.next_of | exact Leaves.fault _ _ | exact Leaves.refused _ _
      | apply Keeps.step (Keeps.foldl _ _ _ ?_) | apply Keeps.step (Keeps.foldl1 _ _ _ ?_))
    | (fail_if_no_progress (with_reducible apply Keeps.upd)) | (fail_if_no_progress (with_reducible apply Keeps.updHbm)) | split

theorem execClockWake_keeps (domain : BitVec 5) (inst : BitVec 6) (s : State) :
    Leaves s (execClockWake domain inst s) := by
  unfold execClockWake
  try dsimp only
  repeat' first
    | (with_reducible first
      | exact Keeps.refl _ | assumption | apply Leaves.next_of | exact Leaves.fault _ _ | exact Leaves.refused _ _
      | apply Keeps.step (State.wakeClocks_keeps ..) | apply Keeps.step (Keeps.foldl _ _ _ ?_)
      | apply Keeps.step (Keeps.foldl1 _ _ _ ?_))
    | (fail_if_no_progress (with_reducible apply Keeps.upd)) | (fail_if_no_progress (with_reducible apply Keeps.updHbm)) | split

theorem execCloseSession_keeps (m : Lly) (s : State) :
    Leaves s (execCloseSession m s) := by
  unfold execCloseSession
  try dsimp only
  repeat' with_reducible first
    | exact Keeps.refl _ | assumption | apply Leaves.next_of | exact Leaves.fault _ _ | exact Leaves.refused _ _
    | apply Keeps.step (State.hearLly_keeps ..)

theorem execShadowBankValid_keeps (ch : BitVec 6) (s : State) :
    Leaves s (execShadowBankValid ch s) := by
  unfold execShadowBankValid
  try dsimp only
  repeat' first
    | (with_reducible first
      | exact Keeps.refl _ | assumption | apply Leaves.next_of | exact Leaves.fault _ _ | exact Leaves.refused _ _
      | apply Keeps.step (State.chSettleAll_keeps ..) | apply Keeps.step (State.chComplete_keeps ..)
      | apply Keeps.step (State.setChurn_keeps ..) | apply Keeps.step (State.drawn_keeps ..)
      | apply Keeps.step (Keeps.foldl _ _ _ ?_) | apply Keeps.step (Keeps.foldl1 _ _ _ ?_))
    | (fail_if_no_progress (with_reducible apply Keeps.upd)) | (fail_if_no_progress (with_reducible apply Keeps.updHbm)) | split

theorem execCodeRelease_keeps (ch : BitVec 6) (s : State) :
    Leaves s (execCodeRelease ch s) := by
  unfold execCodeRelease
  try dsimp only
  repeat' first
    | (with_reducible first
      | exact Keeps.refl _ | assumption | apply Leaves.next_of | exact Leaves.fault _ _ | exact Leaves.refused _ _
      | apply Keeps.step (State.takeCodes_keeps ..) | apply Keeps.step (State.chSettleAll_keeps ..)
      | apply Keeps.step (State.setChurn_keeps ..) | apply Keeps.step (Keeps.foldl _ _ _ ?_)
      | apply Keeps.step (Keeps.foldl1 _ _ _ ?_))
    | (fail_if_no_progress (with_reducible apply Keeps.upd)) | (fail_if_no_progress (with_reducible apply Keeps.updHbm)) | split

theorem execCoherenceTimeout_keeps (line : BitVec 33) (s : State) :
    Leaves s (execCoherenceTimeout line s) := by
  unfold execCoherenceTimeout
  try dsimp only
  repeat' first
    | (with_reducible first
      | exact Keeps.refl _ | assumption | apply Leaves.next_of | exact Leaves.fault _ _ | exact Leaves.refused _ _
      | apply Keeps.step (State.linkRecovers_keeps ..) | apply Keeps.step (State.dropLine_keeps ..)
      | apply Keeps.step (State.herdEvent_keeps ..) | apply Keeps.step (State.bump_keeps ..)
      | apply Keeps.step (Keeps.foldl _ _ _ ?_) | apply Keeps.step (Keeps.foldl1 _ _ _ ?_))
    | (fail_if_no_progress (with_reducible apply Keeps.upd)) | (fail_if_no_progress (with_reducible apply Keeps.updHbm)) | split

theorem execColdStart_keeps (s : State) :
    Leaves s (execColdStart s) := by
  unfold execColdStart
  try dsimp only
  repeat' first
    | (with_reducible first
      | exact Keeps.refl _ | assumption | apply Leaves.next_of | exact Leaves.fault _ _ | exact Leaves.refused _ _
      | apply Keeps.step (State.coldBoot_keeps ..) | apply Keeps.step (Keeps.foldl _ _ _ ?_)
      | apply Keeps.step (Keeps.foldl1 _ _ _ ?_))
    | (fail_if_no_progress (with_reducible apply Keeps.upd)) | (fail_if_no_progress (with_reducible apply Keeps.updHbm)) | split

theorem execColl_keeps (env : MemEnv) (s : State) :
    Leaves s (execColl env s) := by
  unfold execColl
  try dsimp only
  repeat' first
    | (with_reducible first
      | exact Keeps.refl _ | assumption | apply Leaves.next_of | exact Leaves.fault _ _ | exact Leaves.refused _ _
      | apply Keeps.step (State.flowRunIn_keeps _ _ _ _ ?_) | apply Keeps.step (collStart_keeps ..)
      | apply Keeps.step (Keeps.foldl _ _ _ ?_) | apply Keeps.step (Keeps.foldl1 _ _ _ ?_))
    | (fail_if_no_progress (with_reducible apply Keeps.upd)) | (fail_if_no_progress (with_reducible apply Keeps.updHbm)) | split
    | (intro _; try dsimp only)

theorem execCongestionMapLatch_keeps (s : State) :
    Leaves s (execCongestionMapLatch s) := by
  unfold execCongestionMapLatch
  try dsimp only
  repeat' first
    | (with_reducible first
      | exact Keeps.refl _ | assumption | apply Leaves.next_of | exact Leaves.fault _ _ | exact Leaves.refused _ _
      | apply Keeps.step (State.latchMap_keeps ..) | apply Keeps.step (Keeps.foldl _ _ _ ?_)
      | apply Keeps.step (Keeps.foldl1 _ _ _ ?_))
    | (fail_if_no_progress (with_reducible apply Keeps.upd)) | (fail_if_no_progress (with_reducible apply Keeps.updHbm)) | split

theorem execContextFirstRun_keeps (env : MemEnv) (s : State) :
    Leaves s (execContextFirstRun env s) := by
  unfold execContextFirstRun
  try dsimp only
  repeat' first
    | (with_reducible first
      | exact Keeps.refl _ | assumption | apply Leaves.next_of | exact Leaves.fault _ _ | exact Leaves.refused _ _
      | apply Keeps.step (State.within_keeps _ _ _ ?_) | apply Keeps.step (State.swapCtx_keeps ..)
      | apply Keeps.step (State.sendBeacons_keeps ..) | apply Keeps.step (State.beginStep_keeps ..)
      | apply Keeps.step (State.setCtx_keeps ..) | apply Keeps.step (Keeps.foldl _ _ _ ?_)
      | apply Keeps.step (Keeps.foldl1 _ _ _ ?_))
    | (fail_if_no_progress (with_reducible apply Keeps.upd)) | (fail_if_no_progress (with_reducible apply Keeps.updHbm)) | split
    | (intro _; try dsimp only)

theorem execContextSwitch_keeps (env : MemEnv) (s : State) :
    Leaves s (execContextSwitch env s) := by
  unfold execContextSwitch
  try dsimp only
  repeat' first
    | (with_reducible first
      | exact Keeps.refl _ | assumption | apply Leaves.next_of | exact Leaves.fault _ _ | exact Leaves.refused _ _
      | apply Keeps.step (State.within_keeps _ _ _ ?_) | apply Keeps.step (State.setCtx_keeps ..)
      | apply Keeps.step (State.bump_keeps ..) | apply Keeps.step (State.swapCtx_keeps ..)
      | apply Keeps.step (State.startShares_keeps ..) | apply Keeps.step (Keeps.foldl _ _ _ ?_)
      | apply Keeps.step (Keeps.foldl1 _ _ _ ?_))
    | (fail_if_no_progress (with_reducible apply Keeps.upd)) | (fail_if_no_progress (with_reducible apply Keeps.updHbm)) | split
    | (intro _; try dsimp only)

theorem execControlBlockReceive_keeps (port : BitVec 6) (b : CtlBlock) (s : State) :
    Leaves s (execControlBlockReceive port b s) := by
  unfold execControlBlockReceive
  try dsimp only
  repeat' first
    | (with_reducible first
      | exact Keeps.refl _ | assumption | apply Leaves.next_of | exact Leaves.fault _ _ | exact Leaves.refused _ _
      | apply Keeps.step (State.countFrames_keeps ..) | apply Keeps.step (State.badBlock_keeps ..)
      | apply Keeps.step (State.takeTold_keeps ..) | apply Keeps.step (State.takeAgree_keeps ..)
      | apply Keeps.step (State.takeTime_keeps ..) | apply Keeps.step (State.linkBlock_keeps ..)
      | apply Keeps.step (Keeps.foldl _ _ _ ?_) | apply Keeps.step (Keeps.foldl1 _ _ _ ?_))
    | (fail_if_no_progress (with_reducible apply Keeps.upd)) | (fail_if_no_progress (with_reducible apply Keeps.updHbm)) | split

theorem execCoolantLoss_keeps (s : State) :
    Leaves s (execCoolantLoss s) := by
  unfold execCoolantLoss
  try dsimp only
  repeat' with_reducible first
    | exact Keeps.refl _ | assumption | apply Leaves.next_of | exact Leaves.fault _ _ | exact Leaves.refused _ _
    | apply Keeps.step (State.enterSafe_keeps ..)

theorem execCopy_keeps (q : QRef) (env : XferEnv) (s : State) :
    Leaves s (execCopy q env s) := by
  unfold execCopy
  try dsimp only
  repeat' first
    | (with_reducible first
      | exact Keeps.refl _ | assumption | apply Leaves.next_of | exact Leaves.fault _ _ | exact Leaves.refused _ _
      | apply Keeps.step (State.dmaRun_keeps _ _ _ _ ?_) | apply Keeps.step (dmaCopy_keeps ..)
      | apply Keeps.step (Keeps.foldl _ _ _ ?_) | apply Keeps.step (Keeps.foldl1 _ _ _ ?_))
    | (fail_if_no_progress (with_reducible apply Keeps.upd)) | (fail_if_no_progress (with_reducible apply Keeps.updHbm)) | split
    | (intro _; try dsimp only)

theorem execCpop_keeps (i : Issue) (s : State) :
    Leaves s (execCpop i s) := by
  unfold execCpop
  try dsimp only
  repeat' first
    | (with_reducible first
      | exact Keeps.refl _ | assumption | apply Leaves.next_of | exact Leaves.fault _ _ | exact Leaves.refused _ _
      | apply Keeps.step (State.issue_keeps _ _ _ _ _ ?_) | apply Keeps.step (State.nextPc_keeps ..)
      | apply Keeps.step (State.chSettle_keeps ..) | apply Keeps.step (State.chRefill_keeps ..)
      | apply Keeps.step (State.setChurn_keeps ..) | apply Keeps.step (Keeps.foldl _ _ _ ?_)
      | apply Keeps.step (Keeps.foldl1 _ _ _ ?_))
    | (fail_if_no_progress (with_reducible apply Keeps.upd)) | (fail_if_no_progress (with_reducible apply Keeps.updHbm)) | split
    | (intro _; try dsimp only)

theorem execCpopnb_keeps (i : Issue) (s : State) :
    Leaves s (execCpopnb i s) := by
  unfold execCpopnb
  try dsimp only
  repeat' first
    | (with_reducible first
      | exact Keeps.refl _ | assumption | apply Leaves.next_of | exact Leaves.fault _ _ | exact Leaves.refused _ _
      | apply Keeps.step (State.issue_keeps _ _ _ _ _ ?_) | apply Keeps.step (State.nextPc_keeps ..)
      | apply Keeps.step (State.chSettle_keeps ..) | apply Keeps.step (State.chRefill_keeps ..)
      | apply Keeps.step (State.setChurn_keeps ..) | apply Keeps.step (Keeps.foldl _ _ _ ?_)
      | apply Keeps.step (Keeps.foldl1 _ _ _ ?_))
    | (fail_if_no_progress (with_reducible apply Keeps.upd)) | (fail_if_no_progress (with_reducible apply Keeps.updHbm)) | split
    | (intro _; try dsimp only)

theorem execCrossingReset_keeps (group : BitVec 4) (inst : BitVec 6) (s : State) :
    Leaves s (execCrossingReset group inst s) := by
  unfold execCrossingReset
  try dsimp only
  repeat' first
    | (with_reducible first
      | exact Keeps.refl _ | assumption | apply Leaves.next_of | exact Leaves.fault _ _ | exact Leaves.refused _ _
      | apply Keeps.step (State.resetGroup_keeps ..) | apply Keeps.step (Keeps.foldl _ _ _ ?_)
      | apply Keeps.step (Keeps.foldl1 _ _ _ ?_))
    | (fail_if_no_progress (with_reducible apply Keeps.upd)) | (fail_if_no_progress (with_reducible apply Keeps.updHbm)) | split

theorem execCurrentLimit_keeps (rail : BitVec 5) (peak : BitVec 16) (s : State) :
    Leaves s (execCurrentLimit rail peak s) := by
  unfold execCurrentLimit
  try dsimp only
  repeat' first
    | (with_reducible first
      | exact Keeps.refl _ | assumption | apply Leaves.next_of | exact Leaves.fault _ _ | exact Leaves.refused _ _
      | apply Keeps.step (State.drawn_keeps ..) | apply Keeps.step (State.herdEvent_keeps ..)
      | apply Keeps.step (State.bump_keeps ..) | apply Keeps.step (State.settleBallast_keeps ..)
      | apply Keeps.step (State.settleRamps_keeps ..) | apply Keeps.step (Keeps.foldl _ _ _ ?_)
      | apply Keeps.step (Keeps.foldl1 _ _ _ ?_))
    | (fail_if_no_progress (with_reducible apply Keeps.upd)) | (fail_if_no_progress (with_reducible apply Keeps.updHbm)) | split

theorem execCurrentLimitRelease_keeps (rail : BitVec 5) (s : State) :
    Leaves s (execCurrentLimitRelease rail s) := by
  unfold execCurrentLimitRelease
  try dsimp only
  repeat' first
    | (with_reducible first
      | exact Keeps.refl _ | assumption | apply Leaves.next_of | exact Leaves.fault _ _ | exact Leaves.refused _ _
      | apply Keeps.step (Keeps.foldl _ _ _ ?_) | apply Keeps.step (Keeps.foldl1 _ _ _ ?_))
    | (fail_if_no_progress (with_reducible apply Keeps.upd)) | (fail_if_no_progress (with_reducible apply Keeps.updHbm)) | split

theorem execCxlLinkDown_keeps (s : State) :
    Leaves s (execCxlLinkDown s) := by
  unfold execCxlLinkDown
  try dsimp only
  repeat' first
    | (with_reducible first
      | exact Keeps.refl _ | assumption | apply Leaves.next_of | exact Leaves.fault _ _ | exact Leaves.refused _ _
      | apply Keeps.step (State.linkRecovers_keeps ..) | apply Keeps.step (Keeps.foldl _ _ _ ?_)
      | apply Keeps.step (Keeps.foldl1 _ _ _ ?_))
    | (fail_if_no_progress (with_reducible apply Keeps.upd)) | (fail_if_no_progress (with_reducible apply Keeps.updHbm)) | split

theorem execCxlLinkUp_keeps (width : BitVec 8) (speed : BitVec 8) (head : BitVec 64) (rspDone : BitVec 64) (s : State) :
    Leaves s (execCxlLinkUp width speed head rspDone s) := by
  unfold execCxlLinkUp
  try dsimp only
  repeat' first
    | (with_reducible first
      | exact Keeps.refl _ | assumption | apply Leaves.next_of | exact Leaves.fault _ _ | exact Leaves.refused _ _
      | apply Keeps.step (State.odp_keeps ..) | apply Keeps.step (State.readHead_keeps ..)
      | apply Keeps.step (Keeps.foldl _ _ _ ?_) | apply Keeps.step (Keeps.foldl1 _ _ _ ?_))
    | (fail_if_no_progress (with_reducible apply Keeps.upd)) | (fail_if_no_progress (with_reducible apply Keeps.updHbm)) | split

theorem execDarkTimeout_keeps (ch : BitVec 6) (s : State) :
    Leaves s (execDarkTimeout ch s) := by
  unfold execDarkTimeout
  try dsimp only
  repeat' first
    | (with_reducible first
      | exact Keeps.refl _ | assumption | apply Leaves.next_of | exact Leaves.fault _ _ | exact Leaves.refused _ _
      | apply Keeps.step (State.setChurn_keeps ..) | apply Keeps.step (Keeps.foldl _ _ _ ?_)
      | apply Keeps.step (Keeps.foldl1 _ _ _ ?_))
    | (fail_if_no_progress (with_reducible apply Keeps.upd)) | (fail_if_no_progress (with_reducible apply Keeps.updHbm)) | split

theorem execDbgStep_keeps (r : DbgReq) (s : State) :
    Leaves s (execDbgStep r s) := by
  unfold execDbgStep
  try dsimp only
  repeat' first
    | (with_reducible first
      | exact Keeps.refl _ | assumption | apply Leaves.next_of | exact Leaves.fault _ _ | exact Leaves.refused _ _
      | apply Keeps.step (State.dbgAccess_keeps _ _ _ _ _ _ ?_) | apply Keeps.step (State.dbgDone_keeps ..)
      | apply Keeps.step (State.setFile_keeps ..) | apply Keeps.step (Keeps.foldl _ _ _ ?_)
      | apply Keeps.step (Keeps.foldl1 _ _ _ ?_))
    | (fail_if_no_progress (with_reducible apply Keeps.upd)) | (fail_if_no_progress (with_reducible apply Keeps.updHbm)) | split
    | (intro _; try dsimp only)

theorem execDeadline_keeps (s : State) :
    Leaves s (execDeadline s) := by
  unfold execDeadline
  try dsimp only
  repeat' first
    | (with_reducible first
      | exact Keeps.refl _ | assumption | apply Leaves.next_of | exact Leaves.fault _ _ | exact Leaves.refused _ _
      | apply Keeps.step (State.timedRun_keeps _ _ _ ?_) | apply Keeps.step (State.lostEvent_keeps ..)
      | apply Keeps.step (State.entryDone_keeps ..) | apply Keeps.step (State.sendBeacons_keeps ..)
      | apply Keeps.step (State.setCtx_keeps ..) | apply Keeps.step (Keeps.foldl _ _ _ ?_)
      | apply Keeps.step (Keeps.foldl1 _ _ _ ?_))
    | (fail_if_no_progress (with_reducible apply Keeps.upd)) | (fail_if_no_progress (with_reducible apply Keeps.updHbm)) | split
    | (intro _; try dsimp only)

theorem execDebugDisable_keeps (v : BitVec 8) (s : State) :
    Leaves s (execDebugDisable v s) := by
  unfold execDebugDisable
  try dsimp only
  repeat' first
    | (with_reducible first
      | exact Keeps.refl _ | assumption | apply Leaves.next_of | exact Leaves.fault _ _ | exact Leaves.refused _ _
      | apply Keeps.step (State.writtenIf_keeps _ _ _ ?_) | apply Keeps.step (State.takeDebugDisable_keeps ..)
      | apply Keeps.step (Keeps.foldl _ _ _ ?_) | apply Keeps.step (Keeps.foldl1 _ _ _ ?_))
    | (fail_if_no_progress (with_reducible apply Keeps.upd)) | (fail_if_no_progress (with_reducible apply Keeps.updHbm)) | split
    | (intro _; try dsimp only)

theorem execDebugEnable_keeps (v : BitVec 8) (s : State) :
    Leaves s (execDebugEnable v s) := by
  unfold execDebugEnable
  try dsimp only
  repeat' first
    | (with_reducible first
      | exact Keeps.refl _ | assumption | apply Leaves.next_of | exact Leaves.fault _ _ | exact Leaves.refused _ _
      | apply Keeps.step (State.secWrite_keeps _ _ ?_) | apply Keeps.step (State.takeDebugEnable_keeps ..)
      | apply Keeps.step (Keeps.foldl _ _ _ ?_) | apply Keeps.step (Keeps.foldl1 _ _ _ ?_))
    | (fail_if_no_progress (with_reducible apply Keeps.upd)) | (fail_if_no_progress (with_reducible apply Keeps.updHbm)) | split
    | (intro _; try dsimp only)

theorem execDebugNop_keeps (r : DbgReq) (s : State) :
    Leaves s (execDebugNop r s) := by
  unfold execDebugNop
  try dsimp only
  repeat' first
    | (with_reducible first
      | exact Keeps.refl _ | assumption | apply Leaves.next_of | exact Leaves.fault _ _ | exact Leaves.refused _ _
      | apply Keeps.step (State.dbgAccess_keeps _ _ _ _ _ _ ?_) | apply Keeps.step (State.dbgDone_keeps ..)
      | apply Keeps.step (Keeps.foldl _ _ _ ?_) | apply Keeps.step (Keeps.foldl1 _ _ _ ?_))
    | (fail_if_no_progress (with_reducible apply Keeps.upd)) | (fail_if_no_progress (with_reducible apply Keeps.updHbm)) | split
    | (intro _; try dsimp only)

theorem execDebugRead_keeps (r : DbgReq) (env : MemEnv) (s : State) :
    Leaves s (execDebugRead r env s) := by
  unfold execDebugRead
  try dsimp only
  repeat' first
    | (with_reducible first
      | exact Keeps.refl _ | assumption | apply Leaves.next_of | exact Leaves.fault _ _ | exact Leaves.refused _ _
      | apply Keeps.step (State.dbgAccess_keeps _ _ _ _ _ _ ?_) | apply Keeps.step (State.dbgWord_keeps ..)
      | apply Keeps.step (Keeps.foldl _ _ _ ?_) | apply Keeps.step (Keeps.foldl1 _ _ _ ?_))
    | (fail_if_no_progress (with_reducible apply Keeps.upd)) | (fail_if_no_progress (with_reducible apply Keeps.updHbm)) | split
    | (intro _; try dsimp only)

theorem execDebugWrite_keeps (r : DbgReq) (env : MemEnv) (s : State) :
    Leaves s (execDebugWrite r env s) := by
  unfold execDebugWrite
  try dsimp only
  repeat' first
    | (with_reducible first
      | exact Keeps.refl _ | assumption | apply Leaves.next_of | exact Leaves.fault _ _ | exact Leaves.refused _ _
      | apply Keeps.step (State.dbgAccess_keeps _ _ _ _ _ _ ?_) | apply Keeps.step (State.dbgWord_keeps ..)
      | apply Keeps.step (Keeps.foldl _ _ _ ?_) | apply Keeps.step (Keeps.foldl1 _ _ _ ?_))
    | (fail_if_no_progress (with_reducible apply Keeps.upd)) | (fail_if_no_progress (with_reducible apply Keeps.updHbm)) | split
    | (intro _; try dsimp only)

theorem execDeriv_keeps (i : Issue) (s : State) :
    Leaves s (execDeriv i s) := by
  unfold execDeriv
  try dsimp only
  repeat' first
    | (with_reducible first
      | exact Keeps.refl _ | assumption | apply Leaves.next_of | exact Leaves.fault _ _ | exact Leaves.refused _ _
      | apply Keeps.step (State.issue_keeps _ _ _ _ _ ?_) | apply Keeps.step (unOp_keeps ..)
      | apply Keeps.step (Keeps.foldl _ _ _ ?_) | apply Keeps.step (Keeps.foldl1 _ _ _ ?_))
    | (fail_if_no_progress (with_reducible apply Keeps.upd)) | (fail_if_no_progress (with_reducible apply Keeps.updHbm)) | split
    | (intro _; try dsimp only)

theorem execDescribe_keeps (m : Lly) (s : State) :
    Leaves s (execDescribe m s) := by
  unfold execDescribe
  try dsimp only
  repeat' with_reducible first
    | exact Keeps.refl _ | assumption | apply Leaves.next_of | exact Leaves.fault _ _ | exact Leaves.refused _ _
    | apply Keeps.step (State.hearLly_keeps ..)

theorem execDescriptorFetch_keeps (q : QRef) (env : XferEnv) (s : State) :
    Leaves s (execDescriptorFetch q env s) := by
  unfold execDescriptorFetch
  try dsimp only
  repeat' first
    | (with_reducible first
      | exact Keeps.refl _ | assumption | apply Leaves.next_of | exact Leaves.fault _ _ | exact Leaves.refused _ _
      | apply Keeps.step (State.coherent_keeps _ _ _ ?_) | apply Keeps.step (State.readEntry_keeps ..)
      | apply Keeps.step (State.dmaSettle_keeps ..) | apply Keeps.step (State.setDq_keeps ..)
      | apply Keeps.step (Keeps.foldl _ _ _ ?_) | apply Keeps.step (Keeps.foldl1 _ _ _ ?_))
    | (fail_if_no_progress (with_reducible apply Keeps.upd)) | (fail_if_no_progress (with_reducible apply Keeps.updHbm)) | split
    | (intro _; try dsimp only)

theorem execDmaCompletion_keeps (q : QRef) (s : State) :
    Leaves s (execDmaCompletion q s) := by
  unfold execDmaCompletion
  try dsimp only
  repeat' first
    | (with_reducible first
      | exact Keeps.refl _ | assumption | apply Leaves.next_of | exact Leaves.fault _ _ | exact Leaves.refused _ _
      | apply Keeps.step (State.dmaSettle_keeps ..) | apply Keeps.step (State.coherent_keeps _ _ _ ?_)
      | apply Keeps.step (State.setDq_keeps ..) | apply Keeps.step (State.putRecord_keeps ..)
      | apply Keeps.step (State.dmaCounts_keeps ..) | apply Keeps.step (State.traced_keeps ..)
      | apply Keeps.step (State.signal_keeps ..) | apply Keeps.step (Keeps.foldl _ _ _ ?_)
      | apply Keeps.step (Keeps.foldl1 _ _ _ ?_))
    | (fail_if_no_progress (with_reducible apply Keeps.upd)) | (fail_if_no_progress (with_reducible apply Keeps.updHbm)) | split
    | (intro _; try dsimp only)

theorem execDqLaneSteer_keeps (stack : BitVec 3) (channel : BitVec 5) (s : State) :
    Leaves s (execDqLaneSteer stack channel s) := by
  unfold execDqLaneSteer
  try dsimp only
  repeat' first
    | (with_reducible first
      | exact Keeps.refl _ | assumption | apply Leaves.next_of | exact Leaves.fault _ _ | exact Leaves.refused _ _
      | apply Keeps.step (State.steerLane_keeps ..) | apply Keeps.step (Keeps.foldl _ _ _ ?_)
      | apply Keeps.step (Keeps.foldl1 _ _ _ ?_))
    | (fail_if_no_progress (with_reducible apply Keeps.upd)) | (fail_if_no_progress (with_reducible apply Keeps.updHbm)) | split

theorem execDroopDetect_keeps (region : BitVec 6) (s : State) :
    Leaves s (execDroopDetect region s) := by
  unfold execDroopDetect
  try dsimp only
  repeat' first
    | (with_reducible first
      | exact Keeps.refl _ | assumption | apply Leaves.next_of | exact Leaves.fault _ _ | exact Leaves.refused _ _
      | apply Keeps.step (State.bump_keeps ..) | apply Keeps.step (State.odp_keeps ..) | apply Keeps.step (Keeps.foldl _ _ _ ?_)
      | apply Keeps.step (Keeps.foldl1 _ _ _ ?_))
    | (fail_if_no_progress (with_reducible apply Keeps.upd)) | (fail_if_no_progress (with_reducible apply Keeps.updHbm)) | split

theorem execDroopRelease_keeps (region : BitVec 6) (s : State) :
    Leaves s (execDroopRelease region s) := by
  unfold execDroopRelease
  try dsimp only
  repeat' first
    | (with_reducible first
      | exact Keeps.refl _ | assumption | apply Leaves.next_of | exact Leaves.fault _ _ | exact Leaves.refused _ _
      | apply Keeps.step (State.odp_keeps ..) | apply Keeps.step (Keeps.foldl _ _ _ ?_)
      | apply Keeps.step (Keeps.foldl1 _ _ _ ?_))
    | (fail_if_no_progress (with_reducible apply Keeps.upd)) | (fail_if_no_progress (with_reducible apply Keeps.updHbm)) | split

theorem execEndp_keeps (i : Issue) (s : State) :
    Leaves s (execEndp i s) := by
  unfold execEndp
  try dsimp only
  repeat' first
    | (with_reducible first
      | exact Keeps.refl _ | assumption | apply Leaves.next_of | exact Leaves.fault _ _ | exact Leaves.refused _ _
      | apply Keeps.step (State.issue_keeps _ _ _ _ _ ?_) | apply Keeps.step (State.settleStarts_keeps ..)
      | apply Keeps.step (State.setFile_keeps ..) | apply Keeps.step (Keeps.foldl _ _ _ ?_)
      | apply Keeps.step (Keeps.foldl1 _ _ _ ?_))
    | (fail_if_no_progress (with_reducible apply Keeps.upd)) | (fail_if_no_progress (with_reducible apply Keeps.updHbm)) | split
    | (intro _; try dsimp only)

theorem execEpoch_keeps (s : State) :
    Leaves s (execEpoch s) := by
  unfold execEpoch
  try dsimp only
  repeat' first
    | (with_reducible first
      | exact Keeps.refl _ | assumption | apply Leaves.next_of | exact Leaves.fault _ _ | exact Leaves.refused _ _
      | apply Keeps.step (State.timedRun_keeps _ _ _ ?_) | apply Keeps.step (State.entryDone_keeps ..)
      | apply Keeps.step (State.setEpoch_keeps ..) | apply Keeps.step (Keeps.foldl _ _ _ ?_)
      | apply Keeps.step (Keeps.foldl1 _ _ _ ?_))
    | (fail_if_no_progress (with_reducible apply Keeps.upd)) | (fail_if_no_progress (with_reducible apply Keeps.updHbm)) | split
    | (intro _; try dsimp only)

theorem execEpochSelectRequest_keeps (v : BitVec 64) (s : State) :
    Leaves s (execEpochSelectRequest v s) := by
  unfold execEpochSelectRequest
  try dsimp only
  repeat' first
    | (with_reducible first
      | exact Keeps.refl _ | assumption | apply Leaves.next_of | exact Leaves.fault _ _ | exact Leaves.refused _ _
      | apply Keeps.step (State.answered_keeps ..) | apply Keeps.step (State.takeEpochSelect_keeps ..)
      | apply Keeps.step (Keeps.foldl _ _ _ ?_) | apply Keeps.step (Keeps.foldl1 _ _ _ ?_))
    | (fail_if_no_progress (with_reducible apply Keeps.upd)) | (fail_if_no_progress (with_reducible apply Keeps.updHbm)) | split

theorem execEstimateDisagreement_keeps (rail : BitVec 5) (ended : Bool) (s : State) :
    Leaves s (execEstimateDisagreement rail ended s) := by
  unfold execEstimateDisagreement
  try dsimp only
  repeat' first
    | (with_reducible first
      | exact Keeps.refl _ | assumption | apply Leaves.next_of | exact Leaves.fault _ _ | exact Leaves.refused _ _
      | apply Keeps.step (State.bump_keeps ..) | apply Keeps.step (State.odp_keeps ..)
      | apply Keeps.step (State.request_keeps ..) | apply Keeps.step (State.herdEvent_keeps ..)
      | apply Keeps.step (Keeps.foldl _ _ _ ?_) | apply Keeps.step (Keeps.foldl1 _ _ _ ?_))
    | (fail_if_no_progress (with_reducible apply Keeps.upd)) | (fail_if_no_progress (with_reducible apply Keeps.updHbm)) | split

theorem execExtest_keeps (pins : BitVec 64) (cells : BitVec 64) (s : State) :
    Leaves s (execExtest pins cells s) := by
  unfold execExtest
  try dsimp only
  repeat' first
    | (with_reducible first
      | exact Keeps.refl _ | assumption | apply Leaves.next_of | exact Leaves.fault _ _ | exact Leaves.refused _ _
      | apply Keeps.step (State.emit_keeps ..) | apply Keeps.step (State.bypassed_keeps ..)
      | apply Keeps.step (Keeps.foldl _ _ _ ?_) | apply Keeps.step (Keeps.foldl1 _ _ _ ?_))
    | (fail_if_no_progress (with_reducible apply Keeps.upd)) | (fail_if_no_progress (with_reducible apply Keeps.updHbm)) | split

theorem execFence_keeps (i : Issue) (s : State) :
    Leaves s (execFence i s) := by
  unfold execFence
  try dsimp only
  repeat' first
    | (with_reducible first
      | exact Keeps.refl _ | assumption | apply Leaves.next_of | exact Leaves.fault _ _ | exact Leaves.refused _ _
      | apply Keeps.step (State.issue_keeps _ _ _ _ _ ?_) | apply Keeps.step (State.nextPc_keeps ..)
      | apply Keeps.step (Keeps.foldl _ _ _ ?_) | apply Keeps.step (Keeps.foldl1 _ _ _ ?_))
    | (fail_if_no_progress (with_reducible apply Keeps.upd)) | (fail_if_no_progress (with_reducible apply Keeps.updHbm)) | split
    | (intro _; try dsimp only)

theorem execFill_keeps (q : QRef) (env : XferEnv) (s : State) :
    Leaves s (execFill q env s) := by
  unfold execFill
  try dsimp only
  repeat' first
    | (with_reducible first
      | exact Keeps.refl _ | assumption | apply Leaves.next_of | exact Leaves.fault _ _ | exact Leaves.refused _ _
      | apply Keeps.step (State.dmaRun_keeps _ _ _ _ ?_) | apply Keeps.step (dmaFill_keeps ..)
      | apply Keeps.step (Keeps.foldl _ _ _ ?_) | apply Keeps.step (Keeps.foldl1 _ _ _ ?_))
    | (fail_if_no_progress (with_reducible apply Keeps.upd)) | (fail_if_no_progress (with_reducible apply Keeps.updHbm)) | split
    | (intro _; try dsimp only)

theorem execFunc_keeps (i : Issue) (s : State) :
    Leaves s (execFunc i s) := by
  unfold execFunc
  try dsimp only
  repeat' first
    | (with_reducible first
      | exact Keeps.refl _ | assumption | apply Leaves.next_of | exact Leaves.fault _ _ | exact Leaves.refused _ _
      | apply Keeps.step (State.issue_keeps _ _ _ _ _ ?_) | apply Keeps.step (unOp_keeps ..)
      | apply Keeps.step (Keeps.foldl _ _ _ ?_) | apply Keeps.step (Keeps.foldl1 _ _ _ ?_))
    | (fail_if_no_progress (with_reducible apply Keeps.upd)) | (fail_if_no_progress (with_reducible apply Keeps.updHbm)) | split
    | (intro _; try dsimp only)

theorem execFunctionReset_keeps (s : State) :
    Leaves s (execFunctionReset s) := by
  unfold execFunctionReset
  try dsimp only
  repeat' first
    | (with_reducible first
      | exact Keeps.refl _ | assumption | apply Leaves.next_of | exact Leaves.fault _ _ | exact Leaves.refused _ _
      | apply Keeps.step (State.hostDefaults_keeps ..) | apply Keeps.step (Keeps.foldl _ _ _ ?_)
      | apply Keeps.step (Keeps.foldl1 _ _ _ ?_))
    | (fail_if_no_progress (with_reducible apply Keeps.upd)) | (fail_if_no_progress (with_reducible apply Keeps.updHbm)) | split

theorem execGather_keeps (env : MemEnv) (s : State) :
    Leaves s (execGather env s) := by
  unfold execGather
  try dsimp only
  repeat' first
    | (with_reducible first
      | exact Keeps.refl _ | assumption | apply Leaves.next_of | exact Leaves.fault _ _ | exact Leaves.refused _ _
      | apply Keeps.step (State.flowRunIn_keeps _ _ _ _ ?_) | apply Keeps.step (gatherStart_keeps ..)
      | apply Keeps.step (Keeps.foldl _ _ _ ?_) | apply Keeps.step (Keeps.foldl1 _ _ _ ?_))
    | (fail_if_no_progress (with_reducible apply Keeps.upd)) | (fail_if_no_progress (with_reducible apply Keeps.updHbm)) | split
    | (intro _; try dsimp only)

theorem execGatherTileConvert_keeps (k : Nat) (tile : Nat) (s : State) :
    Leaves s (execGatherTileConvert k tile s) := by
  unfold execGatherTileConvert
  try dsimp only
  repeat' first
    | (with_reducible first
      | exact Keeps.refl _ | assumption | apply Leaves.next_of | exact Leaves.fault _ _ | exact Leaves.refused _ _
      | apply Keeps.step (State.gatherWrite_keeps ..) | apply Keeps.step (State.putRegion_keeps ..)
      | apply Keeps.step (State.gatherSettle_keeps ..) | apply Keeps.step (Keeps.foldl _ _ _ ?_)
      | apply Keeps.step (Keeps.foldl1 _ _ _ ?_))
    | (fail_if_no_progress (with_reducible apply Keeps.upd)) | (fail_if_no_progress (with_reducible apply Keeps.updHbm)) | split

theorem execHalt_keeps (r : DbgReq) (s : State) :
    Leaves s (execHalt r s) := by
  unfold execHalt
  try dsimp only
  repeat' first
    | (with_reducible first
      | exact Keeps.refl _ | assumption | apply Leaves.next_of | exact Leaves.fault _ _ | exact Leaves.refused _ _
      | apply Keeps.step (State.dbgAccess_keeps _ _ _ _ _ _ ?_) | apply Keeps.step (State.setFile_keeps ..)
      | apply Keeps.step (State.traced_keeps ..) | apply Keeps.step (State.dbgDone_keeps ..)
      | apply Keeps.step (Keeps.foldl _ _ _ ?_) | apply Keeps.step (Keeps.foldl1 _ _ _ ?_))
    | (fail_if_no_progress (with_reducible apply Keeps.upd)) | (fail_if_no_progress (with_reducible apply Keeps.updHbm)) | split
    | (intro _; try dsimp only)

theorem execHdmDecoderCommit_keeps (commit : Bool) (s : State) :
    Leaves s (execHdmDecoderCommit commit s) := by
  unfold execHdmDecoderCommit
  try dsimp only
  repeat' first
    | (with_reducible first
      | exact Keeps.refl _ | assumption | apply Leaves.next_of | exact Leaves.fault _ _ | exact Leaves.refused _ _
      | apply Keeps.step (State.retryHeld_keeps ..) | apply Keeps.step (Keeps.foldl _ _ _ ?_)
      | apply Keeps.step (Keeps.foldl1 _ _ _ ?_))
    | (fail_if_no_progress (with_reducible apply Keeps.upd)) | (fail_if_no_progress (with_reducible apply Keeps.updHbm)) | split

theorem execHeadLineSnoop_keeps (head : BitVec 64) (rspDone : BitVec 64) (s : State) :
    Leaves s (execHeadLineSnoop head rspDone s) := by
  unfold execHeadLineSnoop
  try dsimp only
  repeat' first
    | (with_reducible first
      | exact Keeps.refl _ | assumption | apply Leaves.next_of | exact Leaves.fault _ _ | exact Leaves.refused _ _
      | apply Keeps.step (State.readHead_keeps ..) | apply Keeps.step (State.bump_keeps ..)
      | apply Keeps.step (Keeps.foldl _ _ _ ?_) | apply Keeps.step (Keeps.foldl1 _ _ _ ?_))
    | (fail_if_no_progress (with_reducible apply Keeps.upd)) | (fail_if_no_progress (with_reducible apply Keeps.updHbm)) | split

theorem execHeartbeatLoss_keeps (s : State) :
    Leaves s (execHeartbeatLoss s) := by
  unfold execHeartbeatLoss
  try dsimp only
  repeat' with_reducible first
    | exact Keeps.refl _ | assumption | apply Leaves.next_of | exact Leaves.fault _ _ | exact Leaves.refused _ _
    | apply Keeps.step (State.enterSafe_keeps ..)

theorem execHeldRequestTimeout_keeps (session : BitVec 32) (seq : BitVec 32) (s : State) :
    Leaves s (execHeldRequestTimeout session seq s) := by
  unfold execHeldRequestTimeout
  try dsimp only
  repeat' first
    | (with_reducible first
      | exact Keeps.refl _ | assumption | apply Leaves.next_of | exact Leaves.fault _ _ | exact Leaves.refused _ _
      | apply Keeps.step (State.bump_keeps ..) | apply Keeps.step (State.setSession_keeps ..)
      | apply Keeps.step (Keeps.foldl _ _ _ ?_) | apply Keeps.step (Keeps.foldl1 _ _ _ ?_))
    | (fail_if_no_progress (with_reducible apply Keeps.upd)) | (fail_if_no_progress (with_reducible apply Keeps.updHbm)) | split

theorem execHerdBookClear_keeps (v : BitVec 8) (s : State) :
    Leaves s (execHerdBookClear v s) := by
  unfold execHerdBookClear
  try dsimp only
  repeat' first
    | (with_reducible first
      | exact Keeps.refl _ | assumption | apply Leaves.next_of | exact Leaves.fault _ _ | exact Leaves.refused _ _
      | apply Keeps.step (State.writtenIf_keeps _ _ _ ?_) | apply Keeps.step (State.takeClear_keeps ..)
      | apply Keeps.step (Keeps.foldl _ _ _ ?_) | apply Keeps.step (Keeps.foldl1 _ _ _ ?_))
    | (fail_if_no_progress (with_reducible apply Keeps.upd)) | (fail_if_no_progress (with_reducible apply Keeps.updHbm)) | split
    | (intro _; try dsimp only)

theorem execHerdIntervalEnd_keeps (s : State) :
    Leaves s (execHerdIntervalEnd s) := by
  unfold execHerdIntervalEnd
  try dsimp only
  repeat' first
    | (with_reducible first
      | exact Keeps.refl _ | assumption | apply Leaves.next_of | exact Leaves.fault _ _ | exact Leaves.refused _ _
      | apply Keeps.step (State.herdClose_keeps ..) | apply Keeps.step (Keeps.foldl _ _ _ ?_)
      | apply Keeps.step (Keeps.foldl1 _ _ _ ?_))
    | (fail_if_no_progress (with_reducible apply Keeps.upd)) | (fail_if_no_progress (with_reducible apply Keeps.updHbm)) | split

theorem execHoldoverTimeout_keeps (s : State) :
    Leaves s (execHoldoverTimeout s) := by
  unfold execHoldoverTimeout
  try dsimp only
  repeat' first
    | (with_reducible first
      | exact Keeps.refl _ | assumption | apply Leaves.next_of | exact Leaves.fault _ _ | exact Leaves.refused _ _
      | apply Keeps.step (Keeps.foldl _ _ _ ?_) | apply Keeps.step (Keeps.foldl1 _ _ _ ?_))
    | (fail_if_no_progress (with_reducible apply Keeps.upd)) | (fail_if_no_progress (with_reducible apply Keeps.updHbm)) | split

theorem execHostCompletionTimeout_keeps (q : QRef) (s : State) :
    Leaves s (execHostCompletionTimeout q s) := by
  unfold execHostCompletionTimeout
  try dsimp only
  repeat' first
    | (with_reducible first
      | exact Keeps.refl _ | assumption | apply Leaves.next_of | exact Leaves.fault _ _ | exact Leaves.refused _ _
      | apply Keeps.step (State.hostStop_keeps ..) | apply Keeps.step (State.bump_keeps ..)
      | apply Keeps.step (Keeps.foldl _ _ _ ?_) | apply Keeps.step (Keeps.foldl1 _ _ _ ?_))
    | (fail_if_no_progress (with_reducible apply Keeps.upd)) | (fail_if_no_progress (with_reducible apply Keeps.updHbm)) | split

theorem execHostMemRead_keeps (offset : BitVec 37) (len : BitVec 7) (env : MemEnv) (s : State) :
    Leaves s (execHostMemRead offset len env s) := by
  unfold execHostMemRead
  try dsimp only
  repeat' first
    | (with_reducible first
      | exact Keeps.refl _ | assumption | apply Leaves.next_of | exact Leaves.fault _ _ | exact Leaves.refused _ _
      | apply Keeps.step (State.snoopLines_keeps ..) | apply Keeps.step (State.inside_keeps _ _ _ ?_)
      | apply Keeps.step (State.fetched_keeps ..) | apply Keeps.step (State.storageEvent_keeps ..)
      | apply Keeps.step (Keeps.foldl _ _ _ ?_) | apply Keeps.step (Keeps.foldl1 _ _ _ ?_))
    | (fail_if_no_progress (with_reducible apply Keeps.upd)) | (fail_if_no_progress (with_reducible apply Keeps.updHbm)) | split
    | (intro _; try dsimp only)

theorem execHostMemWrite_keeps (offset : BitVec 37) (bytes : List Byte) (env : MemEnv) (s : State) :
    Leaves s (execHostMemWrite offset bytes env s) := by
  unfold execHostMemWrite
  try dsimp only
  repeat' first
    | (with_reducible first
      | exact Keeps.refl _ | assumption | apply Leaves.next_of | exact Leaves.fault _ _ | exact Leaves.refused _ _
      | apply Keeps.step (State.inside_keeps _ _ _ ?_) | apply Keeps.step (State.writeRun_keeps ..)
      | apply Keeps.step (State.storageEvent_keeps ..) | apply Keeps.step (Keeps.foldl _ _ _ ?_)
      | apply Keeps.step (Keeps.foldl1 _ _ _ ?_))
    | (fail_if_no_progress (with_reducible apply Keeps.upd)) | (fail_if_no_progress (with_reducible apply Keeps.updHbm)) | split
    | (intro _; try dsimp only)

theorem execHostRstNAssert_keeps (s : State) :
    Leaves s (execHostRstNAssert s) := by
  unfold execHostRstNAssert
  try dsimp only
  repeat' first
    | (with_reducible first
      | exact Keeps.refl _ | assumption | apply Leaves.next_of | exact Leaves.fault _ _ | exact Leaves.refused _ _
      | apply Keeps.step (State.linkLost_keeps ..) | apply Keeps.step (State.hostDefaults_keeps ..)
      | apply Keeps.step (Keeps.foldl _ _ _ ?_) | apply Keeps.step (Keeps.foldl1 _ _ _ ?_))
    | (fail_if_no_progress (with_reducible apply Keeps.upd)) | (fail_if_no_progress (with_reducible apply Keeps.updHbm)) | split

theorem execHostRstNRelease_keeps (s : State) :
    Leaves s (execHostRstNRelease s) := by
  unfold execHostRstNRelease
  try dsimp only
  repeat' first
    | (with_reducible first
      | exact Keeps.refl _ | assumption | apply Leaves.next_of | exact Leaves.fault _ _ | exact Leaves.refused _ _
      | apply Keeps.step (Keeps.foldl _ _ _ ?_) | apply Keeps.step (Keeps.foldl1 _ _ _ ?_))
    | (fail_if_no_progress (with_reducible apply Keeps.upd)) | (fail_if_no_progress (with_reducible apply Keeps.updHbm)) | split

theorem execIcmpv6Echo_keeps (lane : Bool) (origin : BitVec 128) (target : BitVec 128) (payload : List Byte) (s : State) :
    Leaves s (execIcmpv6Echo lane origin target payload s) := by
  unfold execIcmpv6Echo
  try dsimp only
  repeat' first
    | (with_reducible first
      | exact Keeps.refl _ | assumption | apply Leaves.next_of | exact Leaves.fault _ _ | exact Leaves.refused _ _
      | apply Keeps.step (State.emit_keeps ..) | apply Keeps.step (Keeps.foldl _ _ _ ?_)
      | apply Keeps.step (Keeps.foldl1 _ _ _ ?_))
    | (fail_if_no_progress (with_reducible apply Keeps.upd)) | (fail_if_no_progress (with_reducible apply Keeps.updHbm)) | split

theorem execIdcode_keeps (s : State) :
    Leaves s (execIdcode s) := by
  unfold execIdcode
  try dsimp only
  repeat' first
    | (with_reducible first
      | exact Keeps.refl _ | assumption | apply Leaves.next_of | exact Leaves.fault _ _ | exact Leaves.refused _ _
      | apply Keeps.step (State.emit_keeps ..) | apply Keeps.step (State.selectIr_keeps ..)
      | apply Keeps.step (Keeps.foldl _ _ _ ?_) | apply Keeps.step (Keeps.foldl1 _ _ _ ?_))
    | (fail_if_no_progress (with_reducible apply Keeps.upd)) | (fail_if_no_progress (with_reducible apply Keeps.updHbm)) | split

theorem execImageChunkWrite_keeps (bytes : List Byte) (s : State) :
    Leaves s (execImageChunkWrite bytes s) := by
  unfold execImageChunkWrite
  try dsimp only
  repeat' first
    | (with_reducible first
      | exact Keeps.refl _ | assumption | apply Leaves.next_of | exact Leaves.fault _ _ | exact Leaves.refused _ _
      | apply Keeps.step (State.writtenIf_keeps _ _ _ ?_) | apply Keeps.step (State.takeChunk_keeps ..)
      | apply Keeps.step (Keeps.foldl _ _ _ ?_) | apply Keeps.step (Keeps.foldl1 _ _ _ ?_))
    | (fail_if_no_progress (with_reducible apply Keeps.upd)) | (fail_if_no_progress (with_reducible apply Keeps.updHbm)) | split
    | (intro _; try dsimp only)

theorem execImageVerify_keeps (v : BitVec 8) (s : State) :
    Leaves s (execImageVerify v s) := by
  unfold execImageVerify
  try dsimp only
  repeat' first
    | (with_reducible first
      | exact Keeps.refl _ | assumption | apply Leaves.next_of | exact Leaves.fault _ _ | exact Leaves.refused _ _
      | apply Keeps.step (State.writtenIf_keeps _ _ _ ?_) | apply Keeps.step (State.takeVerify_keeps ..)
      | apply Keeps.step (Keeps.foldl _ _ _ ?_) | apply Keeps.step (Keeps.foldl1 _ _ _ ?_))
    | (fail_if_no_progress (with_reducible apply Keeps.upd)) | (fail_if_no_progress (with_reducible apply Keeps.updHbm)) | split
    | (intro _; try dsimp only)

theorem execInputOvercurrent_keeps (s : State) :
    Leaves s (execInputOvercurrent s) := by
  unfold execInputOvercurrent
  try dsimp only
  repeat' with_reducible first
    | exact Keeps.refl _ | assumption | apply Leaves.next_of | exact Leaves.fault _ _ | exact Leaves.refused _ _
    | apply Keeps.step (State.enterSafe_keeps ..)

theorem execInputVoltage_keeps (s : State) :
    Leaves s (execInputVoltage s) := by
  unfold execInputVoltage
  try dsimp only
  repeat' with_reducible first
    | exact Keeps.refl _ | assumption | apply Leaves.next_of | exact Leaves.fault _ _ | exact Leaves.refused _ _
    | apply Keeps.step (State.enterSafe_keeps ..)

theorem execJobNop_keeps (e : JobEntry) (s : State) :
    Leaves s (execJobNop e s) := by
  unfold execJobNop
  try dsimp only
  repeat' first
    | (with_reducible first
      | exact Keeps.refl _ | assumption | apply Leaves.next_of | exact Leaves.fault _ _ | exact Leaves.refused _ _
      | apply Keeps.step (State.jobRun_keeps _ _ _ _ _ ?_) | apply Keeps.step (State.answerEntry_keeps ..)
      | apply Keeps.step (Keeps.foldl _ _ _ ?_) | apply Keeps.step (Keeps.foldl1 _ _ _ ?_))
    | (fail_if_no_progress (with_reducible apply Keeps.upd)) | (fail_if_no_progress (with_reducible apply Keeps.updHbm)) | split
    | (intro _; try dsimp only)

theorem execWrongLock_keeps (e : OpticRef) (found : BitVec 5) (s : State) :
    Leaves s (execWrongLock e found s) := by
  unfold execWrongLock
  try dsimp only
  repeat' first
    | (with_reducible first
      | exact Keeps.refl _ | assumption | apply Leaves.next_of | exact Leaves.fault _ _ | exact Leaves.refused _ _
      | apply Keeps.step (State.settleLinks_keeps ..) | apply Keeps.step (State.herdEvent_keeps ..)
      | apply Keeps.step (State.bump_keeps ..) | apply Keeps.step (State.setLane_keeps ..)
      | apply Keeps.step (State.drawn_keeps ..) | apply Keeps.step (Keeps.foldl _ _ _ ?_)
      | apply Keeps.step (Keeps.foldl1 _ _ _ ?_))
    | (fail_if_no_progress (with_reducible apply Keeps.upd)) | (fail_if_no_progress (with_reducible apply Keeps.updHbm)) | split

theorem execLaneLockLoss_keeps (e : OpticRef) (s : State) :
    Leaves s (execLaneLockLoss e s) := by
  unfold execLaneLockLoss
  try dsimp only
  repeat' first
    | (with_reducible first
      | exact Keeps.refl _ | assumption | apply Leaves.next_of | exact Leaves.fault _ _ | exact Leaves.refused _ _
      | apply Keeps.step (State.bump_keeps ..) | apply Keeps.step (State.setLane_keeps ..)
      | apply Keeps.step (State.settleLinks_keeps ..) | apply Keeps.step (Keeps.foldl _ _ _ ?_)
      | apply Keeps.step (Keeps.foldl1 _ _ _ ?_))
    | (fail_if_no_progress (with_reducible apply Keeps.upd)) | (fail_if_no_progress (with_reducible apply Keeps.updHbm)) | split

theorem execLanePlan_keeps (s : State) :
    Leaves s (execLanePlan s) := by
  unfold execLanePlan
  try dsimp only
  repeat' first
    | (with_reducible first
      | exact Keeps.refl _ | assumption | apply Leaves.next_of | exact Leaves.fault _ _ | exact Leaves.refused _ _
      | apply Keeps.step (State.timedRun_keeps _ _ _ ?_) | apply Keeps.step (State.entryDone_keeps ..)
      | apply Keeps.step (State.changePlan_keeps ..) | apply Keeps.step (Keeps.foldl _ _ _ ?_)
      | apply Keeps.step (Keeps.foldl1 _ _ _ ?_))
    | (fail_if_no_progress (with_reducible apply Keeps.upd)) | (fail_if_no_progress (with_reducible apply Keeps.updHbm)) | split
    | (intro _; try dsimp only)

theorem execLanePlanWrite_keeps (plan : BitVec 6) (bytes : List Byte) (s : State) :
    Leaves s (execLanePlanWrite plan bytes s) := by
  unfold execLanePlanWrite
  try dsimp only
  repeat' first
    | (with_reducible first
      | exact Keeps.refl _ | assumption | apply Leaves.next_of | exact Leaves.fault _ _ | exact Leaves.refused _ _
      | apply Keeps.step (State.answered_keeps ..) | apply Keeps.step (State.takeLanePlan_keeps ..)
      | apply Keeps.step (Keeps.foldl _ _ _ ?_) | apply Keeps.step (Keeps.foldl1 _ _ _ ?_))
    | (fail_if_no_progress (with_reducible apply Keeps.upd)) | (fail_if_no_progress (with_reducible apply Keeps.updHbm)) | split

theorem execLaneRelockAttemptEnd_keeps (e : OpticRef) (ok : Bool) (s : State) :
    Leaves s (execLaneRelockAttemptEnd e ok s) := by
  unfold execLaneRelockAttemptEnd
  try dsimp only
  repeat' first
    | (with_reducible first
      | exact Keeps.refl _ | assumption | apply Leaves.next_of | exact Leaves.fault _ _ | exact Leaves.refused _ _
      | apply Keeps.step (State.laneRelock_keeps ..) | apply Keeps.step (State.ringRelock_keeps ..)
      | apply Keeps.step (Keeps.foldl _ _ _ ?_) | apply Keeps.step (Keeps.foldl1 _ _ _ ?_))
    | (fail_if_no_progress (with_reducible apply Keeps.upd)) | (fail_if_no_progress (with_reducible apply Keeps.updHbm)) | split

theorem execLaneSearchEnd_keeps (e : OpticRef) (locked : Bool) (s : State) :
    Leaves s (execLaneSearchEnd e locked s) := by
  unfold execLaneSearchEnd
  try dsimp only
  repeat' first
    | (with_reducible first
      | exact Keeps.refl _ | assumption | apply Leaves.next_of | exact Leaves.fault _ _ | exact Leaves.refused _ _
      | apply Keeps.step (State.relockLane_keeps ..) | apply Keeps.step (State.rejoinLanes_keeps ..)
      | apply Keeps.step (Keeps.foldl _ _ _ ?_) | apply Keeps.step (Keeps.foldl1 _ _ _ ?_))
    | (fail_if_no_progress (with_reducible apply Keeps.upd)) | (fail_if_no_progress (with_reducible apply Keeps.updHbm)) | split

theorem execLaserSupplyCut_keeps (port : BitVec 6) (s : State) :
    Leaves s (execLaserSupplyCut port s) := by
  unfold execLaserSupplyCut
  try dsimp only
  repeat' first
    | (with_reducible first
      | exact Keeps.refl _ | assumption | apply Leaves.next_of | exact Leaves.fault _ _ | exact Leaves.refused _ _
      | apply Keeps.step (State.enterSafe_keeps ..) | apply Keeps.step (Keeps.foldl _ _ _ ?_)
      | apply Keeps.step (Keeps.foldl1 _ _ _ ?_))
    | (fail_if_no_progress (with_reducible apply Keeps.upd)) | (fail_if_no_progress (with_reducible apply Keeps.updHbm)) | split

theorem execLightLoss_keeps (ch : BitVec 6) (s : State) :
    Leaves s (execLightLoss ch s) := by
  unfold execLightLoss
  try dsimp only
  repeat' first
    | (with_reducible first
      | exact Keeps.refl _ | assumption | apply Leaves.next_of | exact Leaves.fault _ _ | exact Leaves.refused _ _
      | apply Keeps.step (State.loseLight_keeps ..) | apply Keeps.step (Keeps.foldl _ _ _ ?_)
      | apply Keeps.step (Keeps.foldl1 _ _ _ ?_))
    | (fail_if_no_progress (with_reducible apply Keeps.upd)) | (fail_if_no_progress (with_reducible apply Keeps.updHbm)) | split

theorem execMalformedDatagram_keeps (m : Lly) (s : State) :
    Leaves s (execMalformedDatagram m s) := by
  unfold execMalformedDatagram
  try dsimp only
  repeat' first
    | (with_reducible first
      | exact Keeps.refl _ | assumption | apply Leaves.next_of | exact Leaves.fault _ _ | exact Leaves.refused _ _
      | apply Keeps.step (State.refuseLly_keeps ..) | apply Keeps.step (Keeps.foldl _ _ _ ?_)
      | apply Keeps.step (Keeps.foldl1 _ _ _ ?_))
    | (fail_if_no_progress (with_reducible apply Keeps.upd)) | (fail_if_no_progress (with_reducible apply Keeps.updHbm)) | split

theorem execMessageComplete_keeps (m : MsgDone) (env : MemEnv) (s : State) :
    Leaves s (execMessageComplete m env s) := by
  unfold execMessageComplete
  try dsimp only
  repeat' first
    | (with_reducible first
      | exact Keeps.refl _ | assumption | apply Leaves.next_of | exact Leaves.fault _ _ | exact Leaves.refused _ _
      | apply Keeps.step (State.entryComplete_keeps ..) | apply Keeps.step (State.within_keeps _ _ _ ?_)
      | apply Keeps.step (State.parcelIn_keeps ..) | apply Keeps.step (State.sectionIn_keeps ..)
      | apply Keeps.step (State.gatherSeg_keeps ..) | apply Keeps.step (State.gatherSettle_keeps ..)
      | apply Keeps.step (Keeps.foldl _ _ _ ?_) | apply Keeps.step (Keeps.foldl1 _ _ _ ?_))
    | (fail_if_no_progress (with_reducible apply Keeps.upd)) | (fail_if_no_progress (with_reducible apply Keeps.updHbm)) | split
    | (intro _; try dsimp only)

theorem execMilk_keeps (env : MemEnv) (s : State) :
    Leaves s (execMilk env s) := by
  unfold execMilk
  try dsimp only
  repeat' first
    | (with_reducible first
      | exact Keeps.refl _ | assumption | apply Leaves.next_of | exact Leaves.fault _ _ | exact Leaves.refused _ _
      | apply Keeps.step (State.flowRunIn_keeps _ _ _ _ ?_) | apply Keeps.step (milkStart_keeps ..)
      | apply Keeps.step (Keeps.foldl _ _ _ ?_) | apply Keeps.step (Keeps.foldl1 _ _ _ ?_))
    | (fail_if_no_progress (with_reducible apply Keeps.upd)) | (fail_if_no_progress (with_reducible apply Keeps.updHbm)) | split
    | (intro _; try dsimp only)

theorem execMilkRoundStart_keeps (k : Nat) (env : MemEnv) (s : State) :
    Leaves s (execMilkRoundStart k env s) := by
  unfold execMilkRoundStart
  try dsimp only
  repeat' first
    | (with_reducible first
      | exact Keeps.refl _ | assumption | apply Leaves.next_of | exact Leaves.fault _ _ | exact Leaves.refused _ _
      | apply Keeps.step (State.within_keeps _ _ _ ?_) | apply Keeps.step (State.roundStart_keeps ..)
      | apply Keeps.step (Keeps.foldl _ _ _ ?_) | apply Keeps.step (Keeps.foldl1 _ _ _ ?_))
    | (fail_if_no_progress (with_reducible apply Keeps.upd)) | (fail_if_no_progress (with_reducible apply Keeps.updHbm)) | split
    | (intro _; try dsimp only)

theorem execModRstNAssert_keeps (ns : Nat) (s : State) :
    Leaves s (execModRstNAssert ns s) := by
  unfold execModRstNAssert
  try dsimp only
  repeat' first
    | (with_reducible first
      | exact Keeps.refl _ | assumption | apply Leaves.next_of | exact Leaves.fault _ _ | exact Leaves.refused _ _
      | apply Keeps.step (State.drawn_keeps ..) | apply Keeps.step (State.goOff_keeps ..)
      | apply Keeps.step (State.herdClose_keeps ..) | apply Keeps.step (Keeps.foldl _ _ _ ?_)
      | apply Keeps.step (Keeps.foldl1 _ _ _ ?_))
    | (fail_if_no_progress (with_reducible apply Keeps.upd)) | (fail_if_no_progress (with_reducible apply Keeps.updHbm)) | split

theorem execModRstNRelease_keeps (s : State) :
    Leaves s (execModRstNRelease s) := by
  unfold execModRstNRelease
  try dsimp only
  repeat' first
    | (with_reducible first
      | exact Keeps.refl _ | assumption | apply Leaves.next_of | exact Leaves.fault _ _ | exact Leaves.refused _ _
      | apply Keeps.step (State.coldBoot_keeps ..) | apply Keeps.step (Keeps.foldl _ _ _ ?_)
      | apply Keeps.step (Keeps.foldl1 _ _ _ ?_))
    | (fail_if_no_progress (with_reducible apply Keeps.upd)) | (fail_if_no_progress (with_reducible apply Keeps.updHbm)) | split

theorem execMonitorSelfCheck_keeps (ok : Bool) (s : State) :
    Leaves s (execMonitorSelfCheck ok s) := by
  unfold execMonitorSelfCheck
  try dsimp only
  repeat' first
    | (with_reducible first
      | exact Keeps.refl _ | assumption | apply Leaves.next_of | exact Leaves.fault _ _ | exact Leaves.refused _ _
      | apply Keeps.step (State.odp_keeps ..) | apply Keeps.step (State.enterSafe_keeps ..)
      | apply Keeps.step (State.request_keeps ..) | apply Keeps.step (Keeps.foldl _ _ _ ?_)
      | apply Keeps.step (Keeps.foldl1 _ _ _ ?_))
    | (fail_if_no_progress (with_reducible apply Keeps.upd)) | (fail_if_no_progress (with_reducible apply Keeps.updHbm)) | split

theorem execNeighbourDiscovery_keeps (lane : Bool) (origin : BitVec 128) (target : BitVec 128) (s : State) :
    Leaves s (execNeighbourDiscovery lane origin target s) := by
  unfold execNeighbourDiscovery
  try dsimp only
  repeat' first
    | (with_reducible first
      | exact Keeps.refl _ | assumption | apply Leaves.next_of | exact Leaves.fault _ _ | exact Leaves.refused _ _
      | apply Keeps.step (State.emit_keeps ..) | apply Keeps.step (Keeps.foldl _ _ _ ?_)
      | apply Keeps.step (Keeps.foldl1 _ _ _ ?_))
    | (fail_if_no_progress (with_reducible apply Keeps.upd)) | (fail_if_no_progress (with_reducible apply Keeps.updHbm)) | split

theorem execNop_keeps (i : Issue) (s : State) :
    Leaves s (execNop i s) := by
  unfold execNop
  try dsimp only
  repeat' first
    | (with_reducible first
      | exact Keeps.refl _ | assumption | apply Leaves.next_of | exact Leaves.fault _ _ | exact Leaves.refused _ _
      | apply Keeps.step (State.issue_keeps _ _ _ _ _ ?_) | apply Keeps.step (State.nextPc_keeps ..)
      | apply Keeps.step (Keeps.foldl _ _ _ ?_) | apply Keeps.step (Keeps.foldl1 _ _ _ ?_))
    | (fail_if_no_progress (with_reducible apply Keeps.upd)) | (fail_if_no_progress (with_reducible apply Keeps.updHbm)) | split
    | (intro _; try dsimp only)

theorem execOdWrite_keeps (index : BitVec 16) (sub : BitVec 8) (off : BitVec 16) (bytes : List Byte) (s : State) :
    Leaves s (execOdWrite index sub off bytes s) := by
  unfold execOdWrite
  try dsimp only
  repeat' first
    | (with_reducible first
      | exact Keeps.refl _ | assumption | apply Leaves.next_of | exact Leaves.fault _ _ | exact Leaves.refused _ _
      | apply Keeps.step (State.odWrite_keeps ..) | apply Keeps.step (State.answered_keeps ..)
      | apply Keeps.step (Keeps.foldl _ _ _ ?_) | apply Keeps.step (Keeps.foldl1 _ _ _ ?_))
    | (fail_if_no_progress (with_reducible apply Keeps.upd)) | (fail_if_no_progress (with_reducible apply Keeps.updHbm)) | split

theorem execOpenSession_keeps (m : Lly) (s : State) :
    Leaves s (execOpenSession m s) := by
  unfold execOpenSession
  try dsimp only
  repeat' first
    | (with_reducible first
      | exact Keeps.refl _ | assumption | apply Leaves.next_of | exact Leaves.fault _ _ | exact Leaves.refused _ _
      | apply Keeps.step (State.refuseLly_keeps ..) | apply Keeps.step (State.answerLly_keeps ..)
      | apply Keeps.step (State.bump_keeps ..) | apply Keeps.step (State.drawn_keeps ..)
      | apply Keeps.step (Keeps.foldl _ _ _ ?_) | apply Keeps.step (Keeps.foldl1 _ _ _ ?_))
    | (fail_if_no_progress (with_reducible apply Keeps.upd)) | (fail_if_no_progress (with_reducible apply Keeps.updHbm)) | split

theorem execOpt_keeps (env : MemEnv) (s : State) :
    Leaves s (execOpt env s) := by
  unfold execOpt
  try dsimp only
  repeat' first
    | (with_reducible first
      | exact Keeps.refl _ | assumption | apply Leaves.next_of | exact Leaves.fault _ _ | exact Leaves.refused _ _
      | apply Keeps.step (State.flowRunIn_keeps _ _ _ _ ?_) | apply Keeps.step (optStart_keeps ..)
      | apply Keeps.step (Keeps.foldl _ _ _ ?_) | apply Keeps.step (Keeps.foldl1 _ _ _ ?_))
    | (fail_if_no_progress (with_reducible apply Keeps.upd)) | (fail_if_no_progress (with_reducible apply Keeps.updHbm)) | split
    | (intro _; try dsimp only)

theorem execOwnerKeyReplace_keeps (bytes : List Byte) (env : FuseEnv) (s : State) :
    Leaves s (execOwnerKeyReplace bytes env s) := by
  unfold execOwnerKeyReplace
  try dsimp only
  repeat' first
    | (with_reducible first
      | exact Keeps.refl _ | assumption | apply Leaves.next_of | exact Leaves.fault _ _ | exact Leaves.refused _ _
      | apply Keeps.step (State.secWrite_keeps _ _ ?_) | apply Keeps.step (State.takeOwnerKey_keeps ..)
      | apply Keeps.step (Keeps.foldl _ _ _ ?_) | apply Keeps.step (Keeps.foldl1 _ _ _ ?_))
    | (fail_if_no_progress (with_reducible apply Keeps.upd)) | (fail_if_no_progress (with_reducible apply Keeps.updHbm)) | split
    | (intro _; try dsimp only)

theorem execOwnerSlotRevoke_keeps (slot : BitVec 8) (env : FuseEnv) (s : State) :
    Leaves s (execOwnerSlotRevoke slot env s) := by
  unfold execOwnerSlotRevoke
  try dsimp only
  repeat' first
    | (with_reducible first
      | exact Keeps.refl _ | assumption | apply Leaves.next_of | exact Leaves.fault _ _ | exact Leaves.refused _ _
      | apply Keeps.step (State.secWrite_keeps _ _ ?_) | apply Keeps.step (State.takeOwnerRevoke_keeps ..)
      | apply Keeps.step (Keeps.foldl _ _ _ ?_) | apply Keeps.step (Keeps.foldl1 _ _ _ ?_))
    | (fail_if_no_progress (with_reducible apply Keeps.upd)) | (fail_if_no_progress (with_reducible apply Keeps.updHbm)) | split
    | (intro _; try dsimp only)

theorem execPacketInject_keeps (k : Nat) (s : State) :
    Leaves s (execPacketInject k s) := by
  unfold execPacketInject
  try dsimp only
  repeat' first
    | (with_reducible first
      | exact Keeps.refl _ | assumption | apply Leaves.next_of | exact Leaves.fault _ _ | exact Leaves.refused _ _
      | apply Keeps.step (State.reserve_keeps ..) | apply Keeps.step (State.sendOwn_keeps ..)
      | apply Keeps.step (State.bump_keeps ..) | apply Keeps.step (State.sendDone_keeps ..)
      | apply Keeps.step (Keeps.foldl _ _ _ ?_) | apply Keeps.step (Keeps.foldl1 _ _ _ ?_))
    | (fail_if_no_progress (with_reducible apply Keeps.upd)) | (fail_if_no_progress (with_reducible apply Keeps.updHbm)) | split
    | (intro _; try dsimp only)

theorem execPacketReceive_keeps (port : BitVec 6) (flits : List RxFlit) (s : State) :
    Leaves s (execPacketReceive port flits s) := by
  unfold execPacketReceive
  try dsimp only
  repeat' first
    | (with_reducible first
      | exact Keeps.refl _ | assumption | apply Leaves.next_of | exact Leaves.fault _ _ | exact Leaves.refused _ _
      | apply Keeps.step (State.rxFlit_keeps _ _ _ _ ?_) | apply Keeps.step (State.linkDown_keeps ..)
      | apply Keeps.step (Keeps.foldl _ _ _ ?_) | apply Keeps.step (Keeps.foldl1 _ _ _ ?_))
    | (fail_if_no_progress (with_reducible apply Keeps.upd)) | (fail_if_no_progress (with_reducible apply Keeps.updHbm)) | split
    | (intro _; try dsimp only)

theorem execPageRead_keeps (q : QRef) (env : XferEnv) (s : State) :
    Leaves s (execPageRead q env s) := by
  unfold execPageRead
  try dsimp only
  repeat' first
    | (with_reducible first
      | exact Keeps.refl _ | assumption | apply Leaves.next_of | exact Leaves.fault _ _ | exact Leaves.refused _ _
      | apply Keeps.step (State.dmaRun_keeps _ _ _ _ ?_) | apply Keeps.step (dmaPage_keeps ..)
      | apply Keeps.step (Keeps.foldl _ _ _ ?_) | apply Keeps.step (Keeps.foldl1 _ _ _ ?_))
    | (fail_if_no_progress (with_reducible apply Keeps.upd)) | (fail_if_no_progress (with_reducible apply Keeps.updHbm)) | split
    | (intro _; try dsimp only)

theorem execPageWrite_keeps (q : QRef) (env : XferEnv) (s : State) :
    Leaves s (execPageWrite q env s) := by
  unfold execPageWrite
  try dsimp only
  repeat' first
    | (with_reducible first
      | exact Keeps.refl _ | assumption | apply Leaves.next_of | exact Leaves.fault _ _ | exact Leaves.refused _ _
      | apply Keeps.step (State.dmaRun_keeps _ _ _ _ ?_) | apply Keeps.step (dmaPage_keeps ..)
      | apply Keeps.step (Keeps.foldl _ _ _ ?_) | apply Keeps.step (Keeps.foldl1 _ _ _ ?_))
    | (fail_if_no_progress (with_reducible apply Keeps.upd)) | (fail_if_no_progress (with_reducible apply Keeps.updHbm)) | split
    | (intro _; try dsimp only)

theorem execParcelForward_keeps (k : Nat) (free : BitVec 64) (env : MemEnv) (s : State) :
    Leaves s (execParcelForward k free env s) := by
  unfold execParcelForward
  try dsimp only
  repeat' first
    | (with_reducible first
      | exact Keeps.refl _ | assumption | apply Leaves.next_of | exact Leaves.fault _ _ | exact Leaves.refused _ _
      | apply Keeps.step (State.within_keeps _ _ _ ?_) | apply Keeps.step (State.forwardParcel_keeps ..)
      | apply Keeps.step (State.milkGo_keeps ..) | apply Keeps.step (Keeps.foldl _ _ _ ?_)
      | apply Keeps.step (Keeps.foldl1 _ _ _ ?_))
    | (fail_if_no_progress (with_reducible apply Keeps.upd)) | (fail_if_no_progress (with_reducible apply Keeps.updHbm)) | split
    | (intro _; try dsimp only)

theorem execParentLoss_keeps (s : State) :
    Leaves s (execParentLoss s) := by
  unfold execParentLoss
  try dsimp only
  repeat' first
    | (with_reducible first
      | exact Keeps.refl _ | assumption | apply Leaves.next_of | exact Leaves.fault _ _ | exact Leaves.refused _ _
      | apply Keeps.step (State.enterHoldover_keeps ..) | apply Keeps.step (Keeps.foldl _ _ _ ?_)
      | apply Keeps.step (Keeps.foldl1 _ _ _ ?_))
    | (fail_if_no_progress (with_reducible apply Keeps.upd)) | (fail_if_no_progress (with_reducible apply Keeps.updHbm)) | split

theorem execPatrolScrub_keeps (stack : BitVec 3) (sector : BitVec 31) (found : EccFinding) (s : State) :
    Leaves s (execPatrolScrub stack sector found s) := by
  unfold execPatrolScrub
  try dsimp only
  repeat' first
    | (with_reducible first
      | exact Keeps.refl _ | assumption | apply Leaves.next_of | exact Leaves.fault _ _ | exact Leaves.refused _ _
      | apply Keeps.step (State.storageEvent_keeps ..) | apply Keeps.step (State.metPoison_keeps ..)
      | apply Keeps.step (State.eccRead_keeps ..) | apply Keeps.step (State.sliceMeets_keeps ..)
      | apply Keeps.step (State.bump_keeps ..) | apply Keeps.step (Keeps.foldl _ _ _ ?_)
      | apply Keeps.step (Keeps.foldl1 _ _ _ ?_))
    | (fail_if_no_progress (with_reducible apply Keeps.upd)) | (fail_if_no_progress (with_reducible apply Keeps.updHbm)) | split

theorem execPerformanceLevelCommand_keeps (v : BitVec 8) (s : State) :
    Leaves s (execPerformanceLevelCommand v s) := by
  unfold execPerformanceLevelCommand
  try dsimp only
  repeat' first
    | (with_reducible first
      | exact Keeps.refl _ | assumption | apply Leaves.next_of | exact Leaves.fault _ _ | exact Leaves.refused _ _
      | apply Keeps.step (State.answered_keeps ..) | apply Keeps.step (State.takeLevelWrite_keeps ..)
      | apply Keeps.step (Keeps.foldl _ _ _ ?_) | apply Keeps.step (Keeps.foldl1 _ _ _ ?_))
    | (fail_if_no_progress (with_reducible apply Keeps.upd)) | (fail_if_no_progress (with_reducible apply Keeps.updHbm)) | split

theorem execPhase_keeps (s : State) :
    Leaves s (execPhase s) := by
  unfold execPhase
  try dsimp only
  repeat' first
    | (with_reducible first
      | exact Keeps.refl _ | assumption | apply Leaves.next_of | exact Leaves.fault _ _ | exact Leaves.refused _ _
      | apply Keeps.step (State.flowRun_keeps _ _ _ ?_) | apply Keeps.step (State.entryDone_keeps ..)
      | apply Keeps.step (State.setCtx_keeps ..) | apply Keeps.step (Keeps.foldl _ _ _ ?_)
      | apply Keeps.step (Keeps.foldl1 _ _ _ ?_))
    | (fail_if_no_progress (with_reducible apply Keeps.upd)) | (fail_if_no_progress (with_reducible apply Keeps.updHbm)) | split
    | (intro _; try dsimp only)

theorem execPing_keeps (m : Lly) (s : State) :
    Leaves s (execPing m s) := by
  unfold execPing
  try dsimp only
  repeat' with_reducible first
    | exact Keeps.refl _ | assumption | apply Leaves.next_of | exact Leaves.fault _ _ | exact Leaves.refused _ _
    | apply Keeps.step (State.hearLly_keeps ..)

theorem execPlanSelectRequest_keeps (v : BitVec 64) (s : State) :
    Leaves s (execPlanSelectRequest v s) := by
  unfold execPlanSelectRequest
  try dsimp only
  repeat' first
    | (with_reducible first
      | exact Keeps.refl _ | assumption | apply Leaves.next_of | exact Leaves.fault _ _ | exact Leaves.refused _ _
      | apply Keeps.step (State.answered_keeps ..) | apply Keeps.step (State.takePlanSelect_keeps ..)
      | apply Keeps.step (Keeps.foldl _ _ _ ?_) | apply Keeps.step (Keeps.foldl1 _ _ _ ?_))
    | (fail_if_no_progress (with_reducible apply Keeps.upd)) | (fail_if_no_progress (with_reducible apply Keeps.updHbm)) | split

theorem execPld_keeps (i : Issue) (s : State) :
    Leaves s (execPld i s) := by
  unfold execPld
  try dsimp only
  repeat' first
    | (with_reducible first
      | exact Keeps.refl _ | assumption | apply Leaves.next_of | exact Leaves.fault _ _ | exact Leaves.refused _ _
      | apply Keeps.step (State.issue_keeps _ _ _ _ _ ?_) | apply Keeps.step (loadOp_keeps ..)
      | apply Keeps.step (Keeps.foldl _ _ _ ?_) | apply Keeps.step (Keeps.foldl1 _ _ _ ?_))
    | (fail_if_no_progress (with_reducible apply Keeps.upd)) | (fail_if_no_progress (with_reducible apply Keeps.updHbm)) | split
    | (intro _; try dsimp only)

theorem execPldw_keeps (i : Issue) (s : State) :
    Leaves s (execPldw i s) := by
  unfold execPldw
  try dsimp only
  repeat' first
    | (with_reducible first
      | exact Keeps.refl _ | assumption | apply Leaves.next_of | exact Leaves.fault _ _ | exact Leaves.refused _ _
      | apply Keeps.step (State.issue_keeps _ _ _ _ _ ?_) | apply Keeps.step (loadOp_keeps ..)
      | apply Keeps.step (Keeps.foldl _ _ _ ?_) | apply Keeps.step (Keeps.foldl1 _ _ _ ?_))
    | (fail_if_no_progress (with_reducible apply Keeps.upd)) | (fail_if_no_progress (with_reducible apply Keeps.updHbm)) | split
    | (intro _; try dsimp only)

theorem execPortOpen_keeps (port : BitVec 6) (power : BitVec 16) (s : State) :
    Leaves s (execPortOpen port power s) := by
  unfold execPortOpen
  try dsimp only
  repeat' first
    | (with_reducible first
      | exact Keeps.refl _ | assumption | apply Leaves.next_of | exact Leaves.fault _ _ | exact Leaves.refused _ _
      | apply Keeps.step (State.bump_keeps ..) | apply Keeps.step (State.odp_keeps ..)
      | apply Keeps.step (State.setPeers_keeps ..) | apply Keeps.step (State.setProbe_keeps ..)
      | apply Keeps.step (State.herdEvent_keeps ..) | apply Keeps.step (State.linkDown_keeps ..)
      | apply Keeps.step (Keeps.foldl _ _ _ ?_) | apply Keeps.step (Keeps.foldl1 _ _ _ ?_))
    | (fail_if_no_progress (with_reducible apply Keeps.upd)) | (fail_if_no_progress (with_reducible apply Keeps.updHbm)) | split

theorem execPortRelight_keeps (port : BitVec 6) (s : State) :
    Leaves s (execPortRelight port s) := by
  unfold execPortRelight
  try dsimp only
  repeat' first
    | (with_reducible first
      | exact Keeps.refl _ | assumption | apply Leaves.next_of | exact Leaves.fault _ _ | exact Leaves.refused _ _
      | apply Keeps.step (State.settlePort_keeps ..) | apply Keeps.step (State.setProbe_keeps ..)
      | apply Keeps.step (State.odp_keeps ..) | apply Keeps.step (State.freshLanes_keeps ..)
      | apply Keeps.step (Keeps.foldl _ _ _ ?_) | apply Keeps.step (Keeps.foldl1 _ _ _ ?_))
    | (fail_if_no_progress (with_reducible apply Keeps.upd)) | (fail_if_no_progress (with_reducible apply Keeps.updHbm)) | split

theorem execPowerLoss_keeps (s : State) :
    Leaves s (execPowerLoss s) := by
  unfold execPowerLoss
  try dsimp only
  repeat' first
    | (with_reducible first
      | exact Keeps.refl _ | assumption | apply Leaves.next_of | exact Leaves.fault _ _ | exact Leaves.refused _ _
      | apply Keeps.step (State.goOff_keeps ..) | apply Keeps.step (State.odp_keeps ..) | apply Keeps.step (Keeps.foldl _ _ _ ?_)
      | apply Keeps.step (Keeps.foldl1 _ _ _ ?_))
    | (fail_if_no_progress (with_reducible apply Keeps.upd)) | (fail_if_no_progress (with_reducible apply Keeps.updHbm)) | split

theorem execPreambleCheck_keeps (lane : BitVec 9) (channel : BitVec 5) (plan : BitVec 6) (s : State) :
    Leaves s (execPreambleCheck lane channel plan s) := by
  unfold execPreambleCheck
  try dsimp only
  repeat' first
    | (with_reducible first
      | exact Keeps.refl _ | assumption | apply Leaves.next_of | exact Leaves.fault _ _ | exact Leaves.refused _ _
      | apply Keeps.step (State.identityFails_keeps ..) | apply Keeps.step (Keeps.foldl _ _ _ ?_)
      | apply Keeps.step (Keeps.foldl1 _ _ _ ?_))
    | (fail_if_no_progress (with_reducible apply Keeps.upd)) | (fail_if_no_progress (with_reducible apply Keeps.updHbm)) | split

theorem execPreambleTimeout_keeps (lane : BitVec 9) (s : State) :
    Leaves s (execPreambleTimeout lane s) := by
  unfold execPreambleTimeout
  try dsimp only
  repeat' first
    | (with_reducible first
      | exact Keeps.refl _ | assumption | apply Leaves.next_of | exact Leaves.fault _ _ | exact Leaves.refused _ _
      | apply Keeps.step (State.identityFails_keeps ..) | apply Keeps.step (Keeps.foldl _ _ _ ?_)
      | apply Keeps.step (Keeps.foldl1 _ _ _ ?_))
    | (fail_if_no_progress (with_reducible apply Keeps.upd)) | (fail_if_no_progress (with_reducible apply Keeps.updHbm)) | split

theorem execPresenceSample_keeps (jumper : Bool) (sealIntact : Bool) (s : State) :
    Leaves s (execPresenceSample jumper sealIntact s) := by
  unfold execPresenceSample
  try dsimp only
  repeat' first
    | (with_reducible first
      | exact Keeps.refl _ | assumption | apply Leaves.next_of | exact Leaves.fault _ _ | exact Leaves.refused _ _
      | apply Keeps.step (State.odp_keeps ..) | apply Keeps.step (State.bump_keeps ..)
      | apply Keeps.step (State.herdEvent_keeps ..) | apply Keeps.step (Keeps.foldl _ _ _ ?_)
      | apply Keeps.step (Keeps.foldl1 _ _ _ ?_))
    | (fail_if_no_progress (with_reducible apply Keeps.upd)) | (fail_if_no_progress (with_reducible apply Keeps.updHbm)) | split

theorem execProbeReceive_keeps (port : BitVec 6) (slot : BitVec 64) (seen : BitVec 8) (s : State) :
    Leaves s (execProbeReceive port slot seen s) := by
  unfold execProbeReceive
  try dsimp only
  repeat' first
    | (with_reducible first
      | exact Keeps.refl _ | assumption | apply Leaves.next_of | exact Leaves.fault _ _ | exact Leaves.refused _ _
      | apply Keeps.step (State.sendProbe_keeps ..) | apply Keeps.step (State.setProbe_keeps ..)
      | apply Keeps.step (Keeps.foldl _ _ _ ?_) | apply Keeps.step (Keeps.foldl1 _ _ _ ?_))
    | (fail_if_no_progress (with_reducible apply Keeps.upd)) | (fail_if_no_progress (with_reducible apply Keeps.updHbm)) | split

theorem execProbeSend_keeps (port : BitVec 6) (s : State) :
    Leaves s (execProbeSend port s) := by
  unfold execProbeSend
  try dsimp only
  repeat' first
    | (with_reducible first
      | exact Keeps.refl _ | assumption | apply Leaves.next_of | exact Leaves.fault _ _ | exact Leaves.refused _ _
      | apply Keeps.step (State.sendProbe_keeps ..) | apply Keeps.step (Keeps.foldl _ _ _ ?_)
      | apply Keeps.step (Keeps.foldl1 _ _ _ ?_))
    | (fail_if_no_progress (with_reducible apply Keeps.upd)) | (fail_if_no_progress (with_reducible apply Keeps.updHbm)) | split

theorem execPst_keeps (i : Issue) (s : State) :
    Leaves s (execPst i s) := by
  unfold execPst
  try dsimp only
  repeat' first
    | (with_reducible first
      | exact Keeps.refl _ | assumption | apply Leaves.next_of | exact Leaves.fault _ _ | exact Leaves.refused _ _
      | apply Keeps.step (State.issue_keeps _ _ _ _ _ ?_) | apply Keeps.step (storeOp_keeps ..)
      | apply Keeps.step (Keeps.foldl _ _ _ ?_) | apply Keeps.step (Keeps.foldl1 _ _ _ ?_))
    | (fail_if_no_progress (with_reducible apply Keeps.upd)) | (fail_if_no_progress (with_reducible apply Keeps.updHbm)) | split
    | (intro _; try dsimp only)

theorem execPstn_keeps (i : Issue) (s : State) :
    Leaves s (execPstn i s) := by
  unfold execPstn
  try dsimp only
  repeat' first
    | (with_reducible first
      | exact Keeps.refl _ | assumption | apply Leaves.next_of | exact Leaves.fault _ _ | exact Leaves.refused _ _
      | apply Keeps.step (State.issue_keeps _ _ _ _ _ ?_) | apply Keeps.step (storeOp_keeps ..)
      | apply Keeps.step (Keeps.foldl _ _ _ ?_) | apply Keeps.step (Keeps.foldl1 _ _ _ ?_))
    | (fail_if_no_progress (with_reducible apply Keeps.upd)) | (fail_if_no_progress (with_reducible apply Keeps.updHbm)) | split
    | (intro _; try dsimp only)

theorem execRailOutOfRange_keeps (rail : BitVec 5) (s : State) :
    Leaves s (execRailOutOfRange rail s) := by
  unfold execRailOutOfRange
  try dsimp only
  repeat' first
    | (with_reducible first
      | exact Keeps.refl _ | assumption | apply Leaves.next_of | exact Leaves.fault _ _ | exact Leaves.refused _ _
      | apply Keeps.step (State.enterSafe_keeps ..) | apply Keeps.step (Keeps.foldl _ _ _ ?_)
      | apply Keeps.step (Keeps.foldl1 _ _ _ ?_))
    | (fail_if_no_progress (with_reducible apply Keeps.upd)) | (fail_if_no_progress (with_reducible apply Keeps.updHbm)) | split

theorem execRampStep_keeps (die : BitVec 2) (up : Bool) (ballast : Bool) (s : State) :
    Leaves s (execRampStep die up ballast s) := by
  unfold execRampStep
  try dsimp only
  repeat' first
    | (with_reducible first
      | exact Keeps.refl _ | assumption | apply Leaves.next_of | exact Leaves.fault _ _ | exact Leaves.refused _ _
      | apply Keeps.step (State.settleBallast_keeps ..) | apply Keeps.step (State.setRamp_keeps ..)
      | apply Keeps.step (Keeps.foldl _ _ _ ?_) | apply Keeps.step (Keeps.foldl1 _ _ _ ?_))
    | (fail_if_no_progress (with_reducible apply Keeps.upd)) | (fail_if_no_progress (with_reducible apply Keeps.updHbm)) | split

theorem execRdAddBf16F32_keeps (q : QRef) (env : XferEnv) (s : State) :
    Leaves s (execRdAddBf16F32 q env s) := by
  unfold execRdAddBf16F32
  try dsimp only
  repeat' with_reducible first
    | exact Keeps.refl _ | assumption | apply Leaves.next_of | exact Leaves.fault _ _ | exact Leaves.refused _ _
    | apply Keeps.step (runReduce_keeps ..)

theorem execRdAddBs8I32_keeps (q : QRef) (env : XferEnv) (s : State) :
    Leaves s (execRdAddBs8I32 q env s) := by
  unfold execRdAddBs8I32
  try dsimp only
  repeat' first
    | (with_reducible first
      | exact Keeps.refl _ | assumption | apply Leaves.next_of | exact Leaves.fault _ _ | exact Leaves.refused _ _
      | apply Keeps.step (State.dmaRun_keeps _ _ _ _ ?_) | apply Keeps.step (dmaBs8_keeps ..)
      | apply Keeps.step (Keeps.foldl _ _ _ ?_) | apply Keeps.step (Keeps.foldl1 _ _ _ ?_))
    | (fail_if_no_progress (with_reducible apply Keeps.upd)) | (fail_if_no_progress (with_reducible apply Keeps.updHbm)) | split
    | (intro _; try dsimp only)

theorem execRdAddF32_keeps (q : QRef) (env : XferEnv) (s : State) :
    Leaves s (execRdAddF32 q env s) := by
  unfold execRdAddF32
  try dsimp only
  repeat' with_reducible first
    | exact Keeps.refl _ | assumption | apply Leaves.next_of | exact Leaves.fault _ _ | exact Leaves.refused _ _
    | apply Keeps.step (runReduce_keeps ..)

theorem execRdAddI32_keeps (q : QRef) (env : XferEnv) (s : State) :
    Leaves s (execRdAddI32 q env s) := by
  unfold execRdAddI32
  try dsimp only
  repeat' with_reducible first
    | exact Keeps.refl _ | assumption | apply Leaves.next_of | exact Leaves.fault _ _ | exact Leaves.refused _ _
    | apply Keeps.step (runReduce_keeps ..)

theorem execRdMaxF32_keeps (q : QRef) (env : XferEnv) (s : State) :
    Leaves s (execRdMaxF32 q env s) := by
  unfold execRdMaxF32
  try dsimp only
  repeat' with_reducible first
    | exact Keeps.refl _ | assumption | apply Leaves.next_of | exact Leaves.fault _ _ | exact Leaves.refused _ _
    | apply Keeps.step (runReduce_keeps ..)

theorem execRdMinF32_keeps (q : QRef) (env : XferEnv) (s : State) :
    Leaves s (execRdMinF32 q env s) := by
  unfold execRdMinF32
  try dsimp only
  repeat' with_reducible first
    | exact Keeps.refl _ | assumption | apply Leaves.next_of | exact Leaves.fault _ _ | exact Leaves.refused _ _
    | apply Keeps.step (runReduce_keeps ..)

theorem execRead_keeps (m : Lly) (s : State) :
    Leaves s (execRead m s) := by
  unfold execRead
  try dsimp only
  repeat' with_reducible first
    | exact Keeps.refl _ | assumption | apply Leaves.next_of | exact Leaves.fault _ _ | exact Leaves.refused _ _
    | apply Keeps.step (State.hearLly_keeps ..)

theorem execReadReg_keeps (r : DbgReq) (s : State) :
    Leaves s (execReadReg r s) := by
  unfold execReadReg
  try dsimp only
  repeat' first
    | (with_reducible first
      | exact Keeps.refl _ | assumption | apply Leaves.next_of | exact Leaves.fault _ _ | exact Leaves.refused _ _
      | apply Keeps.step (State.dbgAccess_keeps _ _ _ _ _ _ ?_) | apply Keeps.step (State.dbgDone_keeps ..)
      | apply Keeps.step (Keeps.foldl _ _ _ ?_) | apply Keeps.step (Keeps.foldl1 _ _ _ ?_))
    | (fail_if_no_progress (with_reducible apply Keeps.upd)) | (fail_if_no_progress (with_reducible apply Keeps.updHbm)) | split
    | (intro _; try dsimp only)

theorem execReductionHop_keeps (k : Nat) (i : HopInput) (env : MemEnv) (s : State) :
    Leaves s (execReductionHop k i env s) := by
  unfold execReductionHop
  try dsimp only
  repeat' first
    | (with_reducible first
      | exact Keeps.refl _ | assumption | apply Leaves.next_of | exact Leaves.fault _ _ | exact Leaves.refused _ _
      | apply Keeps.step (State.within_keeps _ _ _ ?_) | apply Keeps.step (State.hopIn_keeps ..)
      | apply Keeps.step (State.agreeIn_keeps ..) | apply Keeps.step (State.pairIn_keeps ..)
      | apply Keeps.step (State.totalsIn_keeps ..) | apply Keeps.step (Keeps.foldl _ _ _ ?_)
      | apply Keeps.step (Keeps.foldl1 _ _ _ ?_))
    | (fail_if_no_progress (with_reducible apply Keeps.upd)) | (fail_if_no_progress (with_reducible apply Keeps.updHbm)) | split
    | (intro _; try dsimp only)

theorem execRelightAttemptEnd_keeps (ch : BitVec 6) (reference : Bool) (locked : BitVec 4) (f : CalFinding) (s : State) :
    Leaves s (execRelightAttemptEnd ch reference locked f s) := by
  unfold execRelightAttemptEnd
  try dsimp only
  repeat' first
    | (with_reducible first
      | exact Keeps.refl _ | assumption | apply Leaves.next_of | exact Leaves.fault _ _ | exact Leaves.refused _ _
      | apply Keeps.step (State.bump_keeps ..) | apply Keeps.step (State.relit_keeps ..)
      | apply Keeps.step (State.herdEvent_keeps ..) | apply Keeps.step (State.setChurn_keeps ..)
      | apply Keeps.step (State.chSettleAll_keeps ..) | apply Keeps.step (State.calsDone_keeps ..)
      | apply Keeps.step (Keeps.foldl _ _ _ ?_) | apply Keeps.step (Keeps.foldl1 _ _ _ ?_))
    | (fail_if_no_progress (with_reducible apply Keeps.upd)) | (fail_if_no_progress (with_reducible apply Keeps.updHbm)) | split

theorem execRepairBoundary_keeps (port : BitVec 6) (s : State) :
    Leaves s (execRepairBoundary port s) := by
  unfold execRepairBoundary
  try dsimp only
  repeat' first
    | (with_reducible first
      | exact Keeps.refl _ | assumption | apply Leaves.next_of | exact Leaves.fault _ _ | exact Leaves.refused _ _
      | apply Keeps.step (State.repairVc_keeps ..) | apply Keeps.step (State.setLink_keeps ..)
      | apply Keeps.step (Keeps.foldl _ _ _ ?_) | apply Keeps.step (Keeps.foldl1 _ _ _ ?_))
    | (fail_if_no_progress (with_reducible apply Keeps.upd)) | (fail_if_no_progress (with_reducible apply Keeps.updHbm)) | split

theorem execResume_keeps (r : DbgReq) (s : State) :
    Leaves s (execResume r s) := by
  unfold execResume
  try dsimp only
  repeat' first
    | (with_reducible first
      | exact Keeps.refl _ | assumption | apply Leaves.next_of | exact Leaves.fault _ _ | exact Leaves.refused _ _
      | apply Keeps.step (State.dbgAccess_keeps _ _ _ _ _ _ ?_) | apply Keeps.step (State.dbgDone_keeps ..)
      | apply Keeps.step (State.setFile_keeps ..) | apply Keeps.step (Keeps.foldl _ _ _ ?_)
      | apply Keeps.step (Keeps.foldl1 _ _ _ ?_))
    | (fail_if_no_progress (with_reducible apply Keeps.upd)) | (fail_if_no_progress (with_reducible apply Keeps.updHbm)) | split
    | (intro _; try dsimp only)

theorem execReturnInject_keeps (s : State) :
    Leaves s (execReturnInject s) := by
  unfold execReturnInject
  try dsimp only
  repeat' first
    | (with_reducible first
      | exact Keeps.refl _ | assumption | apply Leaves.next_of | exact Leaves.fault _ _ | exact Leaves.refused _ _
      | apply Keeps.step (State.sendOwn_keeps ..) | apply Keeps.step (Keeps.foldl _ _ _ ?_)
      | apply Keeps.step (Keeps.foldl1 _ _ _ ?_))
    | (fail_if_no_progress (with_reducible apply Keeps.upd)) | (fail_if_no_progress (with_reducible apply Keeps.updHbm)) | split

theorem execReturnReceive_keeps (p : Packet) (s : State) :
    Leaves s (execReturnReceive p s) := by
  unfold execReturnReceive
  try dsimp only
  repeat' first
    | (with_reducible first
      | exact Keeps.refl _ | assumption | apply Leaves.next_of | exact Leaves.fault _ _ | exact Leaves.refused _ _
      | apply Keeps.step (State.returnArrives_keeps ..) | apply Keeps.step (Keeps.foldl _ _ _ ?_)
      | apply Keeps.step (Keeps.foldl1 _ _ _ ?_))
    | (fail_if_no_progress (with_reducible apply Keeps.upd)) | (fail_if_no_progress (with_reducible apply Keeps.updHbm)) | split

theorem execRingActivate_keeps (v : BitVec 8) (head : BitVec 64) (rspDone : BitVec 64) (s : State) :
    Leaves s (execRingActivate v head rspDone s) := by
  unfold execRingActivate
  try dsimp only
  repeat' first
    | (with_reducible first
      | exact Keeps.refl _ | assumption | apply Leaves.next_of | exact Leaves.fault _ _ | exact Leaves.refused _ _
      | apply Keeps.step (State.answered_keeps ..) | apply Keeps.step (State.takeRing_keeps ..)
      | apply Keeps.step (State.readHead_keeps ..) | apply Keeps.step (Keeps.foldl _ _ _ ?_)
      | apply Keeps.step (Keeps.foldl1 _ _ _ ?_))
    | (fail_if_no_progress (with_reducible apply Keeps.upd)) | (fail_if_no_progress (with_reducible apply Keeps.updHbm)) | split

theorem execRmax_keeps (i : Issue) (s : State) :
    Leaves s (execRmax i s) := by
  unfold execRmax
  try dsimp only
  repeat' first
    | (with_reducible first
      | exact Keeps.refl _ | assumption | apply Leaves.next_of | exact Leaves.fault _ _ | exact Leaves.refused _ _
      | apply Keeps.step (State.issue_keeps _ _ _ _ _ ?_) | apply Keeps.step (reduceOp_keeps ..)
      | apply Keeps.step (Keeps.foldl _ _ _ ?_) | apply Keeps.step (Keeps.foldl1 _ _ _ ?_))
    | (fail_if_no_progress (with_reducible apply Keeps.upd)) | (fail_if_no_progress (with_reducible apply Keeps.updHbm)) | split
    | (intro _; try dsimp only)

theorem execRmin_keeps (i : Issue) (s : State) :
    Leaves s (execRmin i s) := by
  unfold execRmin
  try dsimp only
  repeat' first
    | (with_reducible first
      | exact Keeps.refl _ | assumption | apply Leaves.next_of | exact Leaves.fault _ _ | exact Leaves.refused _ _
      | apply Keeps.step (State.issue_keeps _ _ _ _ _ ?_) | apply Keeps.step (reduceOp_keeps ..)
      | apply Keeps.step (Keeps.foldl _ _ _ ?_) | apply Keeps.step (Keeps.foldl1 _ _ _ ?_))
    | (fail_if_no_progress (with_reducible apply Keeps.upd)) | (fail_if_no_progress (with_reducible apply Keeps.updHbm)) | split
    | (intro _; try dsimp only)

theorem execRouteTableWrite_keeps (version : Bool) (bytes : List Byte) (s : State) :
    Leaves s (execRouteTableWrite version bytes s) := by
  unfold execRouteTableWrite
  try dsimp only
  repeat' first
    | (with_reducible first
      | exact Keeps.refl _ | assumption | apply Leaves.next_of | exact Leaves.fault _ _ | exact Leaves.refused _ _
      | apply Keeps.step (State.answered_keeps ..) | apply Keeps.step (State.takeRouteTable_keeps ..)
      | apply Keeps.step (Keeps.foldl _ _ _ ?_) | apply Keeps.step (Keeps.foldl1 _ _ _ ?_))
    | (fail_if_no_progress (with_reducible apply Keeps.upd)) | (fail_if_no_progress (with_reducible apply Keeps.updHbm)) | split

theorem execTruncation_keeps (port : BitVec 6) (vc : BitVec 3) (s : State) :
    Leaves s (execTruncation port vc s) := by
  unfold execTruncation
  try dsimp only
  repeat' first
    | (with_reducible first
      | exact Keeps.refl _ | assumption | apply Leaves.next_of | exact Leaves.fault _ _ | exact Leaves.refused _ _
      | apply Keeps.step (State.bump_keeps ..) | apply Keeps.step (State.setLink_keeps ..)
      | apply Keeps.step (State.dropPkt_keeps ..) | apply Keeps.step (Keeps.foldl _ _ _ ?_)
      | apply Keeps.step (Keeps.foldl1 _ _ _ ?_))
    | (fail_if_no_progress (with_reducible apply Keeps.upd)) | (fail_if_no_progress (with_reducible apply Keeps.updHbm)) | split

theorem execRouteTimeout_keeps (port : BitVec 6) (vc : BitVec 3) (s : State) :
    Leaves s (execRouteTimeout port vc s) := by
  unfold execRouteTimeout
  try dsimp only
  repeat' first
    | (with_reducible first
      | exact Keeps.refl _ | assumption | apply Leaves.next_of | exact Leaves.fault _ _ | exact Leaves.refused _ _
      | apply Keeps.step (State.dropOrKeep_keeps ..) | apply Keeps.step (Keeps.foldl _ _ _ ?_)
      | apply Keeps.step (Keeps.foldl1 _ _ _ ?_))
    | (fail_if_no_progress (with_reducible apply Keeps.upd)) | (fail_if_no_progress (with_reducible apply Keeps.updHbm)) | split

theorem execRsum_keeps (i : Issue) (s : State) :
    Leaves s (execRsum i s) := by
  unfold execRsum
  try dsimp only
  repeat' first
    | (with_reducible first
      | exact Keeps.refl _ | assumption | apply Leaves.next_of | exact Leaves.fault _ _ | exact Leaves.refused _ _
      | apply Keeps.step (State.issue_keeps _ _ _ _ _ ?_) | apply Keeps.step (reduceOp_keeps ..)
      | apply Keeps.step (Keeps.foldl _ _ _ ?_) | apply Keeps.step (Keeps.foldl1 _ _ _ ?_))
    | (fail_if_no_progress (with_reducible apply Keeps.upd)) | (fail_if_no_progress (with_reducible apply Keeps.updHbm)) | split
    | (intro _; try dsimp only)

theorem execRsumsq_keeps (i : Issue) (s : State) :
    Leaves s (execRsumsq i s) := by
  unfold execRsumsq
  try dsimp only
  repeat' first
    | (with_reducible first
      | exact Keeps.refl _ | assumption | apply Leaves.next_of | exact Leaves.fault _ _ | exact Leaves.refused _ _
      | apply Keeps.step (State.issue_keeps _ _ _ _ _ ?_) | apply Keeps.step (reduceOp_keeps ..)
      | apply Keeps.step (Keeps.foldl _ _ _ ?_) | apply Keeps.step (Keeps.foldl1 _ _ _ ?_))
    | (fail_if_no_progress (with_reducible apply Keeps.upd)) | (fail_if_no_progress (with_reducible apply Keeps.updHbm)) | split
    | (intro _; try dsimp only)

theorem execRunawayTemperature_keeps (inst : BitVec 4) (s : State) :
    Leaves s (execRunawayTemperature inst s) := by
  unfold execRunawayTemperature
  try dsimp only
  repeat' first
    | (with_reducible first
      | exact Keeps.refl _ | assumption | apply Leaves.next_of | exact Leaves.fault _ _ | exact Leaves.refused _ _
      | apply Keeps.step (State.enterSafe_keeps ..) | apply Keeps.step (Keeps.foldl _ _ _ ?_)
      | apply Keeps.step (Keeps.foldl1 _ _ _ ?_))
    | (fail_if_no_progress (with_reducible apply Keeps.upd)) | (fail_if_no_progress (with_reducible apply Keeps.updHbm)) | split

theorem execSadd_keeps (i : Issue) (s : State) :
    Leaves s (execSadd i s) := by
  unfold execSadd
  try dsimp only
  repeat' first
    | (with_reducible first
      | exact Keeps.refl _ | assumption | apply Leaves.next_of | exact Leaves.fault _ _ | exact Leaves.refused _ _
      | apply Keeps.step (State.issue_keeps _ _ _ _ _ ?_) | apply Keeps.step (scalarOp_keeps ..)
      | apply Keeps.step (Keeps.foldl _ _ _ ?_) | apply Keeps.step (Keeps.foldl1 _ _ _ ?_))
    | (fail_if_no_progress (with_reducible apply Keeps.upd)) | (fail_if_no_progress (with_reducible apply Keeps.updHbm)) | split
    | (intro _; try dsimp only)

theorem execSamplePreload_keeps (pins : BitVec 64) (cells : BitVec 64) (s : State) :
    Leaves s (execSamplePreload pins cells s) := by
  unfold execSamplePreload
  try dsimp only
  repeat' first
    | (with_reducible first
      | exact Keeps.refl _ | assumption | apply Leaves.next_of | exact Leaves.fault _ _ | exact Leaves.refused _ _
      | apply Keeps.step (State.loadCells_keeps ..) | apply Keeps.step (State.selectIr_keeps ..)
      | apply Keeps.step (State.emit_keeps ..) | apply Keeps.step (Keeps.foldl _ _ _ ?_)
      | apply Keeps.step (Keeps.foldl1 _ _ _ ?_))
    | (fail_if_no_progress (with_reducible apply Keeps.upd)) | (fail_if_no_progress (with_reducible apply Keeps.updHbm)) | split

theorem execSand_keeps (i : Issue) (s : State) :
    Leaves s (execSand i s) := by
  unfold execSand
  try dsimp only
  repeat' first
    | (with_reducible first
      | exact Keeps.refl _ | assumption | apply Leaves.next_of | exact Leaves.fault _ _ | exact Leaves.refused _ _
      | apply Keeps.step (State.issue_keeps _ _ _ _ _ ?_) | apply Keeps.step (scalarOp_keeps ..)
      | apply Keeps.step (Keeps.foldl _ _ _ ?_) | apply Keeps.step (Keeps.foldl1 _ _ _ ?_))
    | (fail_if_no_progress (with_reducible apply Keeps.upd)) | (fail_if_no_progress (with_reducible apply Keeps.updHbm)) | split
    | (intro _; try dsimp only)

theorem execSend_keeps (q : QRef) (env : XferEnv) (s : State) :
    Leaves s (execSend q env s) := by
  unfold execSend
  try dsimp only
  repeat' first
    | (with_reducible first
      | exact Keeps.refl _ | assumption | apply Leaves.next_of | exact Leaves.fault _ _ | exact Leaves.refused _ _
      | apply Keeps.step (State.dmaRun_keeps _ _ _ _ ?_) | apply Keeps.step (dmaSend_keeps ..)
      | apply Keeps.step (Keeps.foldl _ _ _ ?_) | apply Keeps.step (Keeps.foldl1 _ _ _ ?_))
    | (fail_if_no_progress (with_reducible apply Keeps.upd)) | (fail_if_no_progress (with_reducible apply Keeps.updHbm)) | split
    | (intro _; try dsimp only)

theorem execServiceLaneDown_keeps (lane : Bool) (s : State) :
    Leaves s (execServiceLaneDown lane s) := by
  unfold execServiceLaneDown
  try dsimp only
  repeat' first
    | (with_reducible first
      | exact Keeps.refl _ | assumption | apply Leaves.next_of | exact Leaves.fault _ _ | exact Leaves.refused _ _
      | apply Keeps.step (State.resetGroup_keeps ..) | apply Keeps.step (State.odp_keeps ..)
      | apply Keeps.step (Keeps.foldl _ _ _ ?_) | apply Keeps.step (Keeps.foldl1 _ _ _ ?_))
    | (fail_if_no_progress (with_reducible apply Keeps.upd)) | (fail_if_no_progress (with_reducible apply Keeps.updHbm)) | split

theorem execServiceLaneUp_keeps (lane : Bool) (s : State) :
    Leaves s (execServiceLaneUp lane s) := by
  unfold execServiceLaneUp
  try dsimp only
  repeat' first
    | (with_reducible first
      | exact Keeps.refl _ | assumption | apply Leaves.next_of | exact Leaves.fault _ _ | exact Leaves.refused _ _
      | apply Keeps.step (State.odp_keeps ..) | apply Keeps.step (Keeps.foldl _ _ _ ?_)
      | apply Keeps.step (Keeps.foldl1 _ _ _ ?_))
    | (fail_if_no_progress (with_reducible apply Keeps.upd)) | (fail_if_no_progress (with_reducible apply Keeps.updHbm)) | split

theorem execSessionTimeout_keeps (session : BitVec 32) (s : State) :
    Leaves s (execSessionTimeout session s) := by
  unfold execSessionTimeout
  try dsimp only
  repeat' first
    | (with_reducible first
      | exact Keeps.refl _ | assumption | apply Leaves.next_of | exact Leaves.fault _ _ | exact Leaves.refused _ _
      | apply Keeps.step (State.endSession_keeps ..) | apply Keeps.step (Keeps.foldl _ _ _ ?_)
      | apply Keeps.step (Keeps.foldl1 _ _ _ ?_))
    | (fail_if_no_progress (with_reducible apply Keeps.upd)) | (fail_if_no_progress (with_reducible apply Keeps.updHbm)) | split

theorem execSetAddr_keeps (r : DbgReq) (s : State) :
    Leaves s (execSetAddr r s) := by
  unfold execSetAddr
  try dsimp only
  repeat' first
    | (with_reducible first
      | exact Keeps.refl _ | assumption | apply Leaves.next_of | exact Leaves.fault _ _ | exact Leaves.refused _ _
      | apply Keeps.step (State.dbgAccess_keeps _ _ _ _ _ _ ?_) | apply Keeps.step (State.dbgDone_keeps ..)
      | apply Keeps.step (Keeps.foldl _ _ _ ?_) | apply Keeps.step (Keeps.foldl1 _ _ _ ?_))
    | (fail_if_no_progress (with_reducible apply Keeps.upd)) | (fail_if_no_progress (with_reducible apply Keeps.updHbm)) | split
    | (intro _; try dsimp only)

theorem execSetBp_keeps (r : DbgReq) (s : State) :
    Leaves s (execSetBp r s) := by
  unfold execSetBp
  try dsimp only
  repeat' first
    | (with_reducible first
      | exact Keeps.refl _ | assumption | apply Leaves.next_of | exact Leaves.fault _ _ | exact Leaves.refused _ _
      | apply Keeps.step (State.dbgAccess_keeps _ _ _ _ _ _ ?_) | apply Keeps.step (State.dbgDone_keeps ..)
      | apply Keeps.step (State.setFile_keeps ..) | apply Keeps.step (Keeps.foldl _ _ _ ?_)
      | apply Keeps.step (Keeps.foldl1 _ _ _ ?_))
    | (fail_if_no_progress (with_reducible apply Keeps.upd)) | (fail_if_no_progress (with_reducible apply Keeps.updHbm)) | split
    | (intro _; try dsimp only)

theorem execSignalObj_keeps (s : State) :
    Leaves s (execSignalObj s) := by
  unfold execSignalObj
  try dsimp only
  repeat' first
    | (with_reducible first
      | exact Keeps.refl _ | assumption | apply Leaves.next_of | exact Leaves.fault _ _ | exact Leaves.refused _ _
      | apply Keeps.step (State.flowRun_keeps _ _ _ ?_) | apply Keeps.step (State.entryDone_keeps ..)
      | apply Keeps.step (State.signal_keeps ..) | apply Keeps.step (Keeps.foldl _ _ _ ?_)
      | apply Keeps.step (Keeps.foldl1 _ _ _ ?_))
    | (fail_if_no_progress (with_reducible apply Keeps.upd)) | (fail_if_no_progress (with_reducible apply Keeps.updHbm)) | split
    | (intro _; try dsimp only)

theorem execSkipif_keeps (env : MemEnv) (s : State) :
    Leaves s (execSkipif env s) := by
  unfold execSkipif
  try dsimp only
  repeat' first
    | (with_reducible first
      | exact Keeps.refl _ | assumption | apply Leaves.next_of | exact Leaves.fault _ _ | exact Leaves.refused _ _
      | apply Keeps.step (State.flowRunIn_keeps _ _ _ _ ?_) | apply Keeps.step (skipifStart_keeps ..)
      | apply Keeps.step (Keeps.foldl _ _ _ ?_) | apply Keeps.step (Keeps.foldl1 _ _ _ ?_))
    | (fail_if_no_progress (with_reducible apply Keeps.upd)) | (fail_if_no_progress (with_reducible apply Keeps.updHbm)) | split
    | (intro _; try dsimp only)

theorem execSld_keeps (i : Issue) (s : State) :
    Leaves s (execSld i s) := by
  unfold execSld
  try dsimp only
  repeat' first
    | (with_reducible first
      | exact Keeps.refl _ | assumption | apply Leaves.next_of | exact Leaves.fault _ _ | exact Leaves.refused _ _
      | apply Keeps.step (State.issue_keeps _ _ _ _ _ ?_) | apply Keeps.step (State.nextPc_keeps ..)
      | apply Keeps.step (State.coreFault_keeps ..) | apply Keeps.step (Keeps.foldl _ _ _ ?_)
      | apply Keeps.step (Keeps.foldl1 _ _ _ ?_))
    | (fail_if_no_progress (with_reducible apply Keeps.upd)) | (fail_if_no_progress (with_reducible apply Keeps.updHbm)) | split
    | (intro _; try dsimp only)

theorem execSli_keeps (i : Issue) (s : State) :
    Leaves s (execSli i s) := by
  unfold execSli
  try dsimp only
  repeat' first
    | (with_reducible first
      | exact Keeps.refl _ | assumption | apply Leaves.next_of | exact Leaves.fault _ _ | exact Leaves.refused _ _
      | apply Keeps.step (State.issue_keeps _ _ _ _ _ ?_) | apply Keeps.step (State.nextPc_keeps ..)
      | apply Keeps.step (Keeps.foldl _ _ _ ?_) | apply Keeps.step (Keeps.foldl1 _ _ _ ?_))
    | (fail_if_no_progress (with_reducible apply Keeps.upd)) | (fail_if_no_progress (with_reducible apply Keeps.updHbm)) | split
    | (intro _; try dsimp only)

theorem execSlih_keeps (i : Issue) (s : State) :
    Leaves s (execSlih i s) := by
  unfold execSlih
  try dsimp only
  repeat' first
    | (with_reducible first
      | exact Keeps.refl _ | assumption | apply Leaves.next_of | exact Leaves.fault _ _ | exact Leaves.refused _ _
      | apply Keeps.step (State.issue_keeps _ _ _ _ _ ?_) | apply Keeps.step (State.nextPc_keeps ..)
      | apply Keeps.step (Keeps.foldl _ _ _ ?_) | apply Keeps.step (Keeps.foldl1 _ _ _ ?_))
    | (fail_if_no_progress (with_reducible apply Keeps.upd)) | (fail_if_no_progress (with_reducible apply Keeps.updHbm)) | split
    | (intro _; try dsimp only)

theorem execSlotBoundary_keeps (env : MemEnv) (s : State) :
    Leaves s (execSlotBoundary env s) := by
  unfold execSlotBoundary
  try dsimp only
  repeat' first
    | (with_reducible first
      | exact Keeps.refl _ | assumption | apply Leaves.next_of | exact Leaves.fault _ _ | exact Leaves.refused _ _
      | apply Keeps.step (State.advance_keeps ..) | apply Keeps.step (State.missBeacons_keeps ..)
      | apply Keeps.step (State.bump_keeps ..) | apply Keeps.step (State.takeModes_keeps ..)
      | apply Keeps.step (State.linkSlot_keeps ..) | apply Keeps.step (State.takeRequests_keeps ..)
      | apply Keeps.step (State.congSample_keeps ..) | apply Keeps.step (State.remapSync_keeps ..)
      | apply Keeps.step (State.contextBoundary_keeps ..) | apply Keeps.step (State.within_keeps _ _ _ ?_)
      | apply Keeps.step (State.resumeAt_keeps ..) | apply Keeps.step (Keeps.foldl _ _ _ ?_)
      | apply Keeps.step (Keeps.foldl1 _ _ _ ?_))
    | (fail_if_no_progress (with_reducible apply Keeps.upd)) | (fail_if_no_progress (with_reducible apply Keeps.updHbm)) | split
    | (intro _; try dsimp only)

theorem execSlotLockLoss_keeps (ch : BitVec 6) (slot : BitVec 2) (s : State) :
    Leaves s (execSlotLockLoss ch slot s) := by
  unfold execSlotLockLoss
  try dsimp only
  repeat' first
    | (with_reducible first
      | exact Keeps.refl _ | assumption | apply Leaves.next_of | exact Leaves.fault _ _ | exact Leaves.refused _ _
      | apply Keeps.step (State.setChurn_keeps ..) | apply Keeps.step (State.loseSlot_keeps ..)
      | apply Keeps.step (State.discard_keeps ..) | apply Keeps.step (State.bump_keeps ..)
      | apply Keeps.step (State.orDark_keeps ..) | apply Keeps.step (Keeps.foldl _ _ _ ?_)
      | apply Keeps.step (Keeps.foldl1 _ _ _ ?_))
    | (fail_if_no_progress (with_reducible apply Keeps.upd)) | (fail_if_no_progress (with_reducible apply Keeps.updHbm)) | split

theorem execSlotRelockAttemptEnd_keeps (ch : BitVec 6) (slot : BitVec 2) (ok : Bool) (s : State) :
    Leaves s (execSlotRelockAttemptEnd ch slot ok s) := by
  unfold execSlotRelockAttemptEnd
  try dsimp only
  repeat' first
    | (with_reducible first
      | exact Keeps.refl _ | assumption | apply Leaves.next_of | exact Leaves.fault _ _ | exact Leaves.refused _ _
      | apply Keeps.step (State.bump_keeps ..) | apply Keeps.step (State.setChurn_keeps ..)
      | apply Keeps.step (State.calibrate_keeps ..) | apply Keeps.step (State.herdEvent_keeps ..)
      | apply Keeps.step (Keeps.foldl _ _ _ ?_) | apply Keeps.step (Keeps.foldl1 _ _ _ ?_))
    | (fail_if_no_progress (with_reducible apply Keeps.upd)) | (fail_if_no_progress (with_reducible apply Keeps.updHbm)) | split

theorem execSmul_keeps (i : Issue) (s : State) :
    Leaves s (execSmul i s) := by
  unfold execSmul
  try dsimp only
  repeat' first
    | (with_reducible first
      | exact Keeps.refl _ | assumption | apply Leaves.next_of | exact Leaves.fault _ _ | exact Leaves.refused _ _
      | apply Keeps.step (State.issue_keeps _ _ _ _ _ ?_) | apply Keeps.step (scalarOp_keeps ..)
      | apply Keeps.step (Keeps.foldl _ _ _ ?_) | apply Keeps.step (Keeps.foldl1 _ _ _ ?_))
    | (fail_if_no_progress (with_reducible apply Keeps.upd)) | (fail_if_no_progress (with_reducible apply Keeps.updHbm)) | split
    | (intro _; try dsimp only)

theorem execSor_keeps (i : Issue) (s : State) :
    Leaves s (execSor i s) := by
  unfold execSor
  try dsimp only
  repeat' first
    | (with_reducible first
      | exact Keeps.refl _ | assumption | apply Leaves.next_of | exact Leaves.fault _ _ | exact Leaves.refused _ _
      | apply Keeps.step (State.issue_keeps _ _ _ _ _ ?_) | apply Keeps.step (scalarOp_keeps ..)
      | apply Keeps.step (Keeps.foldl _ _ _ ?_) | apply Keeps.step (Keeps.foldl1 _ _ _ ?_))
    | (fail_if_no_progress (with_reducible apply Keeps.upd)) | (fail_if_no_progress (with_reducible apply Keeps.updHbm)) | split
    | (intro _; try dsimp only)

theorem execSpareSubstitution_keeps (l : LaneRef) (s : State) :
    Leaves s (execSpareSubstitution l s) := by
  unfold execSpareSubstitution
  try dsimp only
  repeat' first
    | (with_reducible first
      | exact Keeps.refl _ | assumption | apply Leaves.next_of | exact Leaves.fault _ _ | exact Leaves.refused _ _
      | apply Keeps.step (State.odp_keeps ..) | apply Keeps.step (State.bump_keeps ..)
      | apply Keeps.step (State.relockLane_keeps ..) | apply Keeps.step (State.setTries_keeps ..)
      | apply Keeps.step (State.herdEvent_keeps ..) | apply Keeps.step (State.request_keeps ..)
      | apply Keeps.step (State.settleLinks_keeps ..) | apply Keeps.step (State.retireLane_keeps ..)
      | apply Keeps.step (Keeps.foldl _ _ _ ?_) | apply Keeps.step (Keeps.foldl1 _ _ _ ?_))
    | (fail_if_no_progress (with_reducible apply Keeps.upd)) | (fail_if_no_progress (with_reducible apply Keeps.updHbm)) | split

theorem execSrdsys_keeps (i : Issue) (s : State) :
    Leaves s (execSrdsys i s) := by
  unfold execSrdsys
  try dsimp only
  repeat' first
    | (with_reducible first
      | exact Keeps.refl _ | assumption | apply Leaves.next_of | exact Leaves.fault _ _ | exact Leaves.refused _ _
      | apply Keeps.step (State.issue_keeps _ _ _ _ _ ?_) | apply Keeps.step (State.stamped_keeps ..)
      | apply Keeps.step (State.nextPc_keeps ..) | apply Keeps.step (Keeps.foldl _ _ _ ?_)
      | apply Keeps.step (Keeps.foldl1 _ _ _ ?_))
    | (fail_if_no_progress (with_reducible apply Keeps.upd)) | (fail_if_no_progress (with_reducible apply Keeps.updHbm)) | split
    | (intro _; try dsimp only)

theorem execSshl_keeps (i : Issue) (s : State) :
    Leaves s (execSshl i s) := by
  unfold execSshl
  try dsimp only
  repeat' first
    | (with_reducible first
      | exact Keeps.refl _ | assumption | apply Leaves.next_of | exact Leaves.fault _ _ | exact Leaves.refused _ _
      | apply Keeps.step (State.issue_keeps _ _ _ _ _ ?_) | apply Keeps.step (scalarOp_keeps ..)
      | apply Keeps.step (Keeps.foldl _ _ _ ?_) | apply Keeps.step (Keeps.foldl1 _ _ _ ?_))
    | (fail_if_no_progress (with_reducible apply Keeps.upd)) | (fail_if_no_progress (with_reducible apply Keeps.updHbm)) | split
    | (intro _; try dsimp only)

theorem execSshr_keeps (i : Issue) (s : State) :
    Leaves s (execSshr i s) := by
  unfold execSshr
  try dsimp only
  repeat' first
    | (with_reducible first
      | exact Keeps.refl _ | assumption | apply Leaves.next_of | exact Leaves.fault _ _ | exact Leaves.refused _ _
      | apply Keeps.step (State.issue_keeps _ _ _ _ _ ?_) | apply Keeps.step (scalarOp_keeps ..)
      | apply Keeps.step (Keeps.foldl _ _ _ ?_) | apply Keeps.step (Keeps.foldl1 _ _ _ ?_))
    | (fail_if_no_progress (with_reducible apply Keeps.upd)) | (fail_if_no_progress (with_reducible apply Keeps.updHbm)) | split
    | (intro _; try dsimp only)

theorem execSsig_keeps (i : Issue) (badCopies : BitVec 2) (s : State) :
    Leaves s (execSsig i badCopies s) := by
  unfold execSsig
  try dsimp only
  repeat' first
    | (with_reducible first
      | exact Keeps.refl _ | assumption | apply Leaves.next_of | exact Leaves.fault _ _ | exact Leaves.refused _ _
      | apply Keeps.step (State.issue_keeps _ _ _ _ _ ?_) | apply Keeps.step (State.readObj_keeps ..)
      | apply Keeps.step (State.nextPc_keeps ..) | apply Keeps.step (State.signal_keeps ..)
      | apply Keeps.step (Keeps.foldl _ _ _ ?_) | apply Keeps.step (Keeps.foldl1 _ _ _ ?_))
    | (fail_if_no_progress (with_reducible apply Keeps.upd)) | (fail_if_no_progress (with_reducible apply Keeps.updHbm)) | split
    | (intro _; try dsimp only)

theorem execSsra_keeps (i : Issue) (s : State) :
    Leaves s (execSsra i s) := by
  unfold execSsra
  try dsimp only
  repeat' first
    | (with_reducible first
      | exact Keeps.refl _ | assumption | apply Leaves.next_of | exact Leaves.fault _ _ | exact Leaves.refused _ _
      | apply Keeps.step (State.issue_keeps _ _ _ _ _ ?_) | apply Keeps.step (scalarOp_keeps ..)
      | apply Keeps.step (Keeps.foldl _ _ _ ?_) | apply Keeps.step (Keeps.foldl1 _ _ _ ?_))
    | (fail_if_no_progress (with_reducible apply Keeps.upd)) | (fail_if_no_progress (with_reducible apply Keeps.updHbm)) | split
    | (intro _; try dsimp only)

theorem execSst_keeps (i : Issue) (s : State) :
    Leaves s (execSst i s) := by
  unfold execSst
  try dsimp only
  repeat' first
    | (with_reducible first
      | exact Keeps.refl _ | assumption | apply Leaves.next_of | exact Leaves.fault _ _ | exact Leaves.refused _ _
      | apply Keeps.step (State.issue_keeps _ _ _ _ _ ?_) | apply Keeps.step (State.nextPc_keeps ..)
      | apply Keeps.step (State.putStoreRun_keeps ..) | apply Keeps.step (State.coreFault_keeps ..)
      | apply Keeps.step (Keeps.foldl _ _ _ ?_) | apply Keeps.step (Keeps.foldl1 _ _ _ ?_))
    | (fail_if_no_progress (with_reducible apply Keeps.upd)) | (fail_if_no_progress (with_reducible apply Keeps.updHbm)) | split
    | (intro _; try dsimp only)

theorem execSsub_keeps (i : Issue) (s : State) :
    Leaves s (execSsub i s) := by
  unfold execSsub
  try dsimp only
  repeat' first
    | (with_reducible first
      | exact Keeps.refl _ | assumption | apply Leaves.next_of | exact Leaves.fault _ _ | exact Leaves.refused _ _
      | apply Keeps.step (State.issue_keeps _ _ _ _ _ ?_) | apply Keeps.step (scalarOp_keeps ..)
      | apply Keeps.step (Keeps.foldl _ _ _ ?_) | apply Keeps.step (Keeps.foldl1 _ _ _ ?_))
    | (fail_if_no_progress (with_reducible apply Keeps.upd)) | (fail_if_no_progress (with_reducible apply Keeps.updHbm)) | split
    | (intro _; try dsimp only)

theorem execStackTempReading_keeps (stack : BitVec 3) (temp : BitVec 16) (s : State) :
    Leaves s (execStackTempReading stack temp s) := by
  unfold execStackTempReading
  try dsimp only
  repeat' first
    | (with_reducible first
      | exact Keeps.refl _ | assumption | apply Leaves.next_of | exact Leaves.fault _ _ | exact Leaves.refused _ _
      | apply Keeps.step (State.noteCool_keeps ..) | apply Keeps.step (State.odp_keeps ..)
      | apply Keeps.step (State.herdEvent_keeps ..) | apply Keeps.step (State.bump_keeps ..)
      | apply Keeps.step (Keeps.foldl _ _ _ ?_) | apply Keeps.step (Keeps.foldl1 _ _ _ ?_))
    | (fail_if_no_progress (with_reducible apply Keeps.upd)) | (fail_if_no_progress (with_reducible apply Keeps.updHbm)) | split

theorem execStart_keeps (s : State) :
    Leaves s (execStart s) := by
  unfold execStart
  try dsimp only
  repeat' first
    | (with_reducible first
      | exact Keeps.refl _ | assumption | apply Leaves.next_of | exact Leaves.fault _ _ | exact Leaves.refused _ _
      | apply Keeps.step (State.flowRun_keeps _ _ _ ?_) | apply Keeps.step (State.settleStarts_keeps ..)
      | apply Keeps.step (State.startRegion_keeps ..) | apply Keeps.step (Keeps.foldl _ _ _ ?_)
      | apply Keeps.step (Keeps.foldl1 _ _ _ ?_))
    | (fail_if_no_progress (with_reducible apply Keeps.upd)) | (fail_if_no_progress (with_reducible apply Keeps.updHbm)) | split
    | (intro _; try dsimp only)

theorem execStartContext_keeps (e : JobEntry) (s : State) :
    Leaves s (execStartContext e s) := by
  unfold execStartContext
  try dsimp only
  repeat' first
    | (with_reducible first
      | exact Keeps.refl _ | assumption | apply Leaves.next_of | exact Leaves.fault _ _ | exact Leaves.refused _ _
      | apply Keeps.step (State.jobRun_keeps _ _ _ _ _ ?_) | apply Keeps.step (State.setCtx_keeps ..)
      | apply Keeps.step (Keeps.foldl _ _ _ ?_) | apply Keeps.step (Keeps.foldl1 _ _ _ ?_))
    | (fail_if_no_progress (with_reducible apply Keeps.upd)) | (fail_if_no_progress (with_reducible apply Keeps.updHbm)) | split
    | (intro _; try dsimp only)

theorem execStartUpComplete_keeps (f : StartFinding) (s : State) :
    Leaves s (execStartUpComplete f s) := by
  unfold execStartUpComplete
  try dsimp only
  repeat' first
    | (with_reducible first
      | exact Keeps.refl _ | assumption | apply Leaves.next_of | exact Leaves.fault _ _ | exact Leaves.refused _ _
      | apply Keeps.step (State.steerLane_keeps ..) | apply Keeps.step (State.retireStacks_keeps ..)
      | apply Keeps.step (State.stackFails_keeps ..) | apply Keeps.step (State.retireCore_keeps ..)
      | apply Keeps.step (State.retireCores_keeps ..) | apply Keeps.step (State.opticsUp_keeps ..)
      | apply Keeps.step (State.emptiedReady_keeps ..) | apply Keeps.step (State.relit_keeps ..)
      | apply Keeps.step (State.odp_keeps ..) | apply Keeps.step (State.lockTo_keeps ..)
      | apply Keeps.step (Keeps.foldl _ _ _ ?_) | apply Keeps.step (Keeps.foldl1 _ _ _ ?_))
    | (fail_if_no_progress (with_reducible apply Keeps.upd)) | (fail_if_no_progress (with_reducible apply Keeps.updHbm)) | split
    | (intro _; try dsimp only)

theorem execStash_keeps (env : MemEnv) (s : State) :
    Leaves s (execStash env s) := by
  unfold execStash
  try dsimp only
  repeat' first
    | (with_reducible first
      | exact Keeps.refl _ | assumption | apply Leaves.next_of | exact Leaves.fault _ _ | exact Leaves.refused _ _
      | apply Keeps.step (State.flowRunIn_keeps _ _ _ _ ?_) | apply Keeps.step (stashStart_keeps ..)
      | apply Keeps.step (Keeps.foldl _ _ _ ?_) | apply Keeps.step (Keeps.foldl1 _ _ _ ?_))
    | (fail_if_no_progress (with_reducible apply Keeps.upd)) | (fail_if_no_progress (with_reducible apply Keeps.updHbm)) | split
    | (intro _; try dsimp only)

theorem execStateChangeComplete_keeps (s : State) :
    Leaves s (execStateChangeComplete s) := by
  unfold execStateChangeComplete
  try dsimp only
  repeat' first
    | (with_reducible first
      | exact Keeps.refl _ | assumption | apply Leaves.next_of | exact Leaves.fault _ _ | exact Leaves.refused _ _
      | apply Keeps.step (State.enterStandby_keeps ..) | apply Keeps.step (Keeps.foldl _ _ _ ?_)
      | apply Keeps.step (Keeps.foldl1 _ _ _ ?_))
    | (fail_if_no_progress (with_reducible apply Keeps.upd)) | (fail_if_no_progress (with_reducible apply Keeps.updHbm)) | split

theorem execStateCommandReady_keeps (s : State) :
    Leaves s (execStateCommandReady s) := by
  unfold execStateCommandReady
  try dsimp only
  repeat' with_reducible first
    | exact Keeps.refl _ | assumption | apply Leaves.next_of | exact Leaves.fault _ _ | exact Leaves.refused _ _
    | apply Keeps.step (State.stateWrite_keeps ..)

theorem execStateCommandRun_keeps (s : State) :
    Leaves s (execStateCommandRun s) := by
  unfold execStateCommandRun
  try dsimp only
  repeat' with_reducible first
    | exact Keeps.refl _ | assumption | apply Leaves.next_of | exact Leaves.fault _ _ | exact Leaves.refused _ _
    | apply Keeps.step (State.stateWrite_keeps ..)

theorem execStateCommandService_keeps (s : State) :
    Leaves s (execStateCommandService s) := by
  unfold execStateCommandService
  try dsimp only
  repeat' with_reducible first
    | exact Keeps.refl _ | assumption | apply Leaves.next_of | exact Leaves.fault _ _ | exact Leaves.refused _ _
    | apply Keeps.step (State.stateWrite_keeps ..)

theorem execStateCommandStandby_keeps (cleared : Bool) (s : State) :
    Leaves s (execStateCommandStandby cleared s) := by
  unfold execStateCommandStandby
  try dsimp only
  repeat' with_reducible first
    | exact Keeps.refl _ | assumption | apply Leaves.next_of | exact Leaves.fault _ _ | exact Leaves.refused _ _
    | apply Keeps.step (State.stateWrite_keeps ..)

theorem execStopContext_keeps (e : JobEntry) (s : State) :
    Leaves s (execStopContext e s) := by
  unfold execStopContext
  try dsimp only
  repeat' first
    | (with_reducible first
      | exact Keeps.refl _ | assumption | apply Leaves.next_of | exact Leaves.fault _ _ | exact Leaves.refused _ _
      | apply Keeps.step (State.jobRun_keeps _ _ _ _ _ ?_) | apply Keeps.step (State.setCtx_keeps ..)
      | apply Keeps.step (Keeps.foldl _ _ _ ?_) | apply Keeps.step (Keeps.foldl1 _ _ _ ?_))
    | (fail_if_no_progress (with_reducible apply Keeps.upd)) | (fail_if_no_progress (with_reducible apply Keeps.updHbm)) | split
    | (intro _; try dsimp only)

theorem execStream_keeps (ch : BitVec 6) (symbols : Nat) (parity : Option (BitVec 12)) (s : State) :
    Leaves s (execStream ch symbols parity s) := by
  unfold execStream
  try dsimp only
  repeat' first
    | (with_reducible first
      | exact Keeps.refl _ | assumption | apply Leaves.next_of | exact Leaves.fault _ _ | exact Leaves.refused _ _
      | apply Keeps.step (State.startStream_keeps ..) | apply Keeps.step (State.chSettle_keeps ..)
      | apply Keeps.step (State.launch_keeps ..) | apply Keeps.step (Keeps.foldl _ _ _ ?_)
      | apply Keeps.step (Keeps.foldl1 _ _ _ ?_))
    | (fail_if_no_progress (with_reducible apply Keeps.upd)) | (fail_if_no_progress (with_reducible apply Keeps.updHbm)) | split

theorem execSustainedStretchCheck_keeps (die : BitVec 2) (s : State) :
    Leaves s (execSustainedStretchCheck die s) := by
  unfold execSustainedStretchCheck
  try dsimp only
  repeat' first
    | (with_reducible first
      | exact Keeps.refl _ | assumption | apply Leaves.next_of | exact Leaves.fault _ _ | exact Leaves.refused _ _
      | apply Keeps.step (State.settleRamps_keeps ..) | apply Keeps.step (State.setIlim_keeps ..)
      | apply Keeps.step (State.bump_keeps ..) | apply Keeps.step (Keeps.foldl _ _ _ ?_)
      | apply Keeps.step (Keeps.foldl1 _ _ _ ?_))
    | (fail_if_no_progress (with_reducible apply Keeps.upd)) | (fail_if_no_progress (with_reducible apply Keeps.updHbm)) | split

theorem execSvnRaise_keeps (n : BitVec 8) (env : FuseEnv) (s : State) :
    Leaves s (execSvnRaise n env s) := by
  unfold execSvnRaise
  try dsimp only
  repeat' first
    | (with_reducible first
      | exact Keeps.refl _ | assumption | apply Leaves.next_of | exact Leaves.fault _ _ | exact Leaves.refused _ _
      | apply Keeps.step (State.secWrite_keeps _ _ ?_) | apply Keeps.step (State.takeSvn_keeps ..)
      | apply Keeps.step (Keeps.foldl _ _ _ ?_) | apply Keeps.step (Keeps.foldl1 _ _ _ ?_))
    | (fail_if_no_progress (with_reducible apply Keeps.upd)) | (fail_if_no_progress (with_reducible apply Keeps.updHbm)) | split
    | (intro _; try dsimp only)

theorem execSwait_keeps (i : Issue) (badCopies : BitVec 2) (s : State) :
    Leaves s (execSwait i badCopies s) := by
  unfold execSwait
  try dsimp only
  repeat' first
    | (with_reducible first
      | exact Keeps.refl _ | assumption | apply Leaves.next_of | exact Leaves.fault _ _ | exact Leaves.refused _ _
      | apply Keeps.step (State.issue_keeps _ _ _ _ _ ?_) | apply Keeps.step (State.touchObj_keeps ..)
      | apply Keeps.step (State.readObj_keeps ..) | apply Keeps.step (State.nextPc_keeps ..)
      | apply Keeps.step (State.setFile_keeps ..) | apply Keeps.step (Keeps.foldl _ _ _ ?_)
      | apply Keeps.step (Keeps.foldl1 _ _ _ ?_))
    | (fail_if_no_progress (with_reducible apply Keeps.upd)) | (fail_if_no_progress (with_reducible apply Keeps.updHbm)) | split
    | (intro _; try dsimp only)

theorem execSwap_keeps (ch : BitVec 6) (s : State) :
    Leaves s (execSwap ch s) := by
  unfold execSwap
  try dsimp only
  repeat' first
    | (with_reducible first
      | exact Keeps.refl _ | assumption | apply Leaves.next_of | exact Leaves.fault _ _ | exact Leaves.refused _ _
      | apply Keeps.step (State.chSettleAll_keeps ..) | apply Keeps.step (State.chComplete_keeps ..)
      | apply Keeps.step (State.swapBanks_keeps ..) | apply Keeps.step (State.dropHead_keeps ..)
      | apply Keeps.step (State.chSettle_keeps ..) | apply Keeps.step (Keeps.foldl _ _ _ ?_)
      | apply Keeps.step (Keeps.foldl1 _ _ _ ?_))
    | (fail_if_no_progress (with_reducible apply Keeps.upd)) | (fail_if_no_progress (with_reducible apply Keeps.updHbm)) | split

theorem execSwitch_keeps (s : State) :
    Leaves s (execSwitch s) := by
  unfold execSwitch
  try dsimp only
  repeat' first
    | (with_reducible first
      | exact Keeps.refl _ | assumption | apply Leaves.next_of | exact Leaves.fault _ _ | exact Leaves.refused _ _
      | apply Keeps.step (State.entryDone_keeps ..) | apply Keeps.step (State.entryStarts_keeps ..)
      | apply Keeps.step (State.setCtx_keeps ..) | apply Keeps.step (Keeps.foldl _ _ _ ?_)
      | apply Keeps.step (Keeps.foldl1 _ _ _ ?_))
    | (fail_if_no_progress (with_reducible apply Keeps.upd)) | (fail_if_no_progress (with_reducible apply Keeps.updHbm)) | split

theorem execSwitchRequest_keeps (v : BitVec 64) (s : State) :
    Leaves s (execSwitchRequest v s) := by
  unfold execSwitchRequest
  try dsimp only
  repeat' first
    | (with_reducible first
      | exact Keeps.refl _ | assumption | apply Leaves.next_of | exact Leaves.fault _ _ | exact Leaves.refused _ _
      | apply Keeps.step (State.answered_keeps ..) | apply Keeps.step (State.takeSwitch_keeps ..)
      | apply Keeps.step (Keeps.foldl _ _ _ ?_) | apply Keeps.step (Keeps.foldl1 _ _ _ ?_))
    | (fail_if_no_progress (with_reducible apply Keeps.upd)) | (fail_if_no_progress (with_reducible apply Keeps.updHbm)) | split

theorem execSxor_keeps (i : Issue) (s : State) :
    Leaves s (execSxor i s) := by
  unfold execSxor
  try dsimp only
  repeat' first
    | (with_reducible first
      | exact Keeps.refl _ | assumption | apply Leaves.next_of | exact Leaves.fault _ _ | exact Leaves.refused _ _
      | apply Keeps.step (State.issue_keeps _ _ _ _ _ ?_) | apply Keeps.step (scalarOp_keeps ..)
      | apply Keeps.step (Keeps.foldl _ _ _ ?_) | apply Keeps.step (Keeps.foldl1 _ _ _ ?_))
    | (fail_if_no_progress (with_reducible apply Keeps.upd)) | (fail_if_no_progress (with_reducible apply Keeps.updHbm)) | split
    | (intro _; try dsimp only)

theorem execSyncObjectWrite_keeps (obj : BitVec 16) (typ : BitVec 2) (v : BitVec 64) (s : State) :
    Leaves s (execSyncObjectWrite obj typ v s) := by
  unfold execSyncObjectWrite
  try dsimp only
  repeat' first
    | (with_reducible first
      | exact Keeps.refl _ | assumption | apply Leaves.next_of | exact Leaves.fault _ _ | exact Leaves.refused _ _
      | apply Keeps.step (State.answered_keeps ..) | apply Keeps.step (State.setObj_keeps ..)
      | apply Keeps.step (Keeps.foldl _ _ _ ?_) | apply Keeps.step (Keeps.foldl1 _ _ _ ?_))
    | (fail_if_no_progress (with_reducible apply Keeps.upd)) | (fail_if_no_progress (with_reducible apply Keeps.updHbm)) | split

theorem execSyncSet_keeps (s : State) :
    Leaves s (execSyncSet s) := by
  unfold execSyncSet
  try dsimp only
  repeat' first
    | (with_reducible first
      | exact Keeps.refl _ | assumption | apply Leaves.next_of | exact Leaves.fault _ _ | exact Leaves.refused _ _
      | apply Keeps.step (State.flowRun_keeps _ _ _ ?_) | apply Keeps.step (State.entryDone_keeps ..)
      | apply Keeps.step (State.setObj_keeps ..) | apply Keeps.step (Keeps.foldl _ _ _ ?_)
      | apply Keeps.step (Keeps.foldl1 _ _ _ ?_))
    | (fail_if_no_progress (with_reducible apply Keeps.upd)) | (fail_if_no_progress (with_reducible apply Keeps.updHbm)) | split
    | (intro _; try dsimp only)

theorem execTapReset_keeps (s : State) :
    Leaves s (execTapReset s) := by
  unfold execTapReset
  try dsimp only
  repeat' first
    | (with_reducible first
      | exact Keeps.refl _ | assumption | apply Leaves.next_of | exact Leaves.fault _ _ | exact Leaves.refused _ _
      | apply Keeps.step (State.resetGroup_keeps ..) | apply Keeps.step (State.selectIr_keeps ..)
      | apply Keeps.step (Keeps.foldl _ _ _ ?_) | apply Keeps.step (Keeps.foldl1 _ _ _ ?_))
    | (fail_if_no_progress (with_reducible apply Keeps.upd)) | (fail_if_no_progress (with_reducible apply Keeps.updHbm)) | split

theorem execThermalEvaluation_keeps (die : BitVec 2) (temp : Int) (junction : Int) (s : State) :
    Leaves s (execThermalEvaluation die temp junction s) := by
  unfold execThermalEvaluation
  try dsimp only
  repeat' first
    | (with_reducible first
      | exact Keeps.refl _ | assumption | apply Leaves.next_of | exact Leaves.fault _ _ | exact Leaves.refused _ _
      | apply Keeps.step (State.noteTemp_keeps ..) | apply Keeps.step (State.odp_keeps ..)
      | apply Keeps.step (State.bump_keeps ..) | apply Keeps.step (State.setCool_keeps ..)
      | apply Keeps.step (State.herdEvent_keeps ..) | apply Keeps.step (State.settleBallast_keeps ..)
      | apply Keeps.step (State.settleRamps_keeps ..) | apply Keeps.step (Keeps.foldl _ _ _ ?_)
      | apply Keeps.step (Keeps.foldl1 _ _ _ ?_))
    | (fail_if_no_progress (with_reducible apply Keeps.upd)) | (fail_if_no_progress (with_reducible apply Keeps.updHbm)) | split

theorem execTileFence_keeps (ch : BitVec 6) (s : State) :
    Leaves s (execTileFence ch s) := by
  unfold execTileFence
  try dsimp only
  repeat' first
    | (with_reducible first
      | exact Keeps.refl _ | assumption | apply Leaves.next_of | exact Leaves.fault _ _ | exact Leaves.refused _ _
      | apply Keeps.step (State.chSettleAll_keeps ..) | apply Keeps.step (State.chCompleteAt_keeps ..)
      | apply Keeps.step (State.dropHead_keeps ..) | apply Keeps.step (State.chSettle_keeps ..)
      | apply Keeps.step (Keeps.foldl _ _ _ ?_) | apply Keeps.step (Keeps.foldl1 _ _ _ ?_))
    | (fail_if_no_progress (with_reducible apply Keeps.upd)) | (fail_if_no_progress (with_reducible apply Keeps.updHbm)) | split

theorem execTmul_keeps (i : Issue) (s : State) :
    Leaves s (execTmul i s) := by
  unfold execTmul
  try dsimp only
  repeat' first
    | (with_reducible first
      | exact Keeps.refl _ | assumption | apply Leaves.next_of | exact Leaves.fault _ _ | exact Leaves.refused _ _
      | apply Keeps.step (State.issue_keeps _ _ _ _ _ ?_) | apply Keeps.step (State.elementwise_keeps ..)
      | apply Keeps.step (Keeps.foldl _ _ _ ?_) | apply Keeps.step (Keeps.foldl1 _ _ _ ?_))
    | (fail_if_no_progress (with_reducible apply Keeps.upd)) | (fail_if_no_progress (with_reducible apply Keeps.updHbm)) | split
    | (intro _; try dsimp only)

theorem execTraceRecordWrite_keeps (s : State) :
    Leaves s (execTraceRecordWrite s) := by
  unfold execTraceRecordWrite
  try dsimp only
  repeat' first
    | (with_reducible first
      | exact Keeps.refl _ | assumption | apply Leaves.next_of | exact Leaves.fault _ _ | exact Leaves.refused _ _
      | apply Keeps.step (State.coherent_keeps _ _ _ ?_) | apply Keeps.step (State.writeRun_keeps ..)
      | apply Keeps.step (Keeps.foldl _ _ _ ?_) | apply Keeps.step (Keeps.foldl1 _ _ _ ?_))
    | (fail_if_no_progress (with_reducible apply Keeps.upd)) | (fail_if_no_progress (with_reducible apply Keeps.updHbm)) | split
    | (intro _; try dsimp only)

theorem execTrans_keeps (i : Issue) (s : State) :
    Leaves s (execTrans i s) := by
  unfold execTrans
  try dsimp only
  repeat' first
    | (with_reducible first
      | exact Keeps.refl _ | assumption | apply Leaves.next_of | exact Leaves.fault _ _ | exact Leaves.refused _ _
      | apply Keeps.step (State.issue_keeps _ _ _ _ _ ?_) | apply Keeps.step (State.elementwise_keeps ..)
      | apply Keeps.step (Keeps.foldl _ _ _ ?_) | apply Keeps.step (Keeps.foldl1 _ _ _ ?_))
    | (fail_if_no_progress (with_reducible apply Keeps.upd)) | (fail_if_no_progress (with_reducible apply Keeps.updHbm)) | split
    | (intro _; try dsimp only)

theorem execTriggerEvent_keeps (line : BitVec 2) (rising : Bool) (s : State) :
    Leaves s (execTriggerEvent line rising s) := by
  unfold execTriggerEvent
  try dsimp only
  repeat' first
    | (with_reducible first
      | exact Keeps.refl _ | assumption | apply Leaves.next_of | exact Leaves.fault _ _ | exact Leaves.refused _ _
      | apply Keeps.step (State.triggered_keeps ..) | apply Keeps.step (Keeps.foldl _ _ _ ?_)
      | apply Keeps.step (Keeps.foldl1 _ _ _ ?_))
    | (fail_if_no_progress (with_reducible apply Keeps.upd)) | (fail_if_no_progress (with_reducible apply Keeps.updHbm)) | split

theorem execUndoRestore_keeps (env : MemEnv) (s : State) :
    Leaves s (execUndoRestore env s) := by
  unfold execUndoRestore
  try dsimp only
  repeat' first
    | (with_reducible first
      | exact Keeps.refl _ | assumption | apply Leaves.next_of | exact Leaves.fault _ _ | exact Leaves.refused _ _
      | apply Keeps.step (State.within_keeps _ _ _ ?_) | apply Keeps.step (State.undoAll_keeps ..)
      | apply Keeps.step (State.setCtx_keeps ..) | apply Keeps.step (State.stopCtx_keeps ..)
      | apply Keeps.step (Keeps.foldl _ _ _ ?_) | apply Keeps.step (Keeps.foldl1 _ _ _ ?_))
    | (fail_if_no_progress (with_reducible apply Keeps.upd)) | (fail_if_no_progress (with_reducible apply Keeps.updHbm)) | split
    | (intro _; try dsimp only)

theorem execUnloadContext_keeps (e : JobEntry) (s : State) :
    Leaves s (execUnloadContext e s) := by
  unfold execUnloadContext
  try dsimp only
  repeat' first
    | (with_reducible first
      | exact Keeps.refl _ | assumption | apply Leaves.next_of | exact Leaves.fault _ _ | exact Leaves.refused _ _
      | apply Keeps.step (State.jobRun_keeps _ _ _ _ _ ?_) | apply Keeps.step (State.freeCtx_keeps ..)
      | apply Keeps.step (Keeps.foldl _ _ _ ?_) | apply Keeps.step (Keeps.foldl1 _ _ _ ?_))
    | (fail_if_no_progress (with_reducible apply Keeps.upd)) | (fail_if_no_progress (with_reducible apply Keeps.updHbm)) | split
    | (intro _; try dsimp only)

theorem execVabs_keeps (i : Issue) (s : State) :
    Leaves s (execVabs i s) := by
  unfold execVabs
  try dsimp only
  repeat' first
    | (with_reducible first
      | exact Keeps.refl _ | assumption | apply Leaves.next_of | exact Leaves.fault _ _ | exact Leaves.refused _ _
      | apply Keeps.step (State.issue_keeps _ _ _ _ _ ?_) | apply Keeps.step (unOp_keeps ..)
      | apply Keeps.step (Keeps.foldl _ _ _ ?_) | apply Keeps.step (Keeps.foldl1 _ _ _ ?_))
    | (fail_if_no_progress (with_reducible apply Keeps.upd)) | (fail_if_no_progress (with_reducible apply Keeps.updHbm)) | split
    | (intro _; try dsimp only)

theorem execVadd_keeps (i : Issue) (s : State) :
    Leaves s (execVadd i s) := by
  unfold execVadd
  try dsimp only
  repeat' first
    | (with_reducible first
      | exact Keeps.refl _ | assumption | apply Leaves.next_of | exact Leaves.fault _ _ | exact Leaves.refused _ _
      | apply Keeps.step (State.issue_keeps _ _ _ _ _ ?_) | apply Keeps.step (binOp_keeps ..)
      | apply Keeps.step (Keeps.foldl _ _ _ ?_) | apply Keeps.step (Keeps.foldl1 _ _ _ ?_))
    | (fail_if_no_progress (with_reducible apply Keeps.upd)) | (fail_if_no_progress (with_reducible apply Keeps.updHbm)) | split
    | (intro _; try dsimp only)

theorem execVbcast_keeps (i : Issue) (s : State) :
    Leaves s (execVbcast i s) := by
  unfold execVbcast
  try dsimp only
  repeat' first
    | (with_reducible first
      | exact Keeps.refl _ | assumption | apply Leaves.next_of | exact Leaves.fault _ _ | exact Leaves.refused _ _
      | apply Keeps.step (State.issue_keeps _ _ _ _ _ ?_) | apply Keeps.step (State.elementwise_keeps ..)
      | apply Keeps.step (Keeps.foldl _ _ _ ?_) | apply Keeps.step (Keeps.foldl1 _ _ _ ?_))
    | (fail_if_no_progress (with_reducible apply Keeps.upd)) | (fail_if_no_progress (with_reducible apply Keeps.updHbm)) | split
    | (intro _; try dsimp only)

theorem execVcmp_keeps (i : Issue) (s : State) :
    Leaves s (execVcmp i s) := by
  unfold execVcmp
  try dsimp only
  repeat' first
    | (with_reducible first
      | exact Keeps.refl _ | assumption | apply Leaves.next_of | exact Leaves.fault _ _ | exact Leaves.refused _ _
      | apply Keeps.step (State.issue_keeps _ _ _ _ _ ?_) | apply Keeps.step (State.nextPc_keeps ..)
      | apply Keeps.step (Keeps.foldl _ _ _ ?_) | apply Keeps.step (Keeps.foldl1 _ _ _ ?_))
    | (fail_if_no_progress (with_reducible apply Keeps.upd)) | (fail_if_no_progress (with_reducible apply Keeps.updHbm)) | split
    | (intro _; try dsimp only)

theorem execVcvt_keeps (i : Issue) (s : State) :
    Leaves s (execVcvt i s) := by
  unfold execVcvt
  try dsimp only
  repeat' first
    | (with_reducible first
      | exact Keeps.refl _ | assumption | apply Leaves.next_of | exact Leaves.fault _ _ | exact Leaves.refused _ _
      | apply Keeps.step (State.issue_keeps _ _ _ _ _ ?_) | apply Keeps.step (State.elementwise_keeps ..)
      | apply Keeps.step (Keeps.foldl _ _ _ ?_) | apply Keeps.step (Keeps.foldl1 _ _ _ ?_))
    | (fail_if_no_progress (with_reducible apply Keeps.upd)) | (fail_if_no_progress (with_reducible apply Keeps.updHbm)) | split
    | (intro _; try dsimp only)

theorem execVendorKeyRevoke_keeps (key : BitVec 8) (env : FuseEnv) (s : State) :
    Leaves s (execVendorKeyRevoke key env s) := by
  unfold execVendorKeyRevoke
  try dsimp only
  repeat' first
    | (with_reducible first
      | exact Keeps.refl _ | assumption | apply Leaves.next_of | exact Leaves.fault _ _ | exact Leaves.refused _ _
      | apply Keeps.step (State.secWrite_keeps _ _ ?_) | apply Keeps.step (State.takeVendorRevoke_keeps ..)
      | apply Keeps.step (Keeps.foldl _ _ _ ?_) | apply Keeps.step (Keeps.foldl1 _ _ _ ?_))
    | (fail_if_no_progress (with_reducible apply Keeps.upd)) | (fail_if_no_progress (with_reducible apply Keeps.updHbm)) | split
    | (intro _; try dsimp only)

theorem execVerdict_keeps (env : MemEnv) (s : State) :
    Leaves s (execVerdict env s) := by
  unfold execVerdict
  try dsimp only
  repeat' first
    | (with_reducible first
      | exact Keeps.refl _ | assumption | apply Leaves.next_of | exact Leaves.fault _ _ | exact Leaves.refused _ _
      | apply Keeps.step (State.within_keeps _ _ _ ?_) | apply Keeps.step (State.routineWrite_keeps ..)
      | apply Keeps.step (State.setCtx_keeps ..) | apply Keeps.step (State.traced_keeps ..)
      | apply Keeps.step (State.bump_keeps ..) | apply Keeps.step (State.cellarMark_keeps ..)
      | apply Keeps.step (State.cellarWrong_keeps ..) | apply Keeps.step (State.verdictTaken_keeps ..)
      | apply Keeps.step (Keeps.foldl _ _ _ ?_) | apply Keeps.step (Keeps.foldl1 _ _ _ ?_))
    | (fail_if_no_progress (with_reducible apply Keeps.upd)) | (fail_if_no_progress (with_reducible apply Keeps.updHbm)) | split
    | (intro _; try dsimp only)

theorem execVfma_keeps (i : Issue) (s : State) :
    Leaves s (execVfma i s) := by
  unfold execVfma
  try dsimp only
  repeat' first
    | (with_reducible first
      | exact Keeps.refl _ | assumption | apply Leaves.next_of | exact Leaves.fault _ _ | exact Leaves.refused _ _
      | apply Keeps.step (State.issue_keeps _ _ _ _ _ ?_) | apply Keeps.step (State.elementwise_keeps ..)
      | apply Keeps.step (Keeps.foldl _ _ _ ?_) | apply Keeps.step (Keeps.foldl1 _ _ _ ?_))
    | (fail_if_no_progress (with_reducible apply Keeps.upd)) | (fail_if_no_progress (with_reducible apply Keeps.updHbm)) | split
    | (intro _; try dsimp only)

theorem execVmax_keeps (i : Issue) (s : State) :
    Leaves s (execVmax i s) := by
  unfold execVmax
  try dsimp only
  repeat' first
    | (with_reducible first
      | exact Keeps.refl _ | assumption | apply Leaves.next_of | exact Leaves.fault _ _ | exact Leaves.refused _ _
      | apply Keeps.step (State.issue_keeps _ _ _ _ _ ?_) | apply Keeps.step (binOp_keeps ..)
      | apply Keeps.step (Keeps.foldl _ _ _ ?_) | apply Keeps.step (Keeps.foldl1 _ _ _ ?_))
    | (fail_if_no_progress (with_reducible apply Keeps.upd)) | (fail_if_no_progress (with_reducible apply Keeps.updHbm)) | split
    | (intro _; try dsimp only)

theorem execVmin_keeps (i : Issue) (s : State) :
    Leaves s (execVmin i s) := by
  unfold execVmin
  try dsimp only
  repeat' first
    | (with_reducible first
      | exact Keeps.refl _ | assumption | apply Leaves.next_of | exact Leaves.fault _ _ | exact Leaves.refused _ _
      | apply Keeps.step (State.issue_keeps _ _ _ _ _ ?_) | apply Keeps.step (binOp_keeps ..)
      | apply Keeps.step (Keeps.foldl _ _ _ ?_) | apply Keeps.step (Keeps.foldl1 _ _ _ ?_))
    | (fail_if_no_progress (with_reducible apply Keeps.upd)) | (fail_if_no_progress (with_reducible apply Keeps.updHbm)) | split
    | (intro _; try dsimp only)

theorem execVmov_keeps (i : Issue) (s : State) :
    Leaves s (execVmov i s) := by
  unfold execVmov
  try dsimp only
  repeat' first
    | (with_reducible first
      | exact Keeps.refl _ | assumption | apply Leaves.next_of | exact Leaves.fault _ _ | exact Leaves.refused _ _
      | apply Keeps.step (State.issue_keeps _ _ _ _ _ ?_) | apply Keeps.step (unOp_keeps ..)
      | apply Keeps.step (Keeps.foldl _ _ _ ?_) | apply Keeps.step (Keeps.foldl1 _ _ _ ?_))
    | (fail_if_no_progress (with_reducible apply Keeps.upd)) | (fail_if_no_progress (with_reducible apply Keeps.updHbm)) | split
    | (intro _; try dsimp only)

theorem execVmul_keeps (i : Issue) (s : State) :
    Leaves s (execVmul i s) := by
  unfold execVmul
  try dsimp only
  repeat' first
    | (with_reducible first
      | exact Keeps.refl _ | assumption | apply Leaves.next_of | exact Leaves.fault _ _ | exact Leaves.refused _ _
      | apply Keeps.step (State.issue_keeps _ _ _ _ _ ?_) | apply Keeps.step (binOp_keeps ..)
      | apply Keeps.step (Keeps.foldl _ _ _ ?_) | apply Keeps.step (Keeps.foldl1 _ _ _ ?_))
    | (fail_if_no_progress (with_reducible apply Keeps.upd)) | (fail_if_no_progress (with_reducible apply Keeps.updHbm)) | split
    | (intro _; try dsimp only)

theorem execVneg_keeps (i : Issue) (s : State) :
    Leaves s (execVneg i s) := by
  unfold execVneg
  try dsimp only
  repeat' first
    | (with_reducible first
      | exact Keeps.refl _ | assumption | apply Leaves.next_of | exact Leaves.fault _ _ | exact Leaves.refused _ _
      | apply Keeps.step (State.issue_keeps _ _ _ _ _ ?_) | apply Keeps.step (unOp_keeps ..)
      | apply Keeps.step (Keeps.foldl _ _ _ ?_) | apply Keeps.step (Keeps.foldl1 _ _ _ ?_))
    | (fail_if_no_progress (with_reducible apply Keeps.upd)) | (fail_if_no_progress (with_reducible apply Keeps.updHbm)) | split
    | (intro _; try dsimp only)

theorem execVscale2_keeps (i : Issue) (s : State) :
    Leaves s (execVscale2 i s) := by
  unfold execVscale2
  try dsimp only
  repeat' first
    | (with_reducible first
      | exact Keeps.refl _ | assumption | apply Leaves.next_of | exact Leaves.fault _ _ | exact Leaves.refused _ _
      | apply Keeps.step (State.issue_keeps _ _ _ _ _ ?_) | apply Keeps.step (unOp_keeps ..)
      | apply Keeps.step (Keeps.foldl _ _ _ ?_) | apply Keeps.step (Keeps.foldl1 _ _ _ ?_))
    | (fail_if_no_progress (with_reducible apply Keeps.upd)) | (fail_if_no_progress (with_reducible apply Keeps.updHbm)) | split
    | (intro _; try dsimp only)

theorem execVsel_keeps (i : Issue) (s : State) :
    Leaves s (execVsel i s) := by
  unfold execVsel
  try dsimp only
  repeat' first
    | (with_reducible first
      | exact Keeps.refl _ | assumption | apply Leaves.next_of | exact Leaves.fault _ _ | exact Leaves.refused _ _
      | apply Keeps.step (State.issue_keeps _ _ _ _ _ ?_) | apply Keeps.step (State.elementwise_keeps ..)
      | apply Keeps.step (Keeps.foldl _ _ _ ?_) | apply Keeps.step (Keeps.foldl1 _ _ _ ?_))
    | (fail_if_no_progress (with_reducible apply Keeps.upd)) | (fail_if_no_progress (with_reducible apply Keeps.updHbm)) | split
    | (intro _; try dsimp only)

theorem execVsub_keeps (i : Issue) (s : State) :
    Leaves s (execVsub i s) := by
  unfold execVsub
  try dsimp only
  repeat' first
    | (with_reducible first
      | exact Keeps.refl _ | assumption | apply Leaves.next_of | exact Leaves.fault _ _ | exact Leaves.refused _ _
      | apply Keeps.step (State.issue_keeps _ _ _ _ _ ?_) | apply Keeps.step (binOp_keeps ..)
      | apply Keeps.step (Keeps.foldl _ _ _ ?_) | apply Keeps.step (Keeps.foldl1 _ _ _ ?_))
    | (fail_if_no_progress (with_reducible apply Keeps.upd)) | (fail_if_no_progress (with_reducible apply Keeps.updHbm)) | split
    | (intro _; try dsimp only)

theorem execWait_keeps (s : State) :
    Leaves s (execWait s) := by
  unfold execWait
  try dsimp only
  repeat' first
    | (with_reducible first
      | exact Keeps.refl _ | assumption | apply Leaves.next_of | exact Leaves.fault _ _ | exact Leaves.refused _ _
      | apply Keeps.step (State.flowRun_keeps _ _ _ ?_) | apply Keeps.step (State.touchObj_keeps ..)
      | apply Keeps.step (State.entryDone_keeps ..) | apply Keeps.step (Keeps.foldl _ _ _ ?_)
      | apply Keeps.step (Keeps.foldl1 _ _ _ ?_))
    | (fail_if_no_progress (with_reducible apply Keeps.upd)) | (fail_if_no_progress (with_reducible apply Keeps.updHbm)) | split
    | (intro _; try dsimp only)

theorem execWaitResume_keeps (w : Waiter) (s : State) :
    Leaves s (execWaitResume w s) := by
  unfold execWaitResume
  try dsimp only
  repeat' first
    | (with_reducible first
      | exact Keeps.refl _ | assumption | apply Leaves.next_of | exact Leaves.fault _ _ | exact Leaves.refused _ _
      | apply Keeps.step (State.afterIssue_keeps ..) | apply Keeps.step (State.nextPc_keeps ..)
      | apply Keeps.step (State.entryDone_keeps ..) | apply Keeps.step (State.dmaStart_keeps ..)
      | apply Keeps.step (State.dmaSettle_keeps ..) | apply Keeps.step (Keeps.foldl _ _ _ ?_)
      | apply Keeps.step (Keeps.foldl1 _ _ _ ?_))
    | (fail_if_no_progress (with_reducible apply Keeps.upd)) | (fail_if_no_progress (with_reducible apply Keeps.updHbm)) | split

theorem execWaitWorkStart_keeps (env : MemEnv) (s : State) :
    Leaves s (execWaitWorkStart env s) := by
  unfold execWaitWorkStart
  try dsimp only
  repeat' first
    | (with_reducible first
      | exact Keeps.refl _ | assumption | apply Leaves.next_of | exact Leaves.fault _ _ | exact Leaves.refused _ _
      | apply Keeps.step (State.within_keeps _ _ _ ?_) | apply Keeps.step (State.bump_keeps ..)
      | apply Keeps.step (State.markEarly_keeps ..) | apply Keeps.step (optStart_keeps ..)
      | apply Keeps.step (gatherStart_keeps ..) | apply Keeps.step (Keeps.foldl _ _ _ ?_)
      | apply Keeps.step (Keeps.foldl1 _ _ _ ?_))
    | (fail_if_no_progress (with_reducible apply Keeps.upd)) | (fail_if_no_progress (with_reducible apply Keeps.updHbm)) | split
    | (intro _; try dsimp only)

theorem execWakeDone_keeps (ch : BitVec 6) (locked : BitVec 4) (f : CalFinding) (s : State) :
    Leaves s (execWakeDone ch locked f s) := by
  unfold execWakeDone
  try dsimp only
  repeat' first
    | (with_reducible first
      | exact Keeps.refl _ | assumption | apply Leaves.next_of | exact Leaves.fault _ _ | exact Leaves.refused _ _
      | apply Keeps.step (State.relit_keeps ..) | apply Keeps.step (Keeps.foldl _ _ _ ?_)
      | apply Keeps.step (Keeps.foldl1 _ _ _ ?_))
    | (fail_if_no_progress (with_reducible apply Keeps.upd)) | (fail_if_no_progress (with_reducible apply Keeps.updHbm)) | split

theorem execWindowReset_keeps (v : BitVec 32) (s : State) :
    Leaves s (execWindowReset v s) := by
  unfold execWindowReset
  try dsimp only
  repeat' first
    | (with_reducible first
      | exact Keeps.refl _ | assumption | apply Leaves.next_of | exact Leaves.fault _ _ | exact Leaves.refused _ _
      | apply Keeps.step (State.answered_keeps ..) | apply Keeps.step (State.takeWindowReset_keeps ..)
      | apply Keeps.step (Keeps.foldl _ _ _ ?_) | apply Keeps.step (Keeps.foldl1 _ _ _ ?_))
    | (fail_if_no_progress (with_reducible apply Keeps.upd)) | (fail_if_no_progress (with_reducible apply Keeps.updHbm)) | split

theorem execWrite_keeps (m : Lly) (s : State) :
    Leaves s (execWrite m s) := by
  unfold execWrite
  try dsimp only
  repeat' with_reducible first
    | exact Keeps.refl _ | assumption | apply Leaves.next_of | exact Leaves.fault _ _ | exact Leaves.refused _ _
    | apply Keeps.step (State.hearLly_keeps ..)

theorem execWriteReg_keeps (r : DbgReq) (s : State) :
    Leaves s (execWriteReg r s) := by
  unfold execWriteReg
  try dsimp only
  repeat' first
    | (with_reducible first
      | exact Keeps.refl _ | assumption | apply Leaves.next_of | exact Leaves.fault _ _ | exact Leaves.refused _ _
      | apply Keeps.step (State.dbgAccess_keeps _ _ _ _ _ _ ?_) | apply Keeps.step (State.dbgDone_keeps ..)
      | apply Keeps.step (State.setDbgReg_keeps ..) | apply Keeps.step (Keeps.foldl _ _ _ ?_)
      | apply Keeps.step (Keeps.foldl1 _ _ _ ?_))
    | (fail_if_no_progress (with_reducible apply Keeps.upd)) | (fail_if_no_progress (with_reducible apply Keeps.updHbm)) | split
    | (intro _; try dsimp only)

end Sys2Proof.Machine
end

