-- ==== Sys2Proof/WellFormed.lean ====
section
/-! DEFINITION. Which commands name units the module has and carry records of the length their layout has (Table 00-1,
R12, R228, R256, R312); a dictionary write of a wrong length is well formed, and answered (R322). -/

namespace Sys2Proof

/-- A port of the module: P00-P47. -/
def portWf (p : BitVec 6) : Bool := decide (p.toNat < 48)

/-- A lane: 384 in each direction (R228). -/
def laneWf (n : BitVec 9) : Bool := decide (n.toNat < 384)

/-- A power rail: 0-26 (Table 16-1). -/
def railWf (r : BitVec 5) : Bool := decide (r.toNat < 27)

/-- A clock domain: 1-18 (Table 17-1). -/
def domainWf (d : BitVec 5) : Bool := decide (1 ≤ d.toNat ∧ d.toNat ≤ 18)

/-- A part of the optics that the module has. -/
def opticWf : OpticRef → Bool
  | .lane l => laneWf l.idx
  | .addRing p _ => portWf p
  | .dropRing p _ => portWf p

/-- A packet whose payload has the length of its field (R256). -/
def packetWf (p : Packet) : Bool := decide (p.payload.length = p.payLen.toNat)

/-- A flit of 64 bytes (R256). -/
def flitWf (f : RxFlit) : Bool := decide (f.bytes.length = 64)

/-- Whether a command is well formed. -/
def Instr.wf : Instr → Bool
  | .beaconReceive p _ => portWf p
  | .controlBlockReceive p _ => portWf p
  | .pathSwitch _ p _ _ => portWf p
  | .preambleCheck n _ _ => laneWf n
  | .preambleTimeout n => laneWf n
  | .wrongLock e _ => opticWf e
  | .laneLockLoss e => opticWf e
  | .laneRelockAttemptEnd e _ => opticWf e
  | .laneSearchEnd e _ => opticWf e
  | .spareSubstitution l => laneWf l.idx
  | .portOpen p _ => portWf p
  | .probeSend p => portWf p
  | .probeReceive p _ _ => portWf p
  | .portRelight p => portWf p
  | .packetReceive p fs => portWf p && fs.all flitWf
  | .truncation p _ => portWf p
  | .routeTimeout p _ => decide (p.toNat < 49)
  | .returnReceive k => packetWf k
  | .repairBoundary p => portWf p
  | .currentLimit r _ => railWf r
  | .currentLimitRelease r => railWf r
  | .estimateDisagreement r _ => decide (r.toNat < 28)
  | .railOutOfRange r => railWf r
  | .clockStop d _ => domainWf d
  | .clockWake d _ => domainWf d
  | .crossingReset g _ => decide (g.toNat < 9)
  | .laserSupplyCut p => portWf p
  | .jobNop e => decide (e.bytes.length = 64)
  | .loadContext e _ _ => decide (e.bytes.length = 64)
  | .unloadContext e => decide (e.bytes.length = 64)
  | .startContext e => decide (e.bytes.length = 64)
  | .stopContext e => decide (e.bytes.length = 64)
  | _ => true

end Sys2Proof
end

