-- ==== Sys2Proof/Tests/Slice0.lean ====
section
/-! SUPPORT. Tests: ill-formed commands that WellFormed refuses, for every statement a state and operands that meet its hypotheses, and what
one command does on small states, with values from the manual or computed by hand from its rules. -/

set_option Elab.async false

namespace Sys2Proof.Tests

open Sys2Proof.Machine

/-! ### Ill-formed commands -/

/-- A packet of class 0 and type 0 with no payload. -/
def pkt0 : Packet :=
  { typ := 0, epoch := false, last := true, tc := 0, esc := false, hops := 0, job := 7, dx := 1, dy := 0, dz := 0, mcAxis := 0
    mcNeg := false, mcHops := 0, sx := 0, sy := 0, sz := 0, rxq := 0xFFFF, msgId := 9, msgLen := 0, offset := 0, payLen := 0
    lost := false, refused := false, stale := false, inject := 0, payload := [] }

/-- A control block in which nothing is valid. -/
def ctl0 : CtlBlock :=
  { slot := 0, bad := false, errors := [], timeValid := false, offsetPs := 0, delayPs := 0, parentTime := 0, agree := [], refused := 0, fields := 0 }

/-- A fuse operation that completes. -/
def fuseOk : FuseEnv := { failAfter := none, cut := false }

theorem test_wf_ports : ([.beaconReceive 48 0, .controlBlockReceive 63 ctl0, .pathSwitch true 48 0 true, .portOpen 48 0, .probeSend 48,
    .probeReceive 48 0 0, .portRelight 48, .packetReceive 48 [], .truncation 48 0, .routeTimeout 49 0, .repairBoundary 48,
    .laserSupplyCut 48, .wrongLock (.addRing 48 0) 0, .laneLockLoss (.dropRing 48 0)] : List Instr).all (fun i => !i.wf) = true := by
  decide +kernel

theorem test_wf_units : ([.preambleCheck 384 0 0, .preambleTimeout 384, .wrongLock (.lane ⟨true, 384⟩) 0, .laneLockLoss (.lane ⟨false, 384⟩),
    .laneRelockAttemptEnd (.lane ⟨false, 384⟩) true, .laneSearchEnd (.lane ⟨true, 511⟩) true, .spareSubstitution ⟨true, 384⟩,
    .currentLimit 27 0, .currentLimitRelease 27, .estimateDisagreement 28 false, .railOutOfRange 27, .clockStop 0 0, .clockWake 19 0, .crossingReset 9 0]
    : List Instr).all (fun i => !i.wf) = true := by decide +kernel

theorem test_wf_payloads : ([.packetReceive 0 [⟨[], 0, false, 0, 0⟩], .returnReceive { pkt0 with payload := [0] }, .jobNop ⟨[]⟩]
    : List Instr).all (fun i => !i.wf) = true := by decide +kernel

theorem test_wf_good : ([.beaconReceive 47 0, .preambleTimeout 383, .railOutOfRange 26, .clockStop 18 0, .routeTimeout 48 0,
    .estimateDisagreement 27 false, .packetReceive 47 [], .attestationRequest [], .nop ⟨0, 0⟩] : List Instr).all Instr.wf = true := by decide +kernel

/-! ### Cores -/

/-- The state after a command; the state before where it does not complete. -/
def after (i : Instr) (s : State) : State :=
  match exec i s with
  | .next t => t
  | .fault _ => s
  | .refused _ => s

/-- Whether a command completes. -/
def completes (i : Instr) (s : State) : Bool :=
  match exec i s with
  | .next _ => true
  | .fault _ => false
  | .refused _ => false

/-- A context descriptor with a window of 60 pails from pail 2, the core store's first 64 KiB and objects 0 to 255;
MAX_REPEAT is 2. -/
def descT : List Byte :=
  leBytes 2 7 ++ List.replicate 6 0 ++ leBytes 8 5 ++ [2, 60, 3, 4, 2, 0, 0, 0] ++ leBytes 4 0 ++ leBytes 4 0x10000
    ++ leBytes 2 0 ++ leBytes 2 256

/-- The state after reset with no accumulator in use, as on a part whose device key matches its fuses. -/
def baseT : State := { State.reset with herd := { State.reset.herd with accs := [] } }

/-- No array error, replay or failing transfer meets the operation. -/
def menvT : MemEnv := ⟨[], none, []⟩

/-- A running context. -/
def ctxT : Ctx := { ctxNone with st := .running, desc := descT, stepOn := true }

/-- A core file with a running program and s1 .. s4 at given values. -/
def fileT (a b c d : Nat) : CoreFile :=
  { fileNone with running := true, regs := [(1, BitVec.ofNat 64 a), (2, BitVec.ofNat 64 b), (3, BitVec.ofNat 64 c), (4, BitVec.ofNat 64 d)] }

/-- Context 0 runs on core 0, which stands at address 0 before the word w. -/
def coreT (w : Nat) (f : CoreFile) : State :=
  State.putStoreRun { baseT with ctxs := [(0, ctxT)], current := some 0, files := [(0, f)] } 0 0 (leBytes 8 w)

/-- Core 0 without a parity mismatch. -/
def i0 : Issue := ⟨0, 0⟩

/-- A scalar-form word (Table 04-3). -/
def sw (op sd sa sb : Nat) : Nat := op + sd * 2 ^ 8 + sa * 2 ^ 13 + sb * 2 ^ 18

/-- A vector-form word (Table 04-2): opcode, PD, PA, PB, PC and the bits above. -/
def vw (op pd pa pb pc hi : Nat) : Nat := op + pd * 2 ^ 8 + pa * 2 ^ 14 + pb * 2 ^ 20 + pc * 2 ^ 26 + hi

/-- One word of every scalar and vector opcode of Table 04-4. -/
def wordsT : List Nat :=
  [sw 1 3 1 2, sw 2 3 1 2, sw 3 3 1 2, sw 4 3 1 2, sw 5 3 1 2, sw 6 3 1 2, sw 7 3 1 2, sw 8 3 1 2, sw 9 3 1 2, sw 0x0A 3 0 0, sw 0x0B 3 0 0,
   sw 0x0C 0 1 2, 0, sw 0x0E 3 1 0, sw 0x0F 0 1 2, sw 0x10 3 0 0 + 4 * 2 ^ 32, sw 0x11 0 0 0, vw 0x20 1 2 3 0 0, vw 0x21 1 2 3 0 0,
   vw 0x22 1 2 3 0 0, vw 0x23 1 2 3 4 0, vw 0x24 1 2 3 0 0, vw 0x25 1 2 3 0 0, vw 0x26 1 2 0 0 0, vw 0x27 1 2 0 0 0, vw 0x28 1 2 0 0 (2 ^ 47),
   vw 0x29 0 2 3 0 (2 ^ 44), vw 0x2A 1 2 3 0 0, vw 0x2B 1 2 0 0 (2 ^ 38), vw 0x2C 1 2 0 0 0, vw 0x2D 1 0 0 0 (2 ^ 47), vw 0x40 1 2 0 0 0,
   vw 0x41 1 2 0 0 0, vw 0x42 1 2 0 0 0, vw 0x43 1 2 0 0 0, vw 0x44 1 2 0 0 0, vw 0x60 1 2 0 0 0, vw 0x61 1 2 0 0 0,
   vw 0x80 1 2 3 4 (2 ^ 38 + 2 ^ 52), vw 0xA0 1 0 0 0 (2 ^ 47), vw 0xA1 0 2 0 0 (2 ^ 47), vw 0xA2 1 0 0 0 (2 ^ 47 + 2 ^ 38),
   vw 0xA3 0 2 0 0 (2 ^ 47 + 2 ^ 38), sw 0xC0 0 4 0, sw 0xC1 4 0 0, sw 0xC2 4 0 6, sw 0xC3 0 1 2, sw 0xC4 0 1 2, sw 0xC5 0 0 0]

/-- Every one of them issues (the hypothesis of the statements about core instructions), from the last place of the range too. -/
theorem test_words_issue : wordsT.all (fun w => Claims.issues (coreT w (fileT 64 0 0 0)) i0 0 w) = true := by decide +kernel

/-- The words of `wordsT` carry every opcode of Table 04-4 once. -/
theorem test_words_opcodes : (Claims.coreRows i0 0).map (fun r => wordsT.any fun w => decide (opcOf w = r.1)) = List.replicate 49 true := by
  decide +kernel

/-- A register of context 0 on core 0 after a command. -/
def regAfter (i : Instr) (s : State) (r : Nat) : Dword := ((after i s).file 0 0).reg r

theorem test_sadd_wraps : regAfter (.sadd i0) (coreT (sw 1 3 1 2) (fileT (2 ^ 64 - 1) 3 0 0)) 3 = 2 := by decide +kernel
theorem test_ssub_wraps : regAfter (.ssub i0) (coreT (sw 2 3 1 2) (fileT 1 3 0 0)) 3 = BitVec.ofNat 64 (2 ^ 64 - 2) := by decide +kernel
theorem test_ssra_sign : regAfter (.ssra i0) (coreT (sw 9 3 1 2) (fileT (2 ^ 63) 65 0 0)) 3 = BitVec.ofNat 64 (2 ^ 63 + 2 ^ 62) := by
  decide +kernel
theorem test_s0_discards : regAfter (.sor i0) (coreT (sw 5 0 1 2) (fileT 1 2 0 0)) 0 = 0 := by decide +kernel
theorem test_slih : regAfter (.slih i0) (coreT (sw 0x0B 1 0 0 + 7 * 2 ^ 32) (fileT 9 0 0 0)) 1 = BitVec.ofNat 64 (7 * 2 ^ 32 + 9) := by
  decide +kernel
theorem test_br_taken : ((after (.br i0) (coreT (sw 0x0C 0 1 1 + 3 * 2 ^ 32) (fileT 1 0 0 0))).file 0 0).pc = 24 := by
  decide +kernel
theorem test_sst_sld : (after (.sst i0) (coreT (sw 0x0F 0 1 2) (fileT 64 0x0102030405060708 0 0))).storeBytes 0 64 8
    = [8, 7, 6, 5, 4, 3, 2, 1] := by decide +kernel
theorem test_sld_misaligned : ((after (.sld i0) (coreT (sw 0x0E 3 1 0) (fileT 63 0 0 0))).file 0 0).faulted = true := by decide +kernel
theorem test_sld_last : let s := coreT (sw 0x0E 3 1 0) (fileT 0xFFF8 0 0 0)
    regAfter (.sld i0) s 3 = 0 ∧ ((after (.sld i0) s).file 0 0).faulted = false := by decide +kernel
theorem test_sst_outside : ((after (.sst i0) (coreT (sw 0x0F 0 1 0) (fileT 0x10000 0 0 0))).file 0 0).faulted = true := by decide +kernel
theorem test_srdsys_flags : let s := coreT (sw 0x10 3 0 0 + 4 * 2 ^ 32) { fileT 0 0 0 0 with flags := 9 }
    regAfter (.srdsys i0) s 3 = 9 ∧ ((after (.srdsys i0) s).file 0 0).flags = 0 := by decide +kernel
theorem test_end_stops : (after (.endp i0) (coreT (sw 0x11 0 0 0) (fileT 0 0 0 0))).canIssue 0 0 = false := by decide +kernel

/-- A state whose pail p of core 0 (as the context numbers it) holds the words given, element by element from 0. -/
def withPail (s : State) (p : Nat) (ws : List Word) : State :=
  (ws.zipIdx).foldl (fun s x => s.setPail 0 (2 + p) x.2 x.1) s

/-- Element e of pail p of core 0 after a command. -/
def pailAfter (i : Instr) (s : State) (p e : Nat) : Word := (after i s).pail 0 (2 + p) e

/-- Core 0 before w, with pail 2 holding a, pail 3 b and pail 4 c from element 0 on. -/
def pailT (w : Nat) (a b c : List Word) : State := withPail (withPail (withPail (coreT w (fileT 0 0 0 0)) 2 a) 3 b) 4 c

theorem test_vadd : pailAfter (.vadd i0) (pailT (vw 0x20 1 2 3 0 0) [0x3F800000, 0x7F7FFFFF] [0x40000000, 0x7F7FFFFF] []) 1 0 = 0x40400000
    := by decide +kernel
theorem test_vadd_int : pailAfter (.vadd i0) (pailT (vw 0x20 1 2 3 0 (4 * 2 ^ 38)) [0x7FFFFFFF] [1] []) 1 0 = 0x80000000 := by decide +kernel
theorem test_vfma : pailAfter (.vfma i0) (pailT (vw 0x23 1 2 3 4 0) [0x40000000] [0x40400000] [0x3F800000]) 1 0 = 0x40E00000 := by
  decide +kernel
theorem test_vcmp_bits : let m := ((after (.vcmp i0) (pailT (vw 0x29 0 2 3 0 (2 ^ 44 + 4 * 2 ^ 38)) [1, 5] [1, 6] [])).file 0 0).mask 1
    m.getLsbD 0 = true ∧ m.getLsbD 1 = false ∧ m.getLsbD 2 = true := by decide +kernel
theorem test_rsum_row : let t := after (.rsum i0) (pailT (vw 0x40 1 2 0 0 (4 * 2 ^ 38)) [1, 2, 3, 4, 5, 6, 7, 8, 9, 10, 11, 12, 13, 14, 15, 16] [] [])
    t.pail 0 3 0 = 136 ∧ t.pail 0 3 15 = 136 ∧ t.pail 0 3 16 = 0 := by decide +kernel
theorem test_trans : pailAfter (.trans i0) (pailT (vw 0x44 1 2 0 0 0) [1, 2] [] []) 1 16 = 2 := by decide +kernel

/-- A word of moves issues with an address in range and with one out of it, at the last place that is in range and one step beyond. -/
theorem test_moves_ok : let f := fileT 0 0 0 0
    let at_ := fun (w a : Nat) => coreT w { f with regs := [(1, BitVec.ofNat 64 a)] }
    (at_ (vw 0xA0 1 0 0 0 (2 ^ 47)) (0x10000 - 1024)).moveOk 0 0 (vword (vw 0xA0 1 0 0 0 (2 ^ 47))) 4 = true
    ∧ (at_ (vw 0xA0 1 0 0 0 (2 ^ 47)) (0x10000 - 1008)).moveOk 0 0 (vword (vw 0xA0 1 0 0 0 (2 ^ 47))) 4 = false
    ∧ (at_ (vw 0xA1 0 2 0 0 (2 ^ 47)) 8).moveOk 0 0 (vword (vw 0xA1 0 2 0 0 (2 ^ 47))) 4 = false
    ∧ (at_ (vw 0xA2 1 0 0 0 (2 ^ 47 + 2 ^ 38)) (0x10000 - 512)).moveOk 0 0 (vword (vw 0xA2 1 0 0 0 (2 ^ 47 + 2 ^ 38))) 2 = true
    ∧ (at_ (vw 0xA3 0 2 0 0 (2 ^ 47 + 2 ^ 38)) (0x10000 - 496)).moveOk 0 0 (vword (vw 0xA3 0 2 0 0 (2 ^ 47 + 2 ^ 38))) 2 = false := by
  decide +kernel

theorem test_pld : pailAfter (.pld i0) ((coreT (vw 0xA0 1 0 0 0 (2 ^ 47)) (fileT 64 0 0 0)).putStoreRun 0 64 [1, 0, 0, 0, 2, 1]) 1 1 = 0x102 := by
  decide +kernel
theorem test_pst : (after (.pst i0) (withPail (coreT (vw 0xA1 0 2 0 0 (2 ^ 47)) (fileT 64 0 0 0)) 2 [0x04030201])).storeBytes 0 64 5
    = [1, 2, 3, 4, 0] := by decide +kernel

/-- The cases of core faults (R94): outside the range, an illegal word, a pail outside the window, a third mismatch. -/
theorem test_core_faults : ((coreT 0 { fileT 0 0 0 0 with pc := 4 }).file 0 0).pc % 8 ≠ 0
    ∧ legalWord 0x0D = false ∧ ((pailsOf (vw 0x2C 60 2 0 0 0)).all fun p => decide (p < ctxT.pcount)) = false
    ∧ ((pailsOf (vw 0x2C 59 2 0 0 0)).all fun p => decide (p < ctxT.pcount)) = true ∧ (coreT 0x0D (fileT 0 0 0 0)).runningCtx = some 0
    ∧ (coreT 0x0D (fileT 0 0 0 0)).canIssue 0 0 = true := by decide +kernel

theorem test_fault_codes : (after (.nop i0) (coreT 0x0D (fileT 0 0 0 0))).odg 0x2301 0x02 = 1
    ∧ (after (.vmov i0) (coreT (vw 0x2C 60 2 0 0 0) (fileT 0 0 0 0))).odg 0x2301 0x02 = 2
    ∧ (after (.nop i0) (coreT 0 { fileT 0 0 0 0 with pc := 0x10000 })).odg 0x2301 0x02 = 3
    ∧ (after (.nop ⟨0, 3⟩) (coreT 0 (fileT 0 0 0 0))).odg 0x2301 0x02 = 4 := by decide +kernel

/-- A churn of region 0 with the work given. -/
def churnT (s : State) (st : ChState) (w : ChWork) : State := { s with churns := [(0, { churnNone with st := st, work := w })] }

/-- Bytes by fields (offset, width, value), 0 elsewhere. -/
def fieldsT (size : Nat) (fs : List (Nat × Nat × Nat)) : List Byte :=
  (List.range size).map fun i => match fs.find? fun f => decide (f.1 ≤ i ∧ i < f.1 + f.2.1) with
    | some f => BitVec.ofNat 8 (f.2.2 / 2 ^ (8 * (i - f.1)))
    | none => 0

/-- A tile command of operation op with the words given after the first. -/
def tileT (op w1 w2 w3 : Nat) : List Byte := fieldsT 32 [(0, 4, op), (4, 4, w1), (8, 4, w2), (12, 4, w3)]

/-- A completion record of tag 5 and status 2. -/
def recT : List Byte := chRecord 5 2 0 0 9

theorem test_churn_words : let s := coreT (sw 0xC0 0 4 0) (fileT 0 0 0 0)
    (churnT s .ready workNone).runningCtx = some 0
    ∧ Claims.issues (churnT s .ready { workNone with queue := List.replicate 31 recT }) i0 0 (sw 0xC0 0 4 0) = true
    ∧ Claims.issues (churnT s .ready { workNone with queue := List.replicate 32 recT }) i0 0 (sw 0xC0 0 4 0) = true := by decide +kernel

theorem test_cpop : let t := after (.cpop i0) (churnT (coreT (sw 0xC1 4 0 0) (fileT 0 0 0 0)) .ready { workNone with fifo := [recT] })
    (t.file 0 0).reg 4 = 0x20005 ∧ (t.file 0 0).reg 5 = 9 ∧ (t.churn 0).work.fifo = [] := by decide +kernel
theorem test_cpopnb_none : let t := after (.cpopnb i0) (coreT (sw 0xC2 4 0 6) (fileT 0 0 0 8))
    (t.file 0 0).reg 6 = 0 ∧ (t.file 0 0).reg 4 = 8 ∧ (t.file 0 0).pc = 8 := by decide +kernel

/-- An object range in which object 3 is sound, 4 has lost its value and bank 1 is retired. -/
def syncT (s : State) : State := { s with sync := { value := [(3, 10)], typ := [], lost := [4], spared := [], retired := [1] } }

theorem test_sync_words : let s := syncT (coreT (sw 0xC3 0 1 2) (fileT 3 2 0 0))
    Claims.issues s i0 0 (sw 0xC3 0 1 2) = true ∧ s.sync.retired.contains (3 / 256) = false ∧ s.sync.lost.contains 3 = false
    ∧ s.satisfied 3 10 = true ∧ s.satisfied 3 11 = false := by decide +kernel
theorem test_ssig : (after (.ssig i0 0) (syncT (coreT (sw 0xC3 0 1 2) (fileT 3 2 0 0)))).objVal 3 = 12 := by decide +kernel
theorem test_swait_waits : ((after (.swait i0 0) (syncT (coreT (sw 0xC4 0 1 2) (fileT 3 11 0 0)))).file 0 0).waiting = some (3, 11) := by
  decide +kernel

theorem test_swait_lost : let t := after (.swait i0 3) (syncT (coreT (sw 0xC4 0 1 2) (fileT 3 11 0 0)))
    t.sync.lost = [3, 4] ∧ (t.file 0 0).waiting = some (3, 11) := by decide +kernel
theorem test_ssig_retired : let s := syncT (coreT (sw 0xC3 0 1 2) (fileT 256 2 0 0))
    s.sync.retired.contains (256 / 256) = true ∧ s.objOwners 256 = [] ∧ s.objOwners 255 = [0]
    ∧ (after (.ssig i0 0) s).sync = s.sync := by decide +kernel

theorem test_breakpoint : let s := fun (pass : Bool) => coreT 0 { fileT 0 0 0 0 with bps := [(0, 0)], bpPass := pass }
    let hits := fun (s : State) (f : CoreFile) =>
      s.coreEnabled 0 && f.running && !f.faulted && !f.halted && f.waiting.isNone && f.atBp && !f.bpPass
    (s false).runningCtx = some 0 ∧ baseT.runningCtx = none
    ∧ hits (s false) ((s false).file 0 0) = true ∧ hits (s true) ((s true).file 0 0) = false
    ∧ ((after (.breakpointHit 0) (s false)).file 0 0).halted = true := by decide +kernel
theorem test_resume : let s := syncT (coreT 0 { fileT 0 0 0 0 with waiting := some (3, 10) })
    s.runningCtx = some 0 ∧ (s.file 0 0).waiting = some (3, 10) ∧ s.satisfied 3 (BitVec.ofNat 64 10) = true
    ∧ ((after (.waitResume (.core 0)) s).file 0 0).pc = 8 := by decide +kernel

/-! ### Churns -/

/-- Churn 0 READY with one command at the head of its queue. -/
def headT (cmd : List Byte) : State := churnT baseT .ready { workNone with queue := [cmd] }

theorem test_churn_heads : let stream := tileT 0x7F7F0003 0 0 0x10000
    (headT (tileT 1 0 0 0)).headOf 0 1 = some (tileT 1 0 0 0) ∧ (headT (tileT 2 0 0 0)).headOf 0 2 = some (tileT 2 0 0 0)
    ∧ (headT (tileT 4 0x70000 0 0)).headOf 0 4 = some (tileT 4 0x70000 0 0) ∧ (headT (tileT 5 0 0 0)).headOf 0 5 = some (tileT 5 0 0 0)
    ∧ (headT stream).headOf 0 3 = some stream ∧ (headT stream).runsShadow 0 stream = false
    ∧ ((headT stream).churn 0).rateDue = false ∧ ((headT stream).churn 0).work.maySwap = true := by decide +kernel

/-- Churn 0 in a state, with a command in execution, a rate change due, and a command at the head of its queue. -/
def busyT (st : ChState) (exec : List ChExec) (due : Bool) (cmd : List Byte) : State :=
  { baseT with churns := [(0, { churnNone with st := st, rateDue := due, work := { workNone with queue := [cmd], exec := exec } })] }

/-- The other cases of a command at the head: a bank in use, a churn that sleeps, works or is lost, shadow mode by command and by
register, a fallback, a rejection. -/
theorem test_churn_cases : let stream := fun (flags : Nat) => tileT (0x7F7F0003 + flags) 0 0 0x10000
    let load := execNew (tileT 1 0 0 0) true
    let air := { execNew (stream 0) false with air := [(0, 0, 0)] }
    (busyT .ready [air] false (tileT 1 0 0 0)).headOf 0 1 = some (tileT 1 0 0 0)
    ∧ [air].all (fun e => decide (cmdOp e.cmd = 3 ∧ e.bank = false)) = true ∧ [load].all (fun e => decide (cmdOp e.cmd = 3 ∧ e.bank = false)) = false
    ∧ ((busyT .ready [load] false (tileT 2 0 0 0)).churn 0).work.maySwap = false
    ∧ (busyT .ready [load] false (tileT 2 0 0 0)).headOf 0 2 = some (tileT 2 0 0 0)
    ∧ (busyT .calibrating [] false (tileT 5 0 0 0)).headOf 0 5 = some (tileT 5 0 0 0)
    ∧ (busyT .ready [load] false (tileT 5 0 0 0)).headOf 0 5 = some (tileT 5 0 0 0)
    ∧ [ChState.dark, .waking, .relighting, .retired, .streaming].all (fun st => (busyT st [] true (stream 0x2000)).headOf 0 3 == some (stream 0x2000)) = true
    ∧ cmdFallback (stream 0x2000) = true ∧ cmdFallback (stream 0) = false
    ∧ baseT.runsShadow 0 (stream 0x80) = true ∧ (baseT.odp 0x2200 0x04 0 1).runsShadow 0 (stream 0) = true
    ∧ (busyT .ready [load] false (stream 0x80)).headOf 0 3 = some (stream 0x80)
    ∧ (headT (tileT 1 0 64 0)).cmdReject 0 (tileT 1 0 64 0) = St.CMD_BAD_FIELD := by decide +kernel

theorem test_load_starts : ((after (.load 0 none) (headT (tileT 1 0 0 0))).churn 0).work.exec.length = 1 := by decide +kernel
theorem test_swap : ((after (.swap 0) (headT (tileT 2 0 0 0))).churn 0).work.active = true := by decide +kernel
theorem test_tile_fence : (((after (.tileFence 0) (headT (tileT 4 0x70000 0 0))).churn 0).work.fifo.map fun r => (fld r 0 2, fld r 2 2))
    = [(7, St.CHURN_DONE)] := by decide +kernel
theorem test_cal : ((after (.cal 0) (headT (tileT 5 0 0 0))).churn 0).st = .calibrating := by decide +kernel
theorem test_bad_src : ((after (.load 0 none) (headT (tileT 1 0 64 0))).churn 0).work.fifo.map (fun r => fld r 2 2) = [St.CMD_BAD_FIELD] := by
  decide +kernel
theorem test_stream_launches : ((after (.stream 0 1 none) (headT (tileT 0x7F7F0003 5 0 0x10000))).churn 0).work.exec.map (fun e => e.air.length)
    = [4] := by decide +kernel

theorem test_churn_progress : let e := execNew (tileT 1 0 0 0) true
    let v := { execNew (tileT 0x7F7F0003 0 0 0x10000) false with next := 1, air := [(0, 0, 0)] }
    ((churnT baseT .ready { workNone with exec := [e] }).churn 0).st ≠ .calibrating ∧ [e].findIdx? (fun e => decide (cmdOp e.cmd = 1)) = some 0
    ∧ [v].findIdx? (fun e => decide (cmdOp e.cmd = 3)) = some 0 ∧ v.air = (0, 0, 0) :: [] ∧ e.tainted = false := by decide +kernel

theorem test_clip_policy : let cmd := fun (policy gain : Nat) => tileT (3 + gain * 2 ^ 8 + policy * 2 ^ 11) 0 0 0
    clipAct (cmd 0 7) 0 1 = .accumulate 1 false ∧ clipAct (cmd 1 7) 1 1 = .retry ∧ clipAct (cmd 1 7) 2 1 = .accumulate 1 true
    ∧ clipAct (cmd 1 0) 0 1 = .accumulate 1 false ∧ clipAct (cmd 2 7) 0 1 = .abort ∧ clipAct (cmd 1 1) 1 3 = .accumulate 3 false := by
  decide +kernel

/-- A calibration that found nothing wrong and measured 1 to 4. -/
def calT : CalFinding := { residual := [], noisy := 0, spareRows := 0, spareCols := 0, noise := 1, offset := 2, gain := 3, temp := 4 }

/-- Churn 0 as given, 200 µs after the last calibration of any churn. -/
def churnAt (x : Churn) : State := { baseT with churns := [(0, x)], ctl := { baseT.ctl with clock := 200000 } }

theorem test_churn_states : let s := fun (st : ChState) => churnAt { churnNone with st := st }
    0 ∈ (s .ready).healthy 0 ∧ 3 ∈ (s .ready).healthy 0
    ∧ (s .ready).odg 0x2200 0x02 = 0 ∧ (s .ready).time.everLock = false ∧ ((s .ready).churn 0).calEnd + 200000 ≤ (s .ready).ctl.clock
    ∧ ¬ ((churnT baseT .ready workNone).churn 0).calEnd + 200000 ≤ (churnT baseT .ready workNone).ctl.clock
    ∧ ((s .calibrating).churn 0).before = .ready ∧ ((s .calibrating).churn 0).rateDue = false ∧ ((s .calibrating).churn 0).rateCal = false
    ∧ (s .ready).relockReady (0 / 16) = true ∧ ((s .ready).odp 0x2004 0x02 0 0).relockReady 0 = false
    ∧ ((s .relighting).churn 0).attempts = 0 ∧ Sparse.find [(2, (1 : Nat))] 2 = some 1
    ∧ (s .ready).odg 0x2200 0x05 ≠ 0 ∧ ¬ ((s .ready).churn 0).idleAt + 1000 * (s .ready).odg 0x2200 0x05 ≤ 200000
    ∧ ((s .ready).churn 0).idleAt + 1000 * ((s .ready).odp 0x2200 0x05 0 200).odg 0x2200 0x05 ≤ 200000 := by decide +kernel

theorem test_calibration : let t := after (.calibrationDone 0 calT) (churnAt { churnNone with st := .calibrating })
    (t.churn 0).st = .ready ∧ t.odg 0x2203 0x03 0 = 3 ∧ t.odg 0x2202 0x06 = 1 := by decide +kernel
theorem test_calibration_due : ((after (.calibrationDue 0) (churnAt { churnNone with st := .ready })).churn 0).st = .calibrating
    ∧ ((after (.calibrationDue 0) (churnT baseT .ready workNone)).churn 0).st = .ready := by decide +kernel
theorem test_slot_loss : let t := after (.slotLockLoss 0 3) (churnT baseT .ready workNone)
    t.healthy 0 = [0, 1, 2] ∧ t.odg 0x2202 0x04 = 1 := by decide +kernel
theorem test_relit : let t := after (.relightAttemptEnd 0 true 5 calT) (churnT baseT .relighting workNone)
    (t.churn 0).st = .ready ∧ t.healthy 0 = [0, 2] := by decide +kernel
theorem test_relight_third : ((after (.relightAttemptEnd 0 false 0 calT)
    { baseT with churns := [(0, { churnNone with st := .relighting, attempts := 2 })] }).churn 0).st = .retired := by decide +kernel
theorem test_dark : ((after (.darkTimeout 0) ((churnAt { churnNone with st := .ready }).odp 0x2200 0x05 0 200)).churn 0).st = .dark := by decide +kernel

/-! ### DMA -/

/-- A descriptor by its fields (Table 07-2). -/
def dmaD (fs : List (Nat × Nat × Nat)) : List Byte := fieldsT 64 fs

/-- Queue q0 of CD0 of context 0. -/
def q0 : QRef := ⟨0, 0, 0⟩

/-- A transfer that nothing disturbs. -/
def envT : XferEnv := { replays := [], failAt := none, listFail := none, hostData := [], ecc := [] }

/-- The base state with a routing table version 0 of axes of two modules each. -/
def netT : State := (((baseT.odp 0x2600 0x03 0 1).odp 0x2600 0x01 4 2).odp 0x2600 0x01 5 2).odp 0x2600 0x01 6 2

/-- Context 0 runs and q0 holds one fetched descriptor. -/
def dmaT (d : List Byte) : State :=
  { netT with ctxs := [(0, ctxT)], current := some 0, dmaq := [(0, { next := 1, items := [{ h := 0, bytes := d, status := 0, started := false, handed := false, flags := 0, record := none }], written := 0 })] }

/-- The descriptor of `dmaT`. -/
def itemT (d : List Byte) : Desc := { h := 0, bytes := d, status := 0, started := false, handed := false, flags := 0, record := none }

/-- An atomic of a code on MA 64 with operand 5 (and 6), its old value to core 0, offset 0. -/
def atomD (code : Nat) : List Byte := dmaD [(0, 1, 3), (1, 1, 1), (3, 1, code), (16, 8, 64), (48, 8, 5), (56, 8, if 15 ≤ code then 6 else 0)]

theorem test_atomic_turns : (List.range 16).all (fun n => Claims.dmaTurn (dmaT (atomD (n + 1))) q0 envT 0 (itemT (atomD (n + 1))) 3
    && decide (dMemop (atomD (n + 1)) = n + 1)) = true := by decide +kernel
theorem test_atomic_place : (dmaT (atomD 1)).readStatus 64 = 0 ∧ (dmaT (atomD 1)).locOf 1 (dSrc (atomD 1)) 0 = .core 0 0 := by decide +kernel
theorem test_at_add : let t := after (.atAddU32 q0 envT) ((dmaT (atomD 1)).putMem 64 [0xFE, 0xFF, 0xFF, 0xFF, 9])
    t.memBytes 64 5 = [3, 0, 0, 0, 9] ∧ t.storeBytes 0 0 4 = [0xFE, 0xFF, 0xFF, 0xFF] := by decide +kernel
theorem test_at_cas : (after (.atCasU64 q0 envT) ((dmaT (atomD 0x10)).putMem 64 [5])).memBytes 64 2 = [6, 0] := by decide +kernel

/-- A reduction of a code: one row of 8 bytes (one segment of 1,088 for blocks) from MA 4096 to MA 64. -/
def redD (code : Nat) : List Byte := dmaD [(0, 1, 4), (3, 1, code), (6, 2, 1), (8, 8, 8192), (16, 8, 64), (24, 4, if code = 0x25 then 1088 else 8)]

theorem test_reduction_turns : [0x20, 0x21, 0x22, 0x23, 0x24, 0x25].all (fun n => Claims.dmaTurn (dmaT (redD n)) q0 envT 0 (itemT (redD n)) 4
    && decide (dMemop (redD n) = n) && decide (dRows (redD n) ≤ 1)) = true := by decide +kernel
theorem test_reduction_clear : ∀ n, n < 8 → (match (dmaT (redD 0x22)).rowLoc (srcSide (redD 0x22)) n with
    | .mem a => (dmaT (redD 0x22)).readStatus a
    | _ => 0) = 0 ∧ (dmaT (redD 0x22)).readStatus (dDst (redD 0x22) + 4 * (n % 8 / 4)) = 0 := by decide +kernel
theorem test_rd_add : (after (.rdAddI32 q0 envT) (((dmaT (redD 0x22)).putMem 8192 [1, 0, 0, 0, 2]).putMem 64 [7])).memBytes 64 5 = [8, 0, 0, 0, 2] := by
  decide +kernel
theorem test_block_add : bs8Add 5 3 1 = (11, false) ∧ bs8Add 2147483647 1 0 = (2147483647, true) ∧ bs8Add 0 127 24 = (2130706432, false)
    ∧ (bs8Block 4 { invalid := true, sat := false, e := 0, q := [] } 0 baseT).2.testBit 0 = true := by decide +kernel

/-- A transfer of an operation: two rows of 4 bytes from MA 4096 to MA 64 (a page list at MA 512 for the page operations). -/
def movD (op : Nat) : List Byte :=
  match op with
  | 2 => dmaD [(0, 1, 2), (6, 2, 2), (16, 8, 64), (24, 4, 4), (48, 8, 0xA5)]
  | 5 => dmaD [(0, 1, 5), (6, 2, 1), (8, 8, 8192), (16, 8, 64), (24, 4, 32), (48, 8, 512), (56, 8, 2 ^ 24)]
  | 6 => dmaD [(0, 1, 6), (6, 2, 1), (8, 8, 64), (16, 8, 8192), (24, 4, 32), (48, 8, 512), (56, 8, 2 ^ 24)]
  | 7 => dmaD [(0, 1, 7), (1, 1, 4 * 8), (6, 2, 1), (8, 8, 4096), (24, 4, 4)]
  | _ => dmaD [(0, 1, 1), (6, 2, 2), (8, 8, 4096), (16, 8, 64), (24, 4, 4)]

theorem test_transfer_turns : [1, 2, 5, 6, 7].all (fun n => Claims.dmaTurn (dmaT (movD n)) q0 envT 0 (itemT (movD n)) n) = true := by
  decide +kernel
theorem test_transfers_clear :
    (dmaT (movD 1)).firstFail ((dmaT (movD 1)).copyMoves (movD 1)) envT 8 = none
    ∧ ((dmaT (movD 1)).copyMoves (movD 1)).map Move.dst = (List.range 8).map (fun k => .mem (64 + k))
    ∧ (dmaT (movD 2)).firstFail ((dmaT (movD 2)).fillMoves (movD 2)) envT 8 = none
    ∧ (dmaT (movD 5)).pageStop none (movD 5) = none ∧ (dmaT (movD 6)).pageStop none (movD 6) = none
    ∧ (dmaT (movD 5)).firstFail ((dmaT (movD 5)).pageMoves none (movD 5) 1) envT 32 = none
    ∧ (dmaT (movD 6)).firstFail ((dmaT (movD 6)).pageMoves none (movD 6) 1) envT 32 = none
    ∧ ((dmaT (movD 5)).pageMoves none (movD 5) 1).map Move.dst = (List.range 32).map (fun k => .mem (64 + k))
    ∧ ((dmaT (movD 6)).pageMoves none (movD 6) 1).map Move.dst = (List.range 32).map (fun k => .mem (8192 + k))
    ∧ (dmaT (movD 7)).firstFail (movesOf 4 ((dmaT (movD 7)).rowLoc (srcSide (movD 7))) fun _ => .nowhere) envT 4 = none := by decide +kernel
theorem test_moves_apart : [(dmaT (movD 1)).copyMoves (movD 1), (dmaT (movD 2)).fillMoves (movD 2), (dmaT (movD 5)).pageMoves none (movD 5) 1,
    (dmaT (movD 6)).pageMoves none (movD 6) 1].all (fun ms => decide (ms.map Move.dst).Nodup) = true := by decide +kernel

theorem test_copy : let t := after (.copy q0 envT) ((dmaT (movD 1)).putMem 4096 [1, 2, 3, 4, 5, 6, 7, 8, 9])
    t.memBytes 64 9 = [1, 2, 3, 4, 5, 6, 7, 8, 0] := by decide +kernel
theorem test_fill : (after (.fill q0 envT) (dmaT (movD 2))).memBytes 64 9 = [0xA5, 0xA5, 0xA5, 0xA5, 0xA5, 0xA5, 0xA5, 0xA5, 0] := by
  decide +kernel

/-- A queue record of q0: the ring at MA 0 of 2 entries, TAIL_SYNC object 3, the records at MA 1024. -/
def ctxQ : Ctx := { ctxT with desc := fieldsT 176 [(17, 1, 60), (28, 4, 0x10000), (137, 1, 1), (138, 2, 3), (144, 8, 1024), (153, 1, 1), (154, 2, 5)] }

/-- Context 0 runs with that queue; object 3 has the value 1. -/
def ringT : State := { baseT with ctxs := [(0, ctxQ)], current := some 0, sync := { baseT.sync with value := [(3, 1)] } }

theorem test_fetch_ready : let qr := ctxQ.dmaRec 0 0
    ringT.runningCtx = some 0 ∧ fld qr 9 1 ≠ 0 ∧ ringT.announced qr 0 = true ∧ ringT.filtered (fld qr 0 8) 64 = [] := by decide +kernel
theorem test_empty : let d := fun (op : Nat) => dmaD [(0, 1, op), (16, 8, 64), (24, 4, 4)]
    [1, 2].all (fun n => dEmpty (d n) && decide ((dmaT (d n)).heldStatus 0 (itemT (d n)) = 0)
      && (dmaT (d n)).mayStart 0 ((dmaT (d n)).dq 0) (itemT (d n))) = true := by decide +kernel
theorem test_fetch : ((after (.descriptorFetch q0 envT) ringT).dq 0).next = 1 := by decide +kernel

/-- q0 with a finished descriptor at its head. -/
def doneT : State := { ringT with dmaq := [(0, { next := 1, items := [{ itemT (movD 1) with record := some (List.replicate 32 7) }], written := 0 })] }

theorem test_completion_ready : let qr := ctxQ.dmaRec 0 0
    doneT.ringFree qr 0 = true ∧ doneT.filtered (fld qr 16 8) 32 = [] ∧ fld qr 24 1 % 8 = 0 ∧ doneT.writeStatus (fld qr 16 8) true = 0 := by
  decide +kernel
theorem test_completion : let t := after (.dmaCompletion q0) doneT
    (t.dq 0).items = [] ∧ t.memBytes 1024 32 = List.replicate 32 7 ∧ t.odg 0x2404 0x01 = 1 := by decide +kernel

/-- A waiting descriptor whose condition holds. -/
def waitD : List Byte := dmaD [(0, 1, 1), (2, 1, 16), (6, 2, 2), (8, 8, 4096), (16, 8, 64), (24, 4, 4), (36, 2, 3), (40, 4, 1)]

theorem test_queue_wait : let s := { ringT with dmaq := (dmaT waitD).dmaq }
    (s.dq 0).nextItem = some (0, itemT waitD) ∧ dWaitEn waitD = true ∧ s.mayStart 0 (s.dq 0) (itemT waitD) = true ∧ s.heldStatus 0 (itemT waitD) = 0 := by decide +kernel

/-- The module in RUN, powered. -/
def runT : State := { baseT with ctl := { baseT.ctl with mstate := .run } }

theorem test_stack_ready : runT.powered = true ∧ runT.odg 0x2400 0x03 7 ≠ 1 ∧ runT.odg 0x2400 0x02 7 < throttleAt (sInt 16 1520)
    ∧ runT.poisoned (7 * 2 ^ 36 + 32) = false ∧ runT.hbm.frames.contains (frameOf (7 * 2 ^ 36 + 32)) = false
    ∧ Sparse.get (fun _ => 0) runT.hbm.dqUsed (32 * 7 + 31) < 2 := by decide +kernel
/-- Stack 7 holds sector 1 dirty in its slice and sector 0 clean. -/
def sliceT : State := (runT.fillSlice (7 * 2 ^ 36) false).fillSlice (7 * 2 ^ 36 + 32) true

theorem test_slice_ready : sliceT.inSlice (7 * 2 ^ 36) = true ∧ sliceT.dirtySector (7 * 2 ^ 36) = false ∧ sliceT.inSlice (7 * 2 ^ 36 + 32) = true
    ∧ sliceT.dirtySector (7 * 2 ^ 36 + 32) = true ∧ sliceT.readStatus (7 * 2 ^ 36) = 0 ∧ sliceT.inSlice (7 * 2 ^ 36 + 64) = false := by decide +kernel
theorem test_scrub_parity : (after (.patrolScrub 7 1 .parity) sliceT).poisoned (7 * 2 ^ 36 + 32) = true
    ∧ (after (.patrolScrub 7 0 .parity) sliceT).inSlice (7 * 2 ^ 36) = false
    ∧ (after (.patrolScrub 7 0 .parity) sliceT).inSlice (7 * 2 ^ 36 + 32) = true := by decide +kernel
theorem test_stack_hot : (after (.stackTempReading 7 1600) runT).odg 0x2400 0x02 7 = 2 := by decide +kernel
theorem test_scrub_double : let t := after (.patrolScrub 7 1 .double) runT
    t.poisoned (7 * 2 ^ 36 + 63) = true ∧ t.odg 0x2401 0x02 7 = 1 := by decide +kernel

/-! ### Step plans and routines -/

/-- A plan entry (Table 10-2): slot, op, target, sync, argument; op 32 + n sets SIGNAL. -/
def entryT (slot op target sync arg : Nat) : PlanEntry :=
  ⟨BitVec.ofNat 64 (slot + op * 2 ^ 32 + target * 2 ^ 40 + sync * 2 ^ 48), BitVec.ofNat 64 arg⟩

/-- Context 0 runs a step whose plan is given. -/
def planT (es : List PlanEntry) : State :=
  { syncT baseT with ctxs := [(0, { ctxT with plan0 := es, slots := 5, base := 2, groupDir := [2048] })], current := some 0 }

/-- Every flow entry of Table 10-3 is due as the first of its plan, at its own slot. -/
theorem test_flow_turns : [0x08, 0x09, 0x0A, 0x0B, 0x0C, 0x0D, 0x0E, 0x0F, 0x10, 0x11, 0x12].all (fun op =>
    Claims.flowTurn (planT [entryT 3 op 0 3 10]) 0 0 (entryT 3 op 0 3 10) op) = true
    ∧ Claims.flowTurn (planT [entryT 4 0x12 0 3 10]) 0 0 (entryT 4 0x12 0 3 10) 0x12 = false := by decide +kernel
theorem test_flow_objects : ((planT []).sync.retired.contains (3 / 256) = false ∧ (planT []).sync.lost.contains 3 = false) ∧ (planT []).satisfied 3 (BitVec.ofNat 64 10) = true
    ∧ (planT []).satisfied 3 (BitVec.ofNat 64 11) = false ∧ (entryT 3 0x0B 0 3 10).regions.all ((planT []).regionIdle 0) = true := by
  decide +kernel
theorem test_calm : (planT []).host.filter = [] ∧ (menvT.replays, menvT.failAt, menvT.ecc) = ([], none, []) := by decide +kernel
theorem test_start_held : (entryT 3 0x0B 0 3 10).regions.all (fun r => (planT []).regionIdle 0 r && !(planT []).occupied 0 r && (planT []).shareOver (r / 16))
      = true
    ∧ (entryT 3 0x0B 1 3 10).regions.all (fun r => ({ planT [] with shares := [(0, 9)] }).shareOver (r / 16)) = false := by decide +kernel
theorem test_plan_waits : let s := after .wait (planT [entryT 3 8 0 3 11])
    s.runningCtx = some 0 ∧ (s.ctx 0).plan[0]? = some (entryT 3 8 0 3 11) ∧ s.satisfied 3 (BitVec.ofNat 64 11) = false
    ∧ ((after (.waitResume .plan) (s.setObj 3 0 (BitVec.ofNat 64 12))).ctx 0).runs = [] := by decide +kernel
theorem test_wait_done : ((after .wait (planT [entryT 3 8 0 3 10])).ctx 0).runs = [] := by decide +kernel
theorem test_wait_waits : ((after .wait (planT [entryT 3 8 0 3 11])).ctx 0).runs.map RunEntry.pos = [0] := by decide +kernel
theorem test_signal_entry : (after .signalObj (planT [entryT 3 9 0 3 7])).objVal 3 = 17 := by decide +kernel
theorem test_sync_set_barrier : let t := after .syncSet (planT [entryT 3 0x0A 1 3 (2 * 2 ^ 48 + 5 * 2 ^ 32 + 7)])
    t.objTyp 3 = 1 ∧ t.objVal 3 = BitVec.ofNat 64 (2 * 2 ^ 48 + 1 * 2 ^ 32 + 9) := by decide +kernel
theorem test_start : let t := after .start (planT [entryT 3 0x0B 0 3 64])
    (t.file 0 0).running = true ∧ (t.file 0 0).pc = 64 := by decide +kernel
theorem test_phase : Sparse.get (fun _ => 0) ((after .phase { planT [entryT 3 0x12 2 3 0] with time := { timeReset with fabric := 77 } }).ctx 0).phases 2
    = 77 := by decide +kernel
/-- A SKIPIF of nine entries on the outcome word at MA 4096, which is 1, and the outcome words that have been written. -/
def skipT (outs : List Nat) : State :=
  let s := (planT [entryT 3 0x11 0 0 (4096 + 2 * 2 ^ 40 + 9 * 2 ^ 48)]).putMem 4096 [1]
  { s with ctxs := [(0, { s.ctx 0 with outcomes := outs })] }

theorem test_skipif : ((after (.skipif menvT) (skipT [4096])).ctx 0).skipLeft = 9 ∧ ((after (.skipif menvT) (skipT [])).ctx 0).skipLeft = 0
    ∧ ((after (.skipif menvT) (skipT [])).ctx 0).runs.map RunEntry.pos = [0] := by decide +kernel

/-- A stash record of layer 4, micro-batch 1, full and checkpoint sizes. -/
def stashT (release : Bool) (full ckpt : Nat) : PlanEntry :=
  ⟨BitVec.ofNat 64 (4 + 2 ^ 16 + (if release then 2 ^ 32 else 0)), BitVec.ofNat 64 (full + ckpt * 2 ^ 32)⟩

/-- A step with a stash entry and a cellar of 10 lines, mark 6. -/
def stashS (release : Bool) (full ckpt : Nat) : State :=
  let x := { ctxT with plan0 := [entryT 3 0x10 0 0 0, stashT release full ckpt], slots := 5, base := 2
                       cellar := { cellarNone with cap := 10, mark := 6, frames := [1], runs := if release then [(4, 1, false, 0, 2)] else [] } }
  { baseT with ctxs := [(0, x)], current := some 0 }

theorem test_stash_cases : bit (stashT true 4 2).lo.toNat 32 = true ∧ bit (stashT false 4 2).lo.toNat 32 = false
    ∧ Claims.flowTurn (stashS false 4 2) 0 0 (entryT 3 0x10 0 0 0) 0x10 = true
    ∧ ((((stashS false 6 2).ctx 0).settleFlow.cellar.place 6 2).1).isSome = true
    ∧ ((((stashS false 7 11).ctx 0).settleFlow.cellar.place 7 11).1) = none := by decide +kernel
theorem test_stash_full : ((after (.stash menvT) (stashS false 6 2)).ctx 0).cellar.runs = [(4, 1, false, 0, 6)] := by decide +kernel
theorem test_stash_release : ((after (.stash menvT) (stashS true 6 2)).ctx 0).cellar.runs = [] := by decide +kernel
theorem test_stash_exhausted : ((after (.stash menvT) (stashS false 7 11)).ctx 0).exhausted = true := by decide +kernel

/-- A plan of one routine entry with its record at MA 65536, and a group of one member at MA 2048. -/
def routineT (op : Nat) (d : List Byte) : State :=
  ((planT [entryT 3 op 0 3 65536]).putMem 65536 d).putMem 2048 [1, 0, 1, 0, 0, 0, 7, 0]

/-- A ring record of one member: C 128, one head of 16 (R182-R184). -/
def ringD : List Byte := fieldsT 64 [(2, 1, 1), (3, 1, 1), (4, 3, 128), (48, 8, 0x200000)]

/-- A context whose box is one module along X. -/
def milkT (d : List Byte) : State :=
  let s := routineT 0x0C d
  { s with ctxs := [(0, { s.ctx 0 with desc := fieldsT 104 [(0, 2, 7), (17, 1, 60), (28, 4, 0x10000), (34, 2, 256), (99, 1, 1)] })] }

theorem test_milk_rows : (milkT ringD).readFail 65536 64 = none ∧ (milkT ringD).milkReject ((milkT ringD).ctx 0).settleFlow ringD = 0
    ∧ 0 < mN ringD ∧ 0 < mLast ringD ∧ (milkT ringD).memBytes 65536 64 = ringD
    ∧ (milkT ringD).milkReject ((milkT ringD).ctx 0).settleFlow (fieldsT 64 [(0, 1, 32)]) = St.CMD_RESERVED_NONZERO := by decide +kernel
theorem test_routine_held : (milkT ringD).flowHeld 0x0E 32 = false ∧ (milkT ringD).flowHeld 0x0F 112 = false := by decide +kernel
theorem test_clean_memory (k : Nat) (h : k < mRowsLen ringD) : (milkT ringD).writeStatus (mBuf ringD + k) true = 0 := by
  have b : mBuf ringD + mRowsLen ringD ≤ 2 ^ 36 ∧ (milkT ringD).odg 0x2400 0x03 0 ≠ 1 ∧ (milkT ringD).hbm.frames = []
      ∧ (milkT ringD).hbm.replayBad = none := by decide +kernel
  have c : (mBuf ringD + k) / 2 ^ 36 = 0 := Nat.div_eq_of_lt (by omega)
  simp only [State.writeStatus, State.stackRetired, State.replayFails, c]
  simp [b.2.1, b.2.2.1, b.2.2.2]
theorem test_milk_own : (match (milkT ringD).ownRows ringD with
    | .ok _ => true
    | .error _ => false) = true := by decide +kernel

/-- A gather record of one block of a tensor of one (R190). -/
def gatherD (form : Nat) : List Byte := fieldsT 64 [(0, 1, form), (8, 4, 32), (12, 4, 32), (16, 8, 0x10000), (24, 8, 0x40000), (36, 4, 1)]

theorem test_gather_cases : let s := routineT 0x0D (gatherD 1)
    s.readFail 65536 64 = none ∧ s.gatherReject 0 (gatherD 1) = 0 ∧ s.gatherReject 0 (gatherD 3) ≠ 0
    ∧ (s.group 0 0).map (fun r => r.g) = some 1 ∧ gForm (gatherD 1) < 2
    ∧ (∀ g, g < gBlocks (gatherD 1) → s.readFail (bits (fld (gatherD 1) 16 8) 38 0 + g * 2048) 2048 = none) := by decide +kernel

/-- A collective record of one bucket of one block, its table at MA 131072, regions 0 (Tables 13-2, 13-3). -/
def collD : List Byte := fieldsT 64 [(8, 4, 1), (16, 8, 131072), (32, 8, 1)]

/-- Its state: the bucket and receive queue 0 of the job, at MA 262144. -/
def collT (d : List Byte) : State :=
  ((((routineT 0x0E d).putMem 131072 (fieldsT 48 [(8, 4, 1), (16, 8, 0x100000), (24, 8, 0x200000)])).odp 0x2602 0x02 0 262144)).putMem 262144
    (fieldsT 32 [(0, 1, 1), (2, 2, 7), (16, 8, 2 ^ 24)])

/-- The same while a collective of every region is in progress. -/
def heldT (op : Nat) (d : List Byte) : State :=
  let s := routineT op d
  let t : CollTask := { ctx := 0, pos := 9, ma := 65536, bytes := fieldsT 64 [(32, 8, 2 ^ 64 - 1)], g := 4, p := 2, own := 0, members := [0, 1, 2, 3], phase := 0
                        attempt := 0, active := [], buckets := [], pair := (0, 0), level := 0, worst := 0 }
  { s with tasks := { s.tasks with colls := [t] } }

theorem test_coll_held : (heldT 0x0E collD).flowHeld 0x0E 32 = true ∧ (heldT 0x0F (fieldsT 128 [(112, 8, 1)])).flowHeld 0x0F 112 = true
    ∧ (collT collD).flowHeld 0x0E 32 = false := by decide +kernel
theorem test_record_unreadable : ({ routineT 0x0C ringD with hbm := { (routineT 0x0C ringD).hbm with poison := [(2048, true)] } }).readFail 65536 64 ≠ none := by
  decide +kernel
theorem test_coll_cases : (collT collD).readFail 65536 64 = none
    ∧ (collT collD).readFail (cTable collD) (48 * (cBuckets collD % 65537)) = none ∧ (collT collD).collReject 0 collD = 0
    ∧ (collT collD).collReject 0 (fieldsT 64 [(0, 1, 128)]) ≠ 0 := by decide +kernel

/-- An optimiser record of one block, regions 0 (Table 13-6). -/
def optD : List Byte := fieldsT 128 [(4, 4, 1), (8, 8, 0x100000), (24, 8, 0x200000), (32, 8, 0x300000), (104, 8, 0x400000), (112, 8, 1)]

theorem test_opt_cases : let s := routineT 0x0F optD
    s.readFail 65536 128 = none ∧ s.optReject optD = 0 ∧ oScaleMa optD = 0 ∧ (∀ k, k < oBlocks optD → s.optReadFail optD k = none)
    ∧ s.optReject (fieldsT 128 [(0, 1, 2), (4, 4, 1)]) ≠ 0 := by decide +kernel

/-- Attention: 16 enabled cores of region 0 run context 0's program; a ring of 2 calls in core 0's store, announced by object 3. -/
def attnT (d : List Byte) : State :=
  let x := { ctxT with desc := fieldsT 672 [(17, 1, 60), (28, 4, 0x40000), (649, 1, 1), (650, 2, 3), (656, 8, 1024), (665, 1, 1)] }
  let s := { syncT baseT with ctxs := [(0, x)], current := some 0
                              files := (List.range 16).map fun p => (coreAt 0 p * 64, fileT 0 0 0 0) }
  (s.odp 0x2300 0x01 0 16).putStoreRun 0 0 d

/-- A call of one row and one key with a head of 16 dimensions. -/
def callT (pass : Nat) : List Byte :=
  fieldsT 128 [(0, 1, pass), (1, 1, 1), (6, 2, 1), (8, 4, 1), (36, 4, 0x1000), (40, 4, 0x800), (44, 4, 0x900 * pass), (48, 4, 0xA00), (52, 4, 0x300000),
    (88, 4, 512), (92, 4, 1), (96, 1, 1)]

theorem test_attention_calls : [0, 1].all (fun p => let s := attnT (callT p)
    Claims.attnTurn s 0 0 && decide (s.aReject 0 (Claims.attnDesc s 0 0) = 0) && decide (aPass (Claims.attnDesc s 0 0) = p)
      && decide (s.filtered (aDkv (callT p)) (8 * aKeys (callT p) * aDim (callT p)) = [])) = true
    ∧ (attnT (fieldsT 128 [(1, 1, 1)])).aReject 0 (fieldsT 128 [(1, 1, 1)]) = St.CMD_BAD_FIELD
    ∧ Claims.attnTurn (attnT (fieldsT 128 [(1, 1, 1)])) 0 0 = true
    ∧ (attnT []).attnFree (((attnT []).ctx 0).attnRec 0) 0 = true
    ∧ (attnT []).attnFree (((attnT []).ctx 0).attnRec 0) 2 = false := by decide +kernel
/-- A call's state with its churn in a state. -/
def lightT (p : Nat) (st : ChState) : State := (attnT (callT p)).setChurn 0 { (attnT (callT p)).churn 0 with st := st }

theorem test_attention_waits : [0, 1].all (fun p => decide ((lightT p .ready).attnWait 0 (callT p) = none)
      && ((lightT p .dark).attnWait 0 (callT p)).isSome && ((lightT p .waking).attnWait 0 (callT p)).isSome) = true
    ∧ (attnT []).host.filter = [] ∧ Claims.attnTurn (attnT []) 1 0 = false := by decide +kernel
theorem test_attention_record : let s := attnT (fieldsT 128 [(1, 1, 1), (120, 2, 5)])
    let t := after (.attnForward 0 menvT) { s with attnq := [(0, { next := 2, items := [], written := 2 })] }
    (t.aq 0).next = 3 ∧ ((t.aq 0).items.map fun j => j.record.map fun r => (fld r 0 2, fld r 2 2)) = [some (5, St.CMD_BAD_FIELD)] := by
  decide +kernel

/-- A milk round in progress: two members, the first parcel here. -/
def roundT (flags got begun fr fs : Nat) : State :=
  let s := milkT ringD
  let d := fieldsT 64 [(0, 1, flags), (1, 1, 1), (2, 1, 1), (3, 1, 1), (4, 3, 128), (48, 8, 0x200000), (58, 2, 3)]
  let t : MilkTask := { ctx := 0, pos := 0, desc := d, started := begun, have_ := got, rows := [0], sects := 2, rowsWait := [], sectWait := [], fwdRows := fr, fwdSect := fs }
  { s with tasks := { s.tasks with milks := [t] } }

theorem test_round_cases : (roundT 0 1 0 0 0).milksNow.map (fun t => (decide (t.started < mN t.desc), decide (t.started < t.have_),
      decide (((roundT 0 1 0 0 0).ctx 0).base + mFirst t.desc + t.started * mRound t.desc ≤ ((roundT 0 1 0 0 0).ctx 0).slots))) = [(true, true, true)]
    ∧ (roundT 0 1 1 0 0).milksNow.map (fun t => (mMulti t.desc, decide (t.fwdRows < t.started), decide (t.fwdRows + 1 < mN t.desc)))
      = [(false, true, true)]
    ∧ (roundT 1 1 1 1 0).milksNow.map (fun t => (mBack t.desc, decide (mN t.desc ≤ t.fwdRows + 1), decide (t.fwdSect < t.started),
        (roundT 1 1 1 1 0).satisfied (mFreeSync t.desc) 1)) = [(true, true, true, true)] := by decide +kernel
theorem test_round_own : (roundT 2 1 0 0 0).milksNow.map (fun t => (mMulti t.desc, decide (1 < mN t.desc), decide (mLast t.desc ≤ t.have_),
      t.rows.contains 1)) = [(true, true, false, false)]
    ∧ (roundT 0 1 1 0 0).readFail (mBufAt ringD 0) 64 = none ∧ (roundT 0 1 1 0 0).milksNow[1]? = none := by decide +kernel
theorem test_round_starts : (after (.milkRoundStart 0 menvT) (roundT 0 1 0 0 0)).milksNow.map (fun t => t.started) = [1] := by decide +kernel

/-- A gather of one tile whose 16 segments have arrived. -/
def tilesT (count : Nat) : State :=
  let d := fieldsT 64 [(0, 1, 2), (1, 1, 2), (8, 4, 128), (12, 4, 128), (36, 4, count)]
  let s := routineT 0x0D (gatherD 1)
  { s with tasks := { s.tasks with gathers := [{ ctx := 0, pos := 0, bytes := d, segs := (List.range 16).map fun g => (g, []), tiles := [] }] } }

theorem test_tile_cases : (tilesT 1).gathersNow.map (fun t => (gForm t.bytes, (List.range 16).all fun n =>
    (Sparse.find t.segs (tileBlock t.bytes 0 (n / 4) (n % 4))).isSome, decide (gCount t.bytes ≤ t.tiles.length + 1))) = [(2, true, true)]
    ∧ (tilesT 2).gathersNow.map (fun t => decide (gCount t.bytes ≤ t.tiles.length + 1)) = [false] := by decide +kernel

/-- A step that waits at its second entry, behind a reduction that has completed, with its optimiser entry and a prefetching gather behind it. -/
def waitT (first : Nat) : State :=
  let s := (((routineT 0x0F optD).putMem 4096 (gatherD 9)).putMem 8192 collD).putMem 131072 (fieldsT 48 [(24, 8, 0x300000)])
  let x := { s.ctx 0 with plan0 := [entryT 0 0x0E 0 0 8192, entryT 0 8 0 3 99, entryT 9 0x0F 0 0 65536, entryT 9 0x0D 0 0 4096], flowPos := 2
                          runs := [⟨1, 2⟩] }
  { (s.odp 0x2902 0x01 0 first) with ctxs := [(0, x)] }

theorem test_wait_work : (waitT 0).runningCtx = some 0
    ∧ (waitT 0).waitWork 0 = some (2, entryT 9 0x0F 0 0 65536) ∧ (waitT 1).waitWork 0 = some (3, entryT 9 0x0D 0 0 4096) := by decide +kernel

/-- A collective of 4 members in trays of 2, one bucket of one block, in a phase and at a level. -/
def hopT (phase level : Nat) : State :=
  let b : BucketSt := { entry := fieldsT 48 [(8, 4, 1)], attempt := 0, blocks := [(0, { stage := 0, seg := List.replicate 1088 0 })], sat := false
                        bad := false, need := none, reran := 0, failed := false }
  let t : CollTask := { ctx := 0, pos := 0, ma := 65536, bytes := collD, g := 4, p := 2, own := 0, members := [0, 1, 2, 3], phase := phase, attempt := 0
                        active := [0], buckets := [b], pair := (0, 0), level := level, worst := 0 }
  let s := collT collD
  { s with tasks := { s.tasks with colls := [t] } }

theorem test_hop_cases : let seg := List.replicate 1088 (0 : Byte)
    (hopT 0 0).collsNow.map (fun t => (t.phase, t.active.contains 0, (List.range 32).all (blockOk seg (expAt t.bytes (fieldsT 48 [(8, 4, 1)]) t.p 0 0))))
      = [(0, true, true)]
    ∧ (hopT 0 0).collsNow.map (fun t => (List.range 32).all (blockOk (List.replicate 1088 1) (expAt t.bytes (fieldsT 48 [(8, 4, 1)]) t.p 0 0))) = [false]
    ∧ (hopT 1 0).collsNow.map (fun t => (t.phase, decide (t.level + 1 < Nat.log2 t.p + (t.g / t.p - 1)))) = [(1, true)] := by decide +kernel
theorem test_hop_bad : (after (.reductionHop 0 (.segment 0 0 (List.replicate 1088 1)) menvT) (hopT 0 0)).odg 0x2702 0x05 = 1 := by decide +kernel
theorem test_hop_block : (hopBlock ⟨List.replicate 32 0, -128, false, true⟩ ⟨List.replicate 32 1, 0, false, false⟩ 0 []).1.invalid = true := by
  decide +kernel

/-- Context 0 runs a step whose timed entries are given, 5 context slots on. -/
def timedT (es : List PlanEntry) : State :=
  let s := planT es
  { s with time := { s.time with fabric := 5120, state := .locked, everLock := true, slotDone := 10 } }

theorem test_timed_turns : [1, 2, 3, 4].all (fun op => Claims.timedTurn (timedT [entryT 3 op 0 0 1]) 0 0 0 (entryT 3 op 0 0 1) op) = true
    ∧ Claims.timedTurn (timedT [entryT 4 1 0 0 1]) 0 0 0 (entryT 4 1 0 0 1) 1 = false := by decide +kernel
theorem test_epoch_entry : let t := after .epoch (timedT [entryT 3 2 0 0 1])
    t.odg 0x2600 0x04 = 1 ∧ (t.ctx 0).timedPos = 1 := by decide +kernel
theorem test_deadline_vote : let t := after .deadline (timedT [entryT 3 3 0 0 0])
    (t.ctx 0).vote = some ⟨true, false, false⟩ ∧ (t.ctx 0).deadlineT = 5120 ∧ (timedT [entryT 3 3 0 0 0]).missing 0 = 0 := by decide +kernel
theorem test_deadline_missing : let s := { timedT [entryT 3 3 0 0 0] with tasks := { milks := [], gathers := [], colls := [] } }
    let m : MilkTask := { ctx := 0, pos := 0, desc := ringD, started := 0, have_ := 0, rows := [], sects := 0, fwdRows := 0, fwdSect := 0
                          rowsWait := [], sectWait := [] }
    let u := { s with tasks := { s.tasks with milks := [m] } }
    u.missing 0 = 1 ∧ ((after .deadline u).ctx 0).vote = some ⟨false, false, false⟩ := by decide +kernel

/-- A step past its deadline entry with its votes combined (JOB_DIAMETER 3). -/
def voteT (v : Vote) (repeats : Nat) : State :=
  let s := timedT [entryT 0 3 0 0 0, entryT 9 4 0 0 0]
  { s with ctxs := [(0, { s.ctx 0 with slots := 6, combined := some v, vote := some v, repeats := repeats })] }

theorem test_verdict_cases : let s := voteT ⟨true, false, false⟩ 0
    let x := s.ctx 0
    s.runningCtx = some 0 ∧ x.only 3 = some (0, 0, entryT 0 3 0 0 0) ∧ x.verdict = none ∧ x.base + 0 + x.diameter + 1 ≤ x.slots := by decide +kernel
theorem test_commit : ((after (.verdict menvT) (voteT ⟨true, false, false⟩ 0)).ctx 0).verdict = some .commit := by decide +kernel
theorem test_repeat_limit : ((after (.verdict menvT) (voteT ⟨false, false, false⟩ 1)).ctx 0).verdict = some .repeated
    ∧ ((after (.verdict menvT) (voteT ⟨false, false, false⟩ 2)).ctx 0).verdict = some .stop := by decide +kernel
theorem test_stop_vote : ((after (.verdict menvT) (voteT ⟨true, false, true⟩ 0)).ctx 0).st = .stopped := by decide +kernel

/-- A step at its end with a verdict. -/
def endT (v : Verdict) (tag : Option Nat) (more : List PlanEntry) : State :=
  let s := timedT ([entryT 3 4 0 0 0] ++ more)
  { s with ctxs := [(0, { s.ctx 0 with verdict := some v, stopTag := tag }), (1, { ctxT with st := .loaded })] }

theorem test_step_end_cases : let e := entryT 3 4 0 0 0
    Claims.timedTurn (endT .commit none []) 0 0 0 e 4 = true ∧ ((endT .commit none []).ctx 0).only 5 = none
    ∧ ((endT .commit none [entryT 3 5 0 0 1]).ctx 0).only 5 = some (1, 1, entryT 3 5 0 0 1)
    ∧ (endT .commit none [entryT 3 5 0 0 1]).resident 1 = true ∧ (endT .commit none []).time.state ≠ .lost := by decide +kernel
theorem test_step_end : let t := after (.stepEnd menvT) (endT .commit none [])
    (t.ctx 0).step = 1 ∧ (t.ctx 0).base = 5 ∧ (t.ctx 0).verdict = none := by decide +kernel
theorem test_step_end_repeat : let t := after (.stepEnd menvT) (endT .repeated none [])
    (t.ctx 0).step = 0 ∧ (t.ctx 0).repeats = 1 := by decide +kernel
theorem test_step_end_stop : ((after (.stepEnd menvT) (endT .commit (some 9) [])).ctx 0).st = .stopped := by decide +kernel
theorem test_switch : let s := { endT .commit none [entryT 3 5 0 0 1] with
      ctxs := [(0, { (endT .commit none [entryT 3 5 0 0 1]).ctx 0 with stepOn := false, timedPos := 1 }), (1, { ctxT with st := .loaded })] }
    (s.ctx 0).timedNext = some (1, 1, entryT 3 5 0 0 1) ∧ (after .switch s).switchTo = some (1, 10) := by decide +kernel
theorem test_undo : let s := planT []
    let t := after (.undoRestore menvT) { s with ctxs := [(0, { s.ctx 0 with restoring := true, verdict := some .stop })] }
    (t.ctx 0).st = .stopped ∧ (t.ctx 0).restoring = false := by decide +kernel

/-- A step with an epoch selected for slot 11. -/
def slotT : State := { timedT [] with rt := { rtReset with epochReq := some (1, 11) } }

theorem test_slot_cases : slotT.time.everLock = true ∧ slotT.runningCtx = some 0 ∧ slotT.opt.planReq = none := by decide +kernel
/-- The state after its next boundary. -/
def slotU : State := after (.slotBoundary menvT) slotT

theorem test_slot_boundary : slotU.time.slotDone = 11 ∧ slotU.time.fabric = 5632 ∧ slotU.odg 0x2600 0x04 = 1 ∧ (slotU.ctx 0).slots = 6 := by
  decide +kernel

/-- A module in a job of two along X, port 5 toward the other. -/
def memberS : State :=
  let s := voteT ⟨true, false, false⟩ 0
  let d := fieldsT 104 [(0, 2, 7), (17, 1, 60), (28, 4, 0x10000), (34, 2, 256), (99, 1, 2), (100, 1, 1), (101, 1, 1)]
  (((s.odp 0x2600 1 4 2).odp 0x2600 1 5 1).odp 0x2600 1 6 1).odp 0x2600 1 8 32 |> fun s =>
    (s.odp 0x2600 0x03 0 1).setCtx 0 { s.ctx 0 with desc := d }

theorem test_beacon_member : memberS.memberPort 0 5 = true ∧ memberS.runningCtx = some 0 ∧ (memberS.ctx 0).verdict = none := by decide +kernel
theorem test_beacon_bad_job : ((after (.beaconReceive 5 (BitVec.ofNat 64 (9 + 2 ^ 34 + 2 ^ 35))) memberS).ctx 0).combined
    = some ⟨false, true, false⟩ := by decide +kernel

/-! ### Contexts and fabric time -/

theorem test_switch_cases : let s := { timedT [] with ctxs := [(0, ctxT), (1, { ctxT with st := .loaded })], switchTo := some (1, 10) }
    s.resident 1 = true ∧ s.switchTo = some (1, 10) ∧ s.time.everLock = true ∧ 10 ≤ s.time.slotDone ∧ s.runningCtx = some 0 := by decide +kernel
theorem test_switch_requests : let s := { timedT [] with ctxs := [(0, ctxT), (1, { ctxT with st := .loaded })] }
    s.slot = 10 ∧ (after (.switchRequest (BitVec.ofNat 64 (1 + 12 * 256))) s).switchTo = some (1, 12)
    ∧ (after (.switchRequest (BitVec.ofNat 64 (1 + 11 * 256))) s).switchTo = none
    ∧ (after (.switchRequest (BitVec.ofNat 64 (2 + 12 * 256))) s).switchTo = none
    ∧ (after (.switchRequest (BitVec.ofNat 64 (65 + 12 * 256))) s).switchTo = none := by decide +kernel
theorem test_first_run : let s := { timedT [] with ctxs := [(0, { ctxT with st := .started, startSlot := 10, stepOn := false })], current := none
                                                   ctl := { ctlReset with mstate := .run } }
    (Sparse.keys s.ctxs).find? (fun c => decide ((s.ctx c).st = .started)) = some 0 ∧ s.time.everLock = true
    ∧ (s.ctx 0).startSlot ≤ s.time.slotDone ∧ s.ctl.mstate = .run ∧ s.switchBusy = 0 := by decide +kernel
theorem test_object_write : (after (.syncObjectWrite 3 2 6) (planT [])).objVal 3 = 6 ∧ (after (.syncObjectWrite 3 3 6) (planT [])).objVal 3 = 10
    ∧ (after (.syncObjectWrite 3 1 6) (planT [])).objVal 3 = 10 := by decide +kernel

/-- Port 5 lit with one lane in each direction, and the parent's port of fabric time. -/
def litT : State :=
  let s := runT
  let s := ((s.odp 0x2510 1 64 0x85).odp 0x2510 1 448 0x85).odp (portIdx 5 0) 0x01 0 1
  ((s.odp 0x2501 0x01 0 2).odp 0x2501 0x02 0 2).odp 0x2110 0x04 0 5

theorem test_port_term : litT.portState 5 = 1 ∧ litT.portTerm 5 = true ∧ (5 = litT.timePorts.1 ∧ litT.odg 0x2110 0x03 ≠ 1)
    ∧ litT.time.everLock = false := by decide +kernel
theorem test_first_lock : let t := after (.controlBlockReceive 5 { ctl0 with timeValid := true, parentTime := 5130 }) litT
    t.time.state = .locked ∧ t.time.fabric = 5130 ∧ t.time.slotDone = 10 := by decide +kernel

/-- The same with the link UP after n bad control blocks in succession. -/
def linkT (n : Nat) : State := litT.setLink 5 { linkNone with up := true, badRun := n }

theorem test_bad_blocks : ((after (.controlBlockReceive 5 { ctl0 with bad := true }) (linkT 14)).link 5).up = true
    ∧ ((after (.controlBlockReceive 5 { ctl0 with bad := true }) (linkT 14)).link 5).badRun = 15
    ∧ ((after (.controlBlockReceive 5 { ctl0 with bad := true }) (linkT 15)).link 5).up = false := by decide +kernel
theorem test_parent_loss : let s := { litT with time := { timeReset with state := .locked, everLock := true } }
    let u := s.odp 0x2110 0x05 0 5
    (u.timePorts.2 < 48 ∧ u.portState u.timePorts.2 = 1) ∧ ¬ (s.timePorts.2 < 48)
    ∧ (after .parentLoss s).time.state = .holdover ∧ (after .parentLoss u).time.state = .locked := by decide +kernel
theorem test_holdover_end : let s := { runT with time := { timeReset with state := .holdover, heldSince := 5 } }
    (after .holdoverTimeout { s with ctl := { s.ctl with clock := 10000005 } }).time.state = .lost
    ∧ (after .holdoverTimeout { s with ctl := { s.ctl with clock := 10000004 } }).time.state = .holdover := by decide +kernel

/-! ### Fabric optics -/

theorem test_fld_zeros (n o k : Nat) : fld (List.replicate n 0) o k = 0 := by
  have h : ∀ m, leNat (List.replicate m (0#8)) = 0 := by
    intro m
    induction m with
    | zero => rfl
    | succ m ih => simp [List.replicate_succ, leNat, ih]
  simp [fld, h]

theorem test_plan_zeros_ok (z : List Byte) (h : ∀ o k, fld z o k = 0) : runT.planBad z = false := by
  unfold State.planBad
  simp only [h]
  decide +kernel

theorem test_plan_zeros : runT.lanePlanStatus 1 (List.replicate 2368 0) = 0 := by
  have hb := test_plan_zeros_ok _ (test_fld_zeros 2368)
  have hc : runT.planNames 1 (fun a => a % 64) 1 = false := by decide +kernel
  unfold State.lanePlanStatus
  rw [hb, hc, test_fld_zeros]
  decide +kernel
theorem test_plan_refused : runT.lanePlanStatus 1 [] = St.OD_SIZE_MISMATCH := by decide +kernel
theorem test_plan_select : let s := { runT with time := { timeReset with fabric := 5120, everLock := true } }
    s.slot = 10 ∧ (after (.planSelectRequest (BitVec.ofNat 64 (3 + 12 * 256))) s).opt.planReq = some (3, 12)
    ∧ (after (.planSelectRequest (BitVec.ofNat 64 (3 + 11 * 256))) s).opt.planReq = none
    ∧ (after (.planSelectRequest 64) runT).planNow = 0 ∧ (after (.planSelectRequest 0) (timedT [])).opt.planReq = none := by decide +kernel

/-- Plan 1 is in effect since now and moves channel 0's lanes of port 5. -/
def pathT : State := { (litT.odp 0x2500 0x01 0 1) with opt := { litT.opt with oldPlan := 0, changeAt := some 0 } }

theorem test_path_cases : pathT.source 0 5 0 = some 0 ∧ pathT.source 1 5 0 = none ∧ pathT.sink 0 5 0 = some 0 ∧ pathT.sink 1 5 0 = none
    ∧ pathT.source 0 5 1 = pathT.source 1 5 1 ∧ pathT.sink 0 5 1 = pathT.sink 1 5 1 := by decide +kernel
theorem test_path_block : (after (.pathSwitch true 5 0 false) pathT).opt.blocked.contains (1536 + 160) = true
    ∧ (after (.pathSwitch false 5 0 false) pathT).opt.blocked.contains 160 = true
    ∧ (after (.pathSwitch true 5 1 false) pathT).opt.blocked = [] := by decide +kernel
theorem test_path_early : (after (.pathSwitch true 5 0 false) { pathT with opt := { pathT.opt with changeAt := some 9 } }).opt.blocked = [] := by
  decide +kernel

theorem test_lane_cases : litT.laneState (false, 0) = 3 ∧ litT.laneState (true, 0) = 3 ∧ litT.opt.refused.contains 0 = false
    ∧ litT.relockReady (0 / 96) = true ∧ litT.spareOf 0 0 = none ∧ litT.spareOf 0 0xFE = some 0 := by decide +kernel
theorem test_ring_cases : litT.ringChannel (false, 5, 3) = 3 ∧ litT.ringChannel (true, 5, 0) = 0 ∧ litT.powered = true
    ∧ litT.opt.searching.contains (ringKey false 5 3) = false ∧ litT.opt.ringDown.contains (ringKey true 5 0) = false
    ∧ litT.lanePort litT.planNow (false, 0) = some 5 ∧ litT.channelRing true 5 0 = some 0 ∧ litT.relockReady (homeDie 5) = true := by decide +kernel

/-- The lane awaits a preamble since slot 0. -/
def awaitT : State := { litT with opt := { litT.opt with await := [(0, 0)] } }

theorem test_preamble_wrong : let t := after (.preambleCheck 0 1 0) awaitT
    t.opt.refused = [0] ∧ t.opt.await = [] ∧ t.odg 0x2502 0x05 = 1 := by decide +kernel
theorem test_preamble_good : let t := after (.preambleCheck 0 0 0) awaitT
    t.opt.refused = [] ∧ t.opt.await = [] := by decide +kernel
theorem test_preamble_late : let u := { awaitT with time := { timeReset with fabric := 5120 } }
    ¬ (awaitT.preambleLate 0 0 ≤ 1000 * awaitT.time.fabric) ∧ u.preambleLate 0 0 ≤ 1000 * u.time.fabric
    ∧ (after (.preambleTimeout 0) u).opt.refused = [0] := by decide +kernel
theorem test_ring_loss : let t := after (.laneLockLoss (.dropRing 5 0)) litT
    t.laneState (false, 0) = 4 ∧ t.laneOwn (false, 0) = 2 ∧ t.portTerm 5 = false
    ∧ (after (.laneRelockAttemptEnd (.dropRing 5 0) true) t).laneState (false, 0) = 3 := by decide +kernel
theorem test_ring_retired : let t : State := after (.laneRelockAttemptEnd (.dropRing 5 0) false) ({ litT with opt := { litT.opt with ringDown := [ringKey true 5 0], attempts := [(768 + ringKey true 5 0, 2)] } })
    State.ringChannel t (true, 5, 0) = 0xFF ∧ t.opt.ringDown = [] := by decide +kernel
theorem test_lane_loss : let t := after (.laneLockLoss (.lane ⟨true, 0⟩)) litT
    t.laneOwn (true, 0) = 4 ∧ t.odg 0x2502 0x02 = 1 ∧ t.portTerm 5 = false := by decide +kernel
theorem test_relock_third : let t := after (.laneRelockAttemptEnd (.lane ⟨true, 0⟩) false) ((litT.odp 0x2501 0x01 0 4).setTries 0 2)
    t.laneOwn (true, 0) = 4 ∧ t.tries 0 = 3 := by decide +kernel
theorem test_relock_retired : (after (.laneRelockAttemptEnd (.lane ⟨false, 0⟩) false) ((litT.odp 0x2501 0x02 0 4).setTries 384 2)).laneOwn (false, 0)
    = 5 := by decide +kernel
theorem test_relock_hot : let s := { (litT.odp 0x2501 0x02 0 4) with ctl := { litT.ctl with slopeBad := [(0, 1)] } }
    s.relockReady 0 = false ∧ (after (.laneRelockAttemptEnd (.lane ⟨false, 0⟩) true) s).odg 0x2006 0x08 = 1 := by decide +kernel
theorem test_spare : let t := after (.spareSubstitution ⟨true, 0⟩) ((litT.odp 0x2501 0x01 0 4).setTries 0 3)
    t.odg 0x2501 0x03 0 = 0 ∧ t.laneState (true, 0) = 3 := by decide +kernel
theorem test_spares_gone : let s := (List.range 8).foldl (fun s j => s.odp 0x2501 0x03 j (90 + j)) litT
    s.spareOf 0 0xFE = none ∧ (after (.spareSubstitution ⟨true, 0⟩) s).laneOwn (true, 0) = 5 := by decide +kernel
theorem test_search : let s := litT.odp 0x2501 0x01 0 1
    (after (.laneSearchEnd (.lane ⟨true, 0⟩) true) s).laneOwn (true, 0) = 2 ∧ (after (.laneSearchEnd (.lane ⟨true, 0⟩) false) s).laneOwn (true, 0) = 1
    := by decide +kernel
theorem test_ring_lock : let t := after (.wrongLock (.addRing 5 3) 4) litT
    t.opt.searching.contains (ringKey false 5 3) = true ∧ t.odg 0x2502 0x01 = 1 := by decide +kernel

theorem test_port_open : let t := after (.portOpen 5 0) (linkT 0)
    t.portState 5 = 2 ∧ (t.link 5).up = false ∧ t.odg 0x2502 0x04 = 1 := by decide +kernel

/-- Port 5 SHUT, two probes received and two seen, agreed on slot 0. -/
def shutT (got seen latest : Nat) : State :=
  let s := litT.odp (portIdx 5 0) 0x01 0 2
  { s with opt := { s.opt with probes := [(5, { probeNone with got := got, seen := seen, latest := latest })] } }

theorem test_relight : (after (.portRelight 5) (shutT 2 2 0)).portState 5 = 1 ∧ (after (.portRelight 5) (shutT 1 2 0)).portState 5 = 2
    ∧ (after (.portRelight 5) (shutT 2 2 1)).portState 5 = 2 := by decide +kernel
theorem test_probe : (shutT 0 0 0).probeLane 5 = some 0 ∧ ((after (.probeSend 5) (shutT 0 0 0)).probe 5).proposed = 4096
    ∧ ((after (.probeReceive 5 9000 1) (shutT 0 0 0)).probe 5).latest = 9000  ∧ runT.probeLane 5 = none := by decide +kernel

/-! ### Routing -/

/-- A routing table of a module alone (Table 12-1). -/
def tableT : List Byte := fieldsT 256 [(4, 1, 1), (5, 1, 1), (6, 1, 1)]

theorem test_table_write : runT.routeTableStatus 1 tableT = 0 ∧ runT.routeTableStatus 0 tableT = St.ROUTE_TABLE_IN_USE
    ∧ runT.routeTableStatus 1 [] = St.OD_SIZE_MISMATCH := by decide +kernel
theorem test_table_taken : let t := after (.routeTableWrite true tableT) runT
    t.rtByte 1 4 = 1 ∧ bit (t.odg 0x2600 0x03) 1 = true := by decide +kernel
theorem test_epoch_select : let s := { runT with time := { timeReset with fabric := 5120, everLock := true } }
    (after (.epochSelectRequest (BitVec.ofNat 64 (1 + 12 * 256))) s).rt.epochReq = some (1, 12)
    ∧ (after (.epochSelectRequest (BitVec.ofNat 64 (1 + 11 * 256))) s).rt.epochReq = none ∧ (after (.epochSelectRequest 2) runT).epochNow = 0
    ∧ (after (.epochSelectRequest 1) runT).epochNow = 1 := by decide +kernel

/-- A module in a row of two, a window with one open message toward the other, and its packet waiting. -/
def sendT (size : Nat) : State :=
  let s := (((runT.odp 0x2600 1 4 2).odp 0x2600 1 5 1).odp 0x2600 1 6 1).odp 0x2600 0x03 0 1
  let p : Packet := { pkt0 with payLen := 64, msgLen := 64, payload := List.replicate 64 1 }
  { s with rt := { rtReset with inject := [{ pkt := p, dma := none, owner := none, job := 7 }]
                                wins := [(winKey 1 0, { out := 64, size := size, nextId := 10, msgs := [{ id := 8, left := 64, job := 7, owner := none }] })] } }

theorem test_window_reset : let s := sendT 128
    0 < s.axisLen s.epochNow 0 ∧ s.axisLen s.epochNow 0 ≤ 64 ∧ 0 < s.axisLen s.epochNow 1 ∧ s.axisLen s.epochNow 1 ≤ 64
    ∧ winKey (s.unlinear s.epochNow (1 % 2 ^ 15)) (bits 1 16 15) = winKey 1 0
    ∧ ((after (.windowReset 1) s).win (winKey 1 0)).msgs = [] ∧ (after (.windowReset 1) s).odg 0x2603 0x04 = 1 := by decide +kernel
theorem test_window_takes : (sendT 128).winTakes (winKey 1 0) 64 9 = true ∧ (sendT 127).winTakes (winKey 1 0) 64 9 = false := by decide +kernel
theorem test_inject : let t := after (.packetInject 0) (sendT 128)
    t.rt.inject = [] ∧ (t.win (winKey 1 0)).out = 128 ∧ (after (.packetInject 0) (sendT 127)).rt.inject.length = 1 := by decide +kernel
theorem test_congestion : let s := { runT with time := { timeReset with fabric := 4096 * 512 } }
    s.rt.congFrom + s.rt.congLen ≤ s.slot ∧ ¬ (runT.rt.congFrom + runT.rt.congLen ≤ runT.slot)
    ∧ (after .congestionMapLatch s).rt.congFrom = 4096 := by decide +kernel

/-- A flit on channel 0, transmitted first in slot 3 at position 7. -/
def flitT (bytes : List Byte) (bad : Bool) : RxFlit := ⟨bytes, 0, bad, 3, 7⟩

/-- A packet of 64 bytes of payload, two flits, for this module. -/
def pktT : Packet := { pkt0 with dx := 0, payLen := 64, msgLen := 64, payload := List.replicate 64 1 }

/-- The same link with the packet's first flit in. -/
def halfT : State := after (.packetReceive 5 [flitT (flitBytes pktT 0) false]) (linkT 0)

theorem test_receive_cases : (linkT 0).laneTakes 5 0 = true ∧ (linkT 0).laneTakes 5 1 = false ∧ ((linkT 0).link 5).nack = none
    ∧ badHeader (flitBytes pktT 0) = false ∧ badHeader (List.replicate 64 0xFF) = true ∧ pktFlits (readHeader (flitBytes pktT 0)) = 2
    ∧ markerOf (markerFlit 3 7) = some (7, 3) ∧ markerOf (flitBytes pktT 0) = none ∧ flitBytes pktT 0 ≠ idleFlit
    ∧ ((halfT.link 5).cur.map fun c => (c.vc, c.left)) = some (0, 1) := by decide +kernel
theorem test_header_bytes : (headerBytes { pktT with tc := 3, esc := true, hops := 9, job := 0x1234, dx := 5 }).take 6 = [0x78, 9, 0x34, 0x12, 5, 0] := by decide +kernel
theorem test_receive_bad : let t := after (.packetReceive 5 [flitT idleFlit true]) (linkT 0)
    (t.link 5).nack = some (7, 3) ∧ t.odg 0x2603 0x09 = 1
    ∧ ((after (.packetReceive 5 [flitT (markerFlit 3 7) false]) t).link 5).nack = none
    ∧ ((after (.packetReceive 5 [flitT idleFlit false]) t).link 5).nack = some (7, 3)
    ∧ ((after (.packetReceive 5 [flitT (markerFlit 3 7) false, flitT idleFlit true]) t).link 5).up = false := by decide +kernel
theorem test_receive_good : let t := after (.packetReceive 5 [flitT (flitBytes pktT 1) false]) halfT
    ((t.link 5).vc 0).accepted = 2 ∧ (t.link 5).cur = none := by decide +kernel
theorem test_truncation : let s := { halfT with time := { halfT.time with fabric := 2049 } }
    (after (.truncation 5 0) s).odg 0x2603 0x0A = 1 ∧ (after (.truncation 5 0) halfT).odg 0x2603 0x0A = 0 ∧ (after (.truncation 5 1) s).odg 0x2603 0x0A = 0 := by decide +kernel

/-- A packet of the module's own that has waited since slot 0. -/
def lateT (p : Packet) : State :=
  let h : Held := { id := 0, port := 48, vc := 0, pkt := p, come := 1, since := 0, copied := false, via := none, sent := 0 }
  { runT with rt := { rtReset with held := [h], seq := 1 }, time := { timeReset with fabric := 64 * 512 } }

theorem test_route_timeout : ((lateT pkt0).usablePorts pkt0).isEmpty = true ∧ (after (.routeTimeout 48 0) (lateT pkt0)).rt.held = []
    ∧ (after (.routeTimeout 48 0) (lateT pkt0)).odg 0x2603 0x08 = 1 ∧ ((after (.routeTimeout 48 0) (lateT pkt0)).rt.returns.map fun p => p.lost) = [true] := by
  decide +kernel

/-- A window return for message 8 of the window toward the other module. -/
def retT : Packet := { pkt0 with typ := 2, msgId := 8, msgLen := 64, sx := 1, lost := true }

theorem test_return : ((after (.returnReceive retT) (sendT 128)).win (winKey 1 0)).out = 0 ∧ (after (.returnReceive retT) (sendT 128)).odg 0x2603 0x04 = 1
    ∧ (after (.returnReceive { retT with msgId := 7 }) (sendT 128)).odg 0x2603 0x07 = 1 := by decide +kernel
theorem test_return_inject : let s := { sendT 128 with rt := { (sendT 128).rt with returns := [{ retT with dx := 1 }] } }
    s.inLen (b2n (bit s.epochNow 0)) (pktDest { retT with dx := 1 }) = true ∧ pktDest { retT with dx := 1 } ≠ s.ownAddr 0
    ∧ (after .returnInject s).rt.returns = [] := by decide +kernel
theorem test_repair : let s := runT
    let l := { linkNone with up := true, repairOwn := some (2, 0, true) }
    let m := { linkNone with up := true, repairPeer := some (2, 0) }
    ((after (.repairBoundary 5) (s.setLink 5 l)).link 5).repairOwn = none ∧ ((after (.repairBoundary 5) (s.setLink 5 m)).link 5).repairPeer = none
    ∧ ((after (.repairBoundary 5) (s.setLink 5 { l with repairOwn := some (2, 0, false) })).link 5).repairOwn = some (2, 16, false) := by decide +kernel
theorem test_repair_more : let l := { linkNone with up := true, repairOwn := some (2, 0, true), repairMore := [4] }
    ((after (.repairBoundary 5) (runT.setLink 5 l)).link 5).repairOwn = some (4, 16, false) := by decide +kernel
theorem test_message : let s := { runT with rt := { rtReset with done := [(3, { reasmNone with rxq := 0xFFFF, last := true })] } }
    (Sparse.find s.rt.done 3).isSome = true ∧ (after (.messageComplete (.entry 3) menvT) s).odg 0x2603 0x03 = 1
    ∧ (after (.messageComplete (.entry 3) menvT) s).rt.done = [] := by decide +kernel

theorem test_parcel_cases : (milkT ringD).milksNow[0]? = none
    ∧ (roundT 2 1 0 0 0).milksNow.map (fun t => (t.rows.contains ((0 + mN t.desc - 1) % mN t.desc), decide (t.sects + 1 ≤ mLast t.desc))) = [(false, false)]
    ∧ (roundT 1 1 0 0 0).milksNow.map (fun t => decide (t.rows.length + t.rowsWait.length < mN t.desc)) = [true] := by decide +kernel
theorem test_segment_cases : gDelivers (gatherD 1) 0 = true ∧ gDelivers (gatherD 1) 5 = false ∧ (tilesT 1).gathersNow[1]? = none
    ∧ (tilesT 2).gathersNow.map gatherFull = [false] := by decide +kernel

/-! ### Host -/

/-- The job ring active, the link up, the head line held with one entry not taken, in RUN with fabric time locked. -/
def ringS : State :=
  let s := (timedT []).odp 0x2805 0x09 0 1
  { s with ctxs := [(0, { ctxT with st := .loaded }), (2, { ctxT with st := .paused }), (3, { ctxT with st := .started })], current := none
           host := { hostReset with headHeld := true, head := 1, linkUp := true }, ctl := { ctlReset with mstate := .run } }

/-- A job-ring entry (Table 14-3). -/
def jobT (op ctx : Nat) (addr slot : Nat) : JobEntry := ⟨fieldsT 64 [(0, 1, op), (1, 1, ctx), (8, 8, addr), (16, 8, slot), (24, 2, 5)]⟩

theorem test_job_turns : ringS.takesEntry = true ∧ Claims.jobTurn ringS (jobT 0 0 0 0) 0 false false = true
    ∧ Claims.jobTurn ringS (jobT 1 0 64 0) 1 true false = true ∧ Claims.jobTurn ringS (jobT 2 63 0 0) 2 false false = true
    ∧ Claims.jobTurn ringS (jobT 3 0 0 12) 3 false true = true ∧ Claims.jobTurn ringS (jobT 4 3 0 0) 4 false false = true
    ∧ Claims.jobTurn ringS (jobT 4 64 0 0) 4 false false = false ∧ jResv (jobT 3 0 64 12) false false true = true
    ∧ jResv (jobT 1 0 64 12) true true false = true ∧ jResv (jobT 2 0 1 0) false false false = true ∧ 4 < jOp (jobT 5 0 0 0)
    ∧ runT.takesEntry = false ∧ runT.ringOn = false ∧ ringS.ringOn = true := by decide +kernel
theorem test_job_states : ringS.resident 0 = true ∧ ringS.resident 1 = false ∧ (ringS.ctx 0).st = .loaded ∧ (ringS.ctx 2).st = .paused
    ∧ (ringS.ctx 3).st = .started ∧ (ringS.ctx 1).st = .empty ∧ ringS.slot = 10
    ∧ (∀ k, k ∈ Sparse.keys (planT []).ctxs → ((planT []).ctx k).st = .running) := by decide +kernel
theorem test_start_alone : let s := { ringS with ctxs := [(0, { ctxT with st := .loaded }), (2, { ctxT with st := .paused })] }
    (∀ k, k ∈ Sparse.keys s.ctxs → (s.ctx k).st ≠ .running ∧ (s.ctx k).st ≠ .started)
    ∧ ((after (.startContext (jobT 3 0 0 12)) s).ctx 0).st = .started ∧ ((after (.startContext (jobT 3 0 0 11)) s).ctx 0).st = .loaded := by
  decide +kernel
theorem test_load_refused : ringS.readFail 65536 2688 = none ∧ ringS.descStatus 1 [] = St.CMD_BAD_FIELD := by decide +kernel
theorem test_unload : ((after (.unloadContext (jobT 2 0 0 0)) { ringS with ctxs := [] }).host.taken, ringS.host.taken) = (1, 0) := by decide +kernel
theorem test_stop : ((after (.stopContext (jobT 4 3 0 0)) ringS).ctx 3).stopTag = some 5 := by decide +kernel
theorem test_head_line : let t := after (.headLineSnoop 7 3) ringS
    t.host.head = 7 ∧ t.host.rspDone = 3 ∧ t.odg 0x2806 0x07 = 1 := by decide +kernel
theorem test_ring_on : let t := after (.ringActivate 1 9 2) { runT with host := { hostReset with linkUp := true } }
    t.ringOn = true ∧ t.host.head = 9 ∧ t.host.rspDone = 2 ∧ (after (.ringActivate 1 9 2) runT).host.headHeld = false
    ∧ (after (.ringActivate 2 9 2) runT).ringOn = false ∧ (after (.ringActivate 0 9 2) ringS).ringOn = false := by decide +kernel

/-- Module memory that holds, at MA 2^24, a context descriptor that R425 takes: 8 pails, 4 KiB of core store, a plan of a DEADLINE and a
STEP_END entry at MA 2^16. -/
def loadS : State :=
  let d := fieldsT 96 [(17, 1, 8), (18, 1, 1), (19, 1, 1), (20, 1, 1), (28, 4, 4096), (40, 8, 0x10000), (48, 4, 2), (64, 8, 0x20000), (72, 8, 0x40000),
    (88, 8, 0x50000)]
  ({ ringS with ctxs := [] }.putMem 0x10000 (fieldsT 32 [(4, 1, 3), (16, 4, 2), (20, 1, 4)])).putMem (2 ^ 24) d

theorem test_load_taken : loadS.descStatus 1 (loadS.memBytes (2 ^ 24) 2688) = 0 ∧ loadS.readFail (2 ^ 24) 2688 = none := by
  refine ⟨?_, by decide +kernel⟩
  simp only [State.descStatus, Ctx.resvBad, Ctx.limitBad, queueResv, queueBad, Ctx.dmaRec, Ctx.attnRec, Ctx.fld, Ctx.pbase, Ctx.pcount, Ctx.diameter,
    Ctx.calmLimit, Ctx.maxRepeat, Ctx.sbase, Ctx.slimit, Ctx.save, Ctx.eMap, Ctx.syncBase, Ctx.syncCount, sliceBytes, fld,
    State.memBytes_drop, State.memBytes_take, State.memBytes_length]
  decide +kernel

/-- The window of 256 MiB at MA 2^28, committed, with line 1 in the filter and snooped. -/
def windowT : State :=
  let s := ((runT.odp 0x2405 0x01 0 (2 ^ 28)).odp 0x2405 0x02 0 1)
  { s with host := { hostReset with linkUp := true, committed := true, filter := [1], snooping := [1] } }

theorem test_window : windowT.windowOk (2 ^ 28 - 64) 64 = true ∧ windowT.windowOk (2 ^ 28 - 63) 64 = false
    ∧ (∀ l, l ∈ linesOf 0 64 → windowT.host.snooping.contains l = false ∧ windowT.evictFor l = none) ∧ windowT.host.snooping.contains 1 = true
    ∧ (∀ i, i < 64 → windowT.readStatus (windowT.odg 0x2405 0x01 + i) = 0) ∧ (∀ i, i < 64 → windowT.readStatus (windowT.lineMa 1 + i) = 0) := by
  decide +kernel
theorem test_host_write : (after (.hostMemWrite 2 [1, 2] menvT) windowT).memBytes (2 ^ 28) 5 = [0, 0, 1, 2, 0] := by decide +kernel
theorem test_host_read : (after (.hostMemRead 0 64 menvT) windowT).host.filter.contains 0 = true := by decide +kernel
theorem test_snoop_answer : let t := after (.biSnoopResponse 1 (some (List.replicate 64 7))) windowT
    t.host.filter = [] ∧ t.host.snooping = [] ∧ t.memBytes (2 ^ 28 + 64) 2 = [7, 7] := by decide +kernel
theorem test_coherence_timeout : let s := { windowT.odp 0x2806 0x08 0 3 with ctl := { windowT.ctl with clock := 3000000 } }
    (after (.coherenceTimeout 1) s).host.linkUp = false ∧ (after (.coherenceTimeout 1) s).odg 0x2405 0x05 = 1
    ∧ (after (.coherenceTimeout 1) { s with ctl := { s.ctl with clock := 2999999 } }).host.linkUp = true := by decide +kernel
theorem test_filter_full : let s := { windowT with host := { windowT.host with filter := (List.range 4096).map fun n => 2 ^ 12 * n } }
    ((linesOf 0 64).filterMap windowT.evictFor, windowT.evictFor 5) = ([], none) ∧ s.host.linkUp = true := by decide +kernel
theorem test_decoder : (after (.hdmDecoderCommit false) windowT).host.filter = [] ∧ (after (.hdmDecoderCommit true) windowT).host.filter = [1] := by decide +kernel
/-- A fill of 4 bytes of host memory, its range permitted, with the link up. -/
def hostD : List Byte := dmaD [(0, 1, 2), (1, 1, 3 * 8), (6, 2, 1), (16, 8, 64), (24, 4, 4)]

/-- Its state. -/
def hostT : State :=
  { (((dmaT hostD).odp 0x2406 1 9 16).odp 0x2406 1 15 3) with host := { hostReset with linkUp := true } }

theorem test_host_timeout : dHost hostD = true ∧ dEmpty hostD = false ∧ (hostT.dq 0).nextItem = some (0, itemT hostD)
    ∧ hostT.mayStart 0 (hostT.dq 0) (itemT hostD) = true ∧ hostT.heldStatus 0 (itemT hostD) = 0 ∧ hostT.hostOk 64 4 true = true := by decide +kernel
theorem test_link_down : let t := after .cxlLinkDown windowT
    t.host.linkUp = false ∧ t.odg 0x2806 0x06 = 1 := by decide +kernel
theorem test_link_up : let t := after (.cxlLinkUp 8 64 3 0) runT
    t.host.linkUp = true ∧ t.odg 0x2806 0x02 = 64 ∧ runT.ctl.hostReset = false := by decide +kernel
theorem test_function_reset : (after .functionReset ringS).ringOn = false := by decide +kernel
theorem test_host_rst : let t := after .hostRstNAssert ringS
    t.ctl.hostReset = true ∧ (after .hostRstNRelease t).ctl.hostReset = false ∧ ringS.tap.frozen = none := by decide +kernel

/-! ### Dictionary and service network -/

/-- A session that expects number 4. -/
def sesT : Session := { num := 9, next := 4, used := 0, held := [], answers := [], snap := none, stage := none }

/-- A module in STANDBY with lane SL1 up at address 5 and that session. -/
def lyS : State :=
  let s := (baseT.odp 0x1030 0x05 0 2).odp 0x1030 0x04 15 5
  { s with svc := { sessions := [sesT], aps := [] } }

/-- A request of an operation (Table 15-3). -/
def lyT (op session seq index sub len : Nat) (commit : Bool) (data : List Byte) : Lly :=
  { lane := true, origin := 1, target := 5, port := 2, toPort := 47042, badSum := false
    bytes := fieldsT 32 [(0, 2, 0x4C59), (2, 1, 1), (3, 1, 1), (4, 4, session), (8, 4, seq), (12, 1, op), (13, 1, b2n commit), (16, 2, index), (18, 1, sub),
      (24, 2, len)] ++ data }

theorem test_session_turns : lyS.llyHears (lyT 1 0 0 0 0 0 false []) = true ∧ lyS.llyHears { lyT 1 0 0 0 0 0 false [] with lane := false } = false
    ∧ lyS.llyHears { lyT 1 0 0 0 0 0 false [] with badSum := true } = false ∧ llyBad (lyT 1 0 0 0 0 0 false []) = false
    ∧ [2, 3, 0x10, 0x11, 0x12].all (fun op => Claims.lyTurn lyS (lyT op 9 4 0x2902 1 1 true [2]) op sesT) = true
    ∧ lyS.svc.sessions.length < 16 ∧ lyS.session 8 = none ∧ llyBad (lyT 4 9 4 0 0 0 false []) = true
    ∧ llyBad { lyT 3 9 4 0 0 0 false [] with bytes := [0x59, 0x4C] } = true ∧ lOp { lyT 3 9 4 0 0 0 false [] with bytes := [0x59, 0x4C] } = 0 := by decide +kernel
theorem test_session_rows : (odRow 0x2902 1).map (fun r => (r.typ.size, decide (r.acc = .rw))) = some (1, true) ∧ odRow 0x2902 0xEE = none
    ∧ (odRow 0x2001 3).map (fun r => decide (r.acc = .ro)) = some true := by decide +kernel
theorem test_ping : let t := after (.ping (lyT 3 9 4 0 0 0 false [])) lyS
    (t.session 9).map (fun x => x.next) = some 5 ∧ t.odg 0x1030 0x07 = 1 := by decide +kernel
theorem test_close : (after (.closeSession (lyT 2 9 4 0 0 0 false [])) lyS).session 9 = none := by decide +kernel
theorem test_write : (after (.write (lyT 0x11 9 4 0x2902 1 1 true [2])) lyS).odg 0x2902 0x01 = 2 := by decide +kernel
theorem test_session_end : let s := { lyS with ctl := { lyS.ctl with clock := 10 ^ 10 } }
    (after (.sessionTimeout 9) s).session 9 = none ∧ ((after (.sessionTimeout 9) lyS).session 9).isSome = true := by decide +kernel
theorem test_held_end : let m := lyT 3 9 6 0 0 0 false []
    let s := { lyS with ctl := { lyS.ctl with clock := 10 ^ 9 }, svc := { sessions := [{ sesT with held := [(0, m)] }], aps := [] } }
    (s.session 9).map (fun x => x.held) = some [(0, m)] ∧ (after (.heldRequestTimeout 9 6) s).odg 0x1030 0x08 = 1 := by decide +kernel
theorem test_sessions_full : (List.replicate 16 sesT).length = 16 := by decide +kernel

theorem test_od_writes : lyS.odStatus 0x2001 3 0 [1] = St.OD_ACCESS_REFUSED ∧ lyS.odStatus 0x2902 0xEE 0 [1] = St.OD_NO_ENTRY
    ∧ lyS.odStatus 0x2902 1 0 [3] = St.OD_VALUE_RANGE ∧ lyS.odStatus 0x2902 1 0 [2] = 0 ∧ lyS.odStatus 0x2902 1 0 [2, 0] = St.OD_SIZE_MISMATCH := by
  decide +kernel
/-- The window's selector 3 names entry 0x2902:01; aperture 3 begins at block 5. -/
def apertT : State := after (.apertureSelect 3 0x012902) { lyS with host := { hostReset with linkUp := true } }

theorem test_apertures : apertT.selected 3 = (0x2902, 1) ∧ (after (.apertureWrite 0x50000 [2]) apertT).odg 0x2902 0x01 = 2
    ∧ (after (.apertureWrite 0x50000 [2]) apertT).odg 0x1021 4 / 65536 = 1 ∧ (after (.apertureWrite 0x50000 [2, 0]) apertT).odg 0x2902 0x01 = 0
    ∧ (after (.apertureWrite 0x1000C (leBytes 4 0x032001)) apertT).selected 3 = (0x2001, 3)
    ∧ (after (.apertureSelect 3 0x1000000) apertT).selected 3 = (0x2902, 1) ∧ odRow 0 0 = none := by decide +kernel
theorem test_aperture_rows : (odRow 0x2902 1).map (fun r => match r.typ with
      | .one x => x.size
      | _ => 0) = some 1
    ∧ (odRow 0x2510 1).map (fun r => decide (8 < r.typ.size)) = some true := by decide +kernel
theorem test_neighbour (s : State) (h : s.staticAddr true ≠ 0) : s.ownsAddr true (s.staticAddr true) = true := by
  simp [State.ownsAddr, h]
theorem test_static : (lyS.odp 0x1030 0x04 15 5).staticAddr true = 5 := by decide +kernel
theorem test_lanes : (after (.serviceLaneDown true) lyS).laneUp true = false ∧ (after (.serviceLaneUp false) lyS).laneUp false = true := by decide +kernel

/-! ### Management -/

/-- A module in a state, with a change in progress or none. -/
def modT (m : ModState) (c : Option ModState) : State := { baseT with ctl := { baseT.ctl with mstate := m, change := c } }

/-- The same with a paused context resident, or with a running one. -/
def ctxsT (m : ModState) (st : CtxState) : State := { modT m none with ctxs := [(0, { ctxT with st := st })] }

theorem test_state_residents : (modT .ready none).anyResident = false ∧ (ctxsT .ready .paused).anyResident = true
    ∧ (modT .run none).anyRunning = false ∧ (ctxsT .run .running).anyRunning = true := by decide +kernel
theorem test_state_causes : ((modT .safe none).odp 0x2001 0x06 0 0x010003).causeCleared true = true
    ∧ ((modT .safe none).odp 0x2001 0x06 0 0x030003).causeCleared true = false := by decide +kernel
theorem test_state_image : baseT.odg 0x1110 0x06 ≠ 2 ∧ (baseT.odp 0x1110 0x06 0 2).odg 0x1110 0x06 = 2 ∧ baseT.imageCheck.1 = St.FW_BAD_IMAGE := by
  decide +kernel
theorem test_state_busy : (after .stateCommandRun (modT .ready (some .run))).odg 0x2001 0x03 = St.STATE_BUSY := by decide +kernel
theorem test_state_same : (after .stateCommandReady (modT .ready none)).odg 0x2001 0x03 = St.OD_OK
    ∧ (after .stateCommandReady (modT .ready none)).ctl.change = none := by decide +kernel
theorem test_state_run : (after .stateCommandRun (modT .ready none)).ctl.change = some .run
    ∧ (modT .ready (some .run)).atBoundary = true ∧ (after .stateChangeComplete (modT .ready (some .run))).ctl.mstate = .run := by decide +kernel
theorem test_state_waits : let s := { modT .ready (some .run) with time := { timeReset with everLock := true, slotDone := 3, fabric := 1537 } }
    s.atBoundary = false ∧ (after .stateChangeComplete s).ctl.mstate = .ready := by decide +kernel
theorem test_state_service : (after .stateCommandService (ctxsT .ready .paused)).odg 0x2001 0x03 = St.STATE_REFUSED
    ∧ (after .stateCommandService (modT .ready none)).ctl.change = some .service := by decide +kernel
theorem test_state_standby : (after .stateChangeComplete (modT .ready (some .standby))).ctl.mstate = .standby := by decide +kernel
theorem test_start_up : let s := modT .standby (some .ready)
    s.ctl.mstate = .standby ∧ s.ctl.change = some .ready ∧ (s.odp 0x2110 0x03 0 1).odg 0x2110 0x03 = 1 := by decide +kernel
theorem test_level : (after (.performanceLevelCommand 7) runT).odg 0x2001 0x05 = 7 ∧ (after (.performanceLevelCommand 7) runT).fLevel
    < runT.fLevel ∧ (after (.performanceLevelCommand 8) runT).odg 0x2001 0x05 = 0 := by decide +kernel

/-! ### Power and clocks -/

theorem test_power_rest : runT.powered = true ∧ (∀ e, e ∈ runT.pow.limited → e.1 ≠ 26) ∧ runT.fEff 3 = 1200 ∧ runT.capNow = 2200
    ∧ runT.odg 0x2004 0x05 3 = 0 ∧ runT.dieLimited 3 = false ∧ runT.capStages = 0 ∧ runT.fOther 3 ≤ runT.fRamp 3 ∧ baseT.powered = false
    ∧ ({ runT with pow := { powReset with limited := [(7, 0, 0)] } } : State).dieLimited 3 = true := by decide +kernel
theorem test_ramp : let s := { runT with pow := { powReset with fRamp := [(3, 500)] } }
    s.fRamp 3 < s.fOther 3 ∧ (after (.rampStep 3 true false) s).fRamp 3 = 525 := by decide +kernel
/-- Region 63 stretched at clock 5; then 107 ns and 106 ns later. -/
def droopT (ns : Nat) : State :=
  let t := after (.droopDetect 63) { runT with ctl := { runT.ctl with clock := 5 } }
  { t with ctl := { t.ctl with clock := 5 + ns } }

theorem test_droop : bit (runT.odg 0x2003 0x04) 63 = false ∧ bit ((droopT 107).odg 0x2003 0x04) 63 = true
    ∧ bit ((after (.droopRelease 63) (droopT 107)).odg 0x2003 0x04) 63 = false ∧ bit ((after (.droopRelease 63) (droopT 106)).odg 0x2003 0x04) 63 = true
    ∧ (after (.droopRelease 63) (droopT 107)).pow.droops = [(63, 5, 112)] := by decide +kernel

/-- Region 48 was stretched for ns of the last millisecond, with f_ilim of die 3 and the clock of its last change. -/
def stretchT (ns f at_ : Nat) : State :=
  let p := { powReset with droops := [(48, 20000000 - ns, 20000000)], fIlim := [(3, f)], ilimAt := [(3, at_)] }
  { runT with ctl := { runT.ctl with clock := 20000000 }, pow := p }

theorem test_stretch_cases : (stretchT 10001 1200 0).overStretched 48 = true ∧ (∀ k, k < 16 → (stretchT 10000 1200 0).overStretched (16 * 3 + k) = false)
    := by decide +kernel
theorem test_stretch : Sparse.get (fun _ => 1200) (after (.sustainedStretchCheck 3) (stretchT 10001 1200 0)).pow.fIlim 3 = 1100
    ∧ Sparse.get (fun _ => 1200) (after (.sustainedStretchCheck 3) (stretchT 10001 1100 19000000)).pow.fIlim 3 = 1000
    ∧ Sparse.get (fun _ => 1200) (after (.sustainedStretchCheck 3) (stretchT 10001 1100 19000001)).pow.fIlim 3 = 1100 := by decide +kernel
theorem test_stretch_back : Sparse.get (fun _ => 1200) (after (.sustainedStretchCheck 3) (stretchT 0 1100 10000000)).pow.fIlim 3 = 1200
    ∧ Sparse.get (fun _ => 1200) (after (.sustainedStretchCheck 3) (stretchT 0 1100 10000001)).pow.fIlim 3 = 1100 := by decide +kernel

/-- A reading of 100 us and of one second, in tenths of a watt. -/
def readT (us sec : Nat) : PowerReading := ⟨us, sec, 0⟩

theorem test_power_bound : powerBound 21477 = 21850 ∧ runT.judged 21477 0 = 21850 := by decide +kernel
theorem test_cap_reduces : let t := after (.capEvaluation (readT 0 21408)) runT
    t.pow.reducing = true ∧ t.pow.fCap = 1175 ∧ (after (.capEvaluation (readT 20541 0)) t).pow.reducing = false
    ∧ (after (.capEvaluation (readT 20542 0)) t).pow.fCap = 1150 ∧ (after (.capEvaluation (readT 0 21407)) runT).pow.reducing = false := by decide +kernel
theorem test_cap_eight : let s := { runT with pow := { powReset with overAt := 1 } }
    (after (.capEvaluation (readT 22000 0)) { s with ctl := { s.ctl with clock := 8000000 } }).pow.reducing = true
    ∧ (after (.capEvaluation (readT 22000 0)) { s with ctl := { s.ctl with clock := 7999999 } }).pow.reducing = false := by decide +kernel
theorem test_cap_undo : let s := { runT with pow := { powReset with fCap := 1175, underAt := 1 } }
    s.capStages ≠ 0 ∧ (after (.capEvaluation (readT 1000 1000)) { s with ctl := { s.ctl with clock := 1000000 } }).pow.fCap = 1200
    ∧ (after (.capEvaluation (readT 1000 1000)) { s with ctl := { s.ctl with clock := 999999 } }).pow.fCap = 1175 := by decide +kernel
theorem test_disagreement : let t := after (.estimateDisagreement 27 false) runT
    bit (t.odg 0x2002 0x05) 27 = true ∧ t.oddMs 27 = 0 ∧ bit ((after (.estimateDisagreement 27 true) t).odg 0x2002 0x05) 27 = false
    ∧ 10000 ≤ ({ t with ctl := { t.ctl with clock := 10000000000 } } : State).oddMs 27 := by decide +kernel
theorem test_limit_released : let s := { runT with pow := { powReset with limited := [(26, 100, 7)] } }
    (after (.currentLimitRelease 26) { s with ctl := { s.ctl with clock := 1000007 } }).pow.limited = []
    ∧ (after (.currentLimitRelease 26) { s with ctl := { s.ctl with clock := 1000006 } }).pow.limited = [(26, 100, 7)] := by decide +kernel

theorem test_thermal_up : stepCalled 1136 0 0 = 1 ∧ stepCalled 0 96 0 = 1 ∧ stepCalled 0 0 1680 = 3 ∧ stepCalled 0 64 0 = 0 := by decide +kernel
theorem test_thermal_rises : (after (.thermalEvaluation 3 0 1648) runT).odg 0x2004 0x05 3 = 2 := by decide +kernel

/-- Die 3 at step 1, cool since clock 0, at 1 ms. -/
def coolT : State := { runT.odp 0x2004 0x05 3 1 with ctl := { runT.ctl with clock := 1000000 }, pow := { powReset with coolOk := [(3, 1)] } }

theorem test_thermal_falls : (after (.thermalEvaluation 3 1104 1568) coolT).odg 0x2004 0x05 3 = 0
    ∧ (after (.thermalEvaluation 3 1105 1568) coolT).odg 0x2004 0x05 3 = 1 ∧ stepCalled 1104 32 1568 = 0 ∧ coolT.slopeAt 3 1104 = 0
    ∧ (after (.thermalEvaluation 3 1104 1568) { coolT with pow := powReset }).odg 0x2004 0x05 3 = 1 := by decide +kernel

/-- Line 3 in broadcast mode, its last event and its last fall so many ns ago. -/
def lineT (ago fall : Nat) : State :=
  { runT with ctl := { runT.ctl with clock := 100 }, clk := { runT.clk with trigAt := [(3, 101 - ago)], fellAt := [(3, 101 - fall)] } }

theorem test_trigger : runT.ctl.mstate ≠ .off ∧ runT.odg 0x2101 0x02 3 = 0xFFFF ∧ runT.tap.frozen = none ∧ bit runT.clk.mode 3 = false
    ∧ completes (.triggerEvent 3 true) (lineT 8 3) = true ∧ (after (.triggerEvent 3 true) (lineT 8 2)).odg 0x2101 0x03 3 = 0
    ∧ (after (.triggerEvent 3 false) (lineT 8 3)).odg 0x2101 0x03 3 = 0 := by
  decide +kernel
theorem test_trigger_clock : (lineT 8 3).agoOf (lineT 8 3).clk.trigAt 3 = some 8 ∧ (lineT 8 3).agoOf (lineT 8 3).clk.fellAt 3 = some 3
    ∧ runT.agoOf runT.clk.fellAt 3 = none := by decide +kernel
theorem test_trigger_object : (runT.sync.retired.contains 0 = false ∧ runT.sync.lost.contains 7 = false)
    ∧ (runT.odp 0x2101 0x02 3 7).odg 0x2101 0x02 3 = 7 ∧ (runT.odp 0x2101 0x02 3 7).powered = true := by decide +kernel
theorem test_clock_stop : runT.mayStop 17 0 = true ∧ runT.mayStop 2 0 = false
    ∧ (after (.clockStop 17 0) runT).clk.stopped.contains (clockKey 17 0) = true
    ∧ (after (.clockWake 17 0) (after (.clockStop 17 0) runT)).clk.stopped = [] := by decide +kernel
theorem test_crossing : (after (.crossingReset 8 3) runT).odg 0x2102 0x02 = 1 ∧ (after (.crossingReset 0 0) runT).odg 0x2102 0x02 = 0
    ∧ groupInstances 8 = 4 ∧ completes (.crossingReset 8 4) runT = false := by decide +kernel

/-! ### Starts, security, SAFE -/

theorem test_offs : let s := modT .off none
    let t := { s with ctl := { s.ctl with inputUp := false } }
    t.ctl.inputUp = false ∧ t.ctl.resetHeld = false ∧ (after .coldStart { t with ctl := { t.ctl with resetHeld := true } }).ctl.inputUp = true
    ∧ runT.ctl.mstate ≠ .off ∧ (modT .off none).ctl.inputUp = true := by decide +kernel
theorem test_power_loss : (after .powerLoss runT).ctl.mstate = .off ∧ (after .powerLoss runT).ctl.inputUp = false := by decide +kernel
theorem test_reset_pin : (after (.modRstNAssert 1000000) runT).ctl.resetHeld = true ∧ (after (.modRstNAssert 899999) runT).ctl.mstate = .run := by
  decide +kernel

/-- A module in STANDBY at which presence is held, with no owner key, no revocation and SVN 0 in its fuses. -/
def secT : State :=
  let zero := ((List.range 9).map fun i => (251 + i, (0 : Byte))) ++ ((List.range 512).map fun i => (260 + i, (0 : Byte)))
  let s := baseT.odp 0x1111 0x01 0 4
  { s with sec := { s.sec with fuses := zero, verified := some (1, 64, 0, 0) } }

theorem test_presence : secT.presenceHeld = true ∧ baseT.presenceHeld = false ∧ secT.ctl.mstate = .standby ∧ secT.ctl.change = none := by decide +kernel
theorem test_slots : secT.freeSlot = some 0 ∧ secT.validSlots = [] ∧ secT.slotValid 7 = false := by decide +kernel
theorem test_key_check (key : List Byte) : (keyCheck key).length = 2 := by simp [keyCheck, takeFn]
theorem test_key_form : (List.replicate 176 (0 : Byte)).length = 176 ∧ fld (List.replicate 176 0) 171 5 = 0 := by decide +kernel

/-- The same with the key of 57 zero bytes valid in slot 7. -/
def ownedT : State :=
  let k := slotAt 7
  { secT with sec := { secT.sec with fuses := (List.range 57).map (fun i => (k + i, (0 : Byte)))
      ++ (keyCheck (List.replicate 57 0)).zipIdx.map (fun e => (k + 57 + e.2, e.1)) ++ [(k + 59, 1)] } }

theorem test_slot_valid : ownedT.slotValid 7 = true := by
  have h1 : ownedT.fuseBytes (slotAt 7) 57 = List.replicate 57 0 := by decide +kernel
  have h2 : ownedT.fuseBytes (slotAt 7 + 57) 2 = keyCheck (List.replicate 57 0) := rfl
  have h3 : ownedT.fuse (slotAt 7 + 59) = 1 := by decide +kernel
  simp [State.slotValid, h1, h2, h3]

theorem test_vendor_keys : secT.vendorRevoked 3 = false ∧ secT.vendorRevoked 0 = false := by decide +kernel
theorem test_svn : secT.svnCount = 0 ∧ secT.sec.verified = some (1, 64, 0, 0)
    ∧ (after (.svnRaise 65 fuseOk) secT).odg 0x1112 0x05 = St.OD_VALUE_RANGE := by decide +kernel
theorem test_debug_enable : (after (.debugEnable 1) secT).dbgOn = true ∧ (after (.debugDisable 1) (after (.debugEnable 1) secT)).dbgOn = false := by
  decide +kernel
theorem test_presence_sample : let s := { baseT with sec := { baseT.sec with heldMs := 9, sealSeen := true } }
    (after (.presenceSample true false) s).presenceHeld = true ∧ (after (.presenceSample true false) s).sec.sealBroken = true
    ∧ (after (.presenceSample false false) s).sec.heldMs = 0 ∧ (after (.presenceSample true false) s).sec.sampleDue = 1000000 := by decide +kernel
theorem test_chunk : baseT.chunkStatus (List.replicate 65536 0) = 0 ∧ baseT.chunkStatus [] = St.OD_SIZE_MISMATCH := by
  refine ⟨?_, by decide +kernel⟩
  simp only [State.chunkStatus, List.length_replicate]
  decide +kernel
theorem test_verify : baseT.verifyStatus 1 = 0 ∧ baseT.verifyStatus 2 = St.OD_VALUE_RANGE
    ∧ (after (.imageVerify 1) baseT).odg 0x1110 0x06 = 3 := by decide +kernel
theorem test_attest : (baseT.attestReport (List.replicate 32 9))[0]? = some 0x50 := by decide +kernel

theorem test_safe : runT.recentSafe 4 = 1 ∧ ({ runT with ctl := { runT.ctl with clock := 86400000000000 - 1, safeTimes := [(4, 0), (3, 0)] } } : State).recentSafe 4 = 2 := by
  decide +kernel
theorem test_self_check : runT.ctl.selfDue ≤ runT.ctl.clock ∧ (after (.monitorSelfCheck true) runT).ctl.selfOk = 1
    ∧ (after (.monitorSelfCheck true) (after (.monitorSelfCheck true) runT)).ctl.selfOk = 1 := by decide +kernel
theorem test_herd : let s := { runT with ctl := { runT.ctl with clock := runT.herd.ms * 1000000 } }
    (after .herdIntervalEnd s).herd.interval = 1 ∧ (after .herdIntervalEnd runT).herd.interval = 0
    ∧ (after (.herdBookClear 1) (modT .service none)).herd.next = 0 := by decide +kernel

/-! ### Debug -/

/-- A debug request of an operation at core 0 for context 0 (Table 20-2). -/
def dbgT (op v : Nat) : DbgReq := BitVec.ofNat 96 (op + 2 ^ 32 * v)

/-- The module in RUN with debug enabled, the core halted, access address and selector as given. -/
def dbgS (sp a sel : Nat) : State :=
  let s := runT.odp 0x1113 0x01 0 1
  { s with tap := { s.tap with space := sp, addr := a, sel := sel }, files := [(0, { fileT 7 0 0 0 with halted := true })] }

theorem test_debug_locked : runT.dbgOn = false ∧ runT.tap.busy = none ∧ (after (.halt (dbgT 1 0)) runT).out.head? = some (.scan 96 St.DBG_LOCKED) := by
  decide +kernel
theorem test_debug_turns : (dbgS 0 0 0).dbgOn = true
    ∧ [(0, 2 ^ 64 - 1, true), (1, 2 ^ 64 - 1, false), (2, 2 ^ 64 - 1, false), (3, 2 ^ 64 - 1, false), (4, 2 ^ 63, true), (5, 2 ^ 64 - 1, false), (6, 0, false),
      (7, bpKeep, false), (8, 2 ^ 64 - 2 ^ 16, false), (9, 0, false)].all (fun x => Claims.dbgTurn (dbgS 0 0 0) (dbgT x.1 0) x.1 x.2.1 x.2.2) = true
    ∧ Claims.dbgTurn (dbgS 0 0 0) (dbgT 4 (2 ^ 60 + 8)) 4 (2 ^ 63) true = true ∧ Claims.dbgTurn (dbgS 0 0 0) (dbgT 4 (2 ^ 61)) 4 (2 ^ 63) true = true
    ∧ Claims.dbgTurn (dbgS 0 0 0) (dbgT 7 (2 ^ 26 + 2 ^ 25 + 2 ^ 24 + 8)) 7 bpKeep false = true
    ∧ Claims.dbgTurn (dbgS 0 0 0) (dbgT 7 (2 ^ 26 + 4)) 7 bpKeep false = true := by decide +kernel
theorem test_debug_refused : dbgOp (dbgT 12 0) = 12 ∧ dbgResv (BitVec.ofNat 96 (2 ^ 26)) = true ∧ dbgResv (BitVec.ofNat 96 0xF0) = true
    ∧ (dbgS 0 0 0).coreEnabled 0 = true ∧ (dbgS 0 0 0).coreEnabled (dbgCore (BitVec.ofNat 96 (256 * 860))) = false := by decide +kernel
theorem test_debug_busy : let s := { dbgS 0 8 0 with host := { hostReset with filter := [], linkUp := true } }
    s.filtered 8 8 = [] ∧ ({ dbgS 0 (2 ^ 28 + 64) 0 with host := { hostReset with filter := [1], linkUp := true, committed := true }
                                                         od := windowT.od } : State).filtered (2 ^ 28 + 64) 8 = [1] := by decide +kernel
theorem test_debug_places : (dbgS 0 8 0).dbgPlace = .mem 8 ∧ (dbgS 0 8 0).filtered 8 8 = [] ∧ (dbgS 0 8 0).readStatus 8 = 0
    ∧ (dbgS 1 0x3FFF8 0).dbgPlace = .core 0 0x3FFF8 ∧ (dbgS 0 4 0).dbgPlace = .nowhere := by decide +kernel
theorem test_debug_write : let t := after (.debugWrite (dbgT 6 5) menvT) (dbgS 0 8 0)
    t.memBytes 8 2 = [5, 0] ∧ t.tap.addr = 16 := by decide +kernel
theorem test_debug_read : (after (.debugRead (dbgT 5 0) menvT) ((dbgS 0 8 0).putMem 8 (leBytes 8 9))).tap.last = (0, true, false, 9) := by decide +kernel
theorem test_debug_registers : let s := dbgS 0 0 0x1F
    (s.file 0 0).stopped = true ∧ s.dbgReg 0 0 1 = some 7 ∧ s.dbgReg 0 0 0x3000 = none
    ∧ ((after (.writeReg (dbgT 9 5)) s).file 0 0).reg 31 = 5 ∧ ((after (.writeReg (dbgT 9 64)) (dbgS 0 0 0x40)).file 0 0).pc = 64 := by decide +kernel
theorem test_debug_running : (({ dbgS 0 0 0 with files := [] } : State).file 0 0).stopped = false
    ∧ Claims.dbgTurn { dbgS 0 0 0 with files := [] } (dbgT 9 0) 9 0 false = true := by decide +kernel
theorem test_debug_breakpoint : Sparse.find ((after (.setBp (dbgT 7 (2 ^ 26 + 2 ^ 25 + 2 ^ 24 + 8))) (dbgS 0 0 0)).file 0 0).bps 3 = some 8 := by decide +kernel

theorem test_tap : (after .idcode baseT).out = .scan 32 0x1C74298F :: baseT.out ∧ (after .tapReset baseT).tap.ir = 1
    ∧ (after .bypass baseT).tap.ir = 0xFF := by decide +kernel
theorem test_tap_sample : (after (.samplePreload 5 9) baseT).tap.cells = 9 ∧ (after (.samplePreload 5 9) baseT).tap.ir = 2 := by decide +kernel
theorem test_extest : (after (.extest 3 9) (baseT.odp 0x1113 0x01 0 1)).tap.ir = 0 ∧ (after (.extest 3 9) (baseT.odp 0x1113 0x01 0 1)).tap.frozen = some 3
    ∧ (after (.extest 3 9) (dbgS 0 0 0)).tap.ir = 0xFF
    ∧ (baseT.odp 0x1113 0x01 0 1).dbgOn = true := by decide +kernel

/-- The module in RUN with a trace buffer of two records, both written in mode 0, and a record waiting. -/
def traceT : State :=
  let s := (runT.odp 0x3200 0x03 0 (2 ^ 20)).odp 0x3200 0x04 0 64
  { s with trace := { s.trace with queue := [List.replicate 32 1], written := 2 } }

theorem test_trace : traceT.odg 0x3200 0x05 ≠ 1 ∧ traceT.writeStatus (2 ^ 20) true = 0 ∧ (after .traceRecordWrite traceT).memBytes (2 ^ 20) 2 = [1, 1]
    ∧ (after .traceRecordWrite traceT).trace.written = 3 := by decide +kernel
theorem test_trace_full : let s := traceT.odp 0x3200 0x05 0 1
    ¬ 32 * s.trace.written < s.odg 0x3200 0x04 ∧ (after .traceRecordWrite s).trace.queue = traceT.trace.queue := by decide +kernel

/-! ### Steps and stops -/

theorem test_no_unit : completes (.probeSend 48) baseT = false ∧ completes (.probeSend 47) baseT = true := by decide +kernel
theorem test_step_front : step { baseT with pending := [.bypass, .idcode] } = exec .bypass { baseT with pending := [.idcode] } := rfl
theorem test_step_idle : ∃ t, step runT = .next t ∧ t.ctl.clock = 1 ∧ t.time.fabric = 0 := ⟨_, rfl, by decide +kernel, by decide +kernel⟩
theorem test_step_locked : ∃ t, step (timedT []) = .next t ∧ t.time.fabric = 5121 := ⟨_, rfl, by decide +kernel⟩
theorem test_queue_kept : ∃ t, exec .bypass { baseT with pending := [.idcode] } = .next t ∧ t.pending = [.idcode] := ⟨_, rfl, by decide +kernel⟩
theorem test_memory_kept : State.reset.memOk ∧ (timedT []).memOk ∧ ¬ ({ baseT with hbm := { baseT.hbm with mem := [(5, 0)] } } : State).memOk := by
  decide +kernel
theorem test_reset_reads : State.reset.memByte 0 = 0 ∧ State.reset.odg 0x2000 0x04 = 2200 ∧ State.reset.pending = [] := by decide +kernel

/-- The worked example of R420: P27 sends on fibre 4, which a trunk joins to fibre 13 of P19, and P19's fibre 4 to P27's 13. -/
theorem test_fibres : portFibres 27 = (4, 13) ∧ trunkFibre 4 = (portFibres 19).2 ∧ trunkFibre (portFibres 19).1 = (portFibres 27).2 := by decide

end Sys2Proof.Tests
end

section
/-! SUPPORT. The pail reductions (R79): a pail written whole, the flags and the frame of an instruction that writes pails, and O9. -/

namespace Sys2Proof.Machine

/-! ### A pail written whole -/

/-- Write every element of a pail, element i with g i. -/
def State.fillPail (s : State) (k p : Nat) (g : Nat → Word) : State :=
  (List.range 256).foldl (fun s i => s.setPail k p i (g i)) s

/-- After the first n elements of a pail are written they hold the values given, and every other word of the pails is as before. -/
theorem State.get_pails_foldl_setPail (s : State) (k p : Nat) (g : Nat → Word) (n j : Nat) :
    Sparse.get (fun _ => (0 : Word)) ((List.range n).foldl (fun s i => s.setPail k p i (g i)) s).pails j =
      if k * 16384 + p * 256 ≤ j ∧ j < k * 16384 + p * 256 + n then g (j - (k * 16384 + p * 256))
      else Sparse.get (fun _ => (0 : Word)) s.pails j := by
  induction n with
  | zero => rw [if_neg (by omega)]; rfl
  | succ n ih =>
    rw [List.range_succ, List.foldl_append, List.foldl_cons, List.foldl_nil, State.setPail, Sparse.get_set, ih]
    by_cases last : j = k * 16384 + p * 256 + n
    · rw [if_pos last, if_pos (by omega), last, Nat.add_sub_cancel_left]
    · rw [if_neg last]
      exact if_congr (by omega) rfl rfl

theorem State.pail_fillPail (s : State) (k p : Nat) (g : Nat → Word) (e : Nat) (he : e < 256) :
    (s.fillPail k p g).pail k p e = g e := by
  rw [State.pail, State.fillPail, State.get_pails_foldl_setPail, if_pos (by omega), Nat.add_sub_cancel_left]

theorem State.get_pails_fillPail_outside (s : State) (k p : Nat) (g : Nat → Word) (j : Nat)
    (hj : j < k * 16384 + p * 256 ∨ k * 16384 + p * 256 + 256 ≤ j) :
    Sparse.get (fun _ => (0 : Word)) (s.fillPail k p g).pails j = Sparse.get (fun _ => (0 : Word)) s.pails j := by
  rw [State.fillPail, State.get_pails_foldl_setPail, if_neg (by omega)]

/-- Writing elements of a pail changes no field of the state but the pails. -/
theorem State.foldl_setPail_eq (s : State) (k p : Nat) (g : Nat → Word) (l : List Nat) :
    ∃ ps, l.foldl (fun s i => s.setPail k p i (g i)) s = { s with pails := ps } := by
  induction l generalizing s with
  | nil => exact ⟨s.pails, rfl⟩
  | cons i l ih => exact ih (s.setPail k p i (g i))

theorem State.fillPail_eq (s : State) (k p : Nat) (g : Nat → Word) : ∃ ps, s.fillPail k p g = { s with pails := ps } :=
  s.foldl_setPail_eq k p g (List.range 256)

/-! ### The end of an instruction that writes pails -/

/-- An instruction that writes nothing but pails and its own context file keeps the frame of a core instruction. -/
theorem coreFrame_of_pails (s : State) (ps : Sparse Word) (k c : Nat) (f : CoreFile) :
    Claims.coreFrame s ((State.nextPc { s with pails := ps } k c f).afterIssue k c) k c := by
  simp +contextual [Claims.coreFrame, State.afterIssue_files, State.nextPc_files]

/-- The context file after an issued instruction that moves on to the next word. -/
theorem nextPc_afterIssue_file (s : State) (k c : Nat) (f : CoreFile) :
    let t := (s.nextPc k c f).afterIssue k c
    (t.file k c).regs = f.regs ∧ (t.file k c).masks = f.masks ∧ (t.file k c).flags = f.flags ∧ (t.file k c).pc = f.pc + 8 := by
  obtain ⟨hregs, hmasks, hflags, hpc, -⟩ := (s.nextPc k c f).afterIssue_file k c
  simp only [State.nextPc_file] at hregs hmasks hflags hpc
  exact ⟨hregs, hmasks, hflags, hpc⟩

/-- Flags stick (R95): a bit is set after a run of operations when it was set before or one of them sets it. -/
theorem getLsbD_foldl_flags {α : Type} (flags : α → BitVec 4) (l : List α) (f : BitVec 4) (n : Nat) :
    (l.foldl (fun a r => a ||| flags r) f).getLsbD n = (f.getLsbD n || l.any fun r => (flags r).getLsbD n) := by
  induction l generalizing f with
  | nil => simp
  | cons r l ih => rw [List.foldl_cons, ih, BitVec.getLsbD_or, List.any_cons, Bool.or_assoc]

/-! ### One reduction -/

/-- What element j of line l brings to the tree (R79): the identity where the mask hides it. -/
def reductionLeaf (s : State) (k c w : Nat) (ident : Word) (start : Word → Word × BitVec 4) (l j : Nat) : Word × BitVec 4 :=
  let e := if (vword w).ax then 16 * j + l else 16 * l + j
  if ((s.file k c).mask (vword w).km).getLsbD e then start (Claims.opA s k c w e) else (ident, 0)

/-- The reduction of line l, a row or with AX a column, in the tree order of R79. -/
def lineReduction (s : State) (k c w : Nat) (ident : Word) (start : Word → Word × BitVec 4)
    (op : Word → Word → Word × BitVec 4) (l : Nat) : Word × BitVec 4 :=
  reduce16 op ((List.range 16).map (reductionLeaf s k c w ident start l))

/-- The line of an element: its row, or with AX its column. -/
def lineOf (v : VWord) (e : Nat) : Nat := if v.ax then e % 16 else e / 16

theorem lineOf_lt (v : VWord) (e : Nat) (he : e < 256) : lineOf v e < 16 := by
  unfold lineOf
  split <;> omega

/-- A reduction from s has left t (R79, R95): every element of the destination holds the reduction of its line, the flags of all lines
stick, and nothing else of the core changes. -/
def ReductionDone (s t : State) (k c w : Nat) (ident : Word) (start : Word → Word × BitVec 4)
    (op : Word → Word → Word × BitVec 4) : Prop :=
  let pd := (s.ctx c).pailOf (vword w).pd
  let line := lineReduction s k c w ident start op
  (∀ e, e < 256 → t.pail k pd e = (line (lineOf (vword w) e)).1)
    ∧ (∀ j, (j < k * 16384 + pd * 256 ∨ k * 16384 + pd * 256 + 256 ≤ j) →
      Sparse.get (fun _ => (0 : Word)) t.pails j = Sparse.get (fun _ => (0 : Word)) s.pails j)
    ∧ (∀ n, n < 4 → (t.file k c).flags.getLsbD n = ((s.file k c).flags.getLsbD n
      || (List.range 16).any fun l => (line l).2.getLsbD n))
    ∧ (t.file k c).pc = (s.file k c).pc + 8 ∧ (t.file k c).regs = (s.file k c).regs ∧ (t.file k c).masks = (s.file k c).masks
    ∧ t.store = s.store ∧ Claims.coreFrame s t k c

/-- `reduceOp` fills its destination with the reductions of the lines and moves on with their flags. -/
theorem reduceOp_eq (ident : VWord → Word) (start : VWord → Word → Word × BitVec 4)
    (op : VWord → Word → Word → Word × BitVec 4) (s : State) (k c w : Nat) :
    let v := vword w
    let lines := (List.range 16).map (lineReduction s k c w (ident v) (start v) (op v))
    reduceOp ident start op s k c w =
      (s.fillPail k ((s.ctx c).pailOf v.pd) fun e => (lines.getD (lineOf v e) (0, 0)).1).nextPc k c
        { s.file k c with flags := lines.foldl (fun a r => a ||| r.2) (s.file k c).flags } := rfl

theorem reduceOp_done (ident : VWord → Word) (start : VWord → Word → Word × BitVec 4)
    (op : VWord → Word → Word → Word × BitVec 4) (s : State) (k c w : Nat) :
    ReductionDone s ((reduceOp ident start op s k c w).afterIssue k c) k c w (ident (vword w)) (start (vword w))
      (op (vword w)) := by
  rw [reduceOp_eq]
  set line := lineReduction s k c w (ident (vword w)) (start (vword w)) (op (vword w))
  set pd := (s.ctx c).pailOf (vword w).pd
  set g : Nat → Word := fun e => (((List.range 16).map line).getD (lineOf (vword w) e) (0, 0)).1 with hg
  have hpail : ∀ e, e < 256 → (s.fillPail k pd g).pail k pd e = (line (lineOf (vword w) e)).1 := by
    intro e he
    simp [State.pail_fillPail _ _ _ _ _ he, hg, lineOf_lt _ _ he]
  have hkeep := s.get_pails_fillPail_outside k pd g
  obtain ⟨ps, hps⟩ := s.fillPail_eq k pd g
  rw [hps] at hpail hkeep ⊢
  obtain ⟨hregs, hmasks, hflags, hpc⟩ := nextPc_afterIssue_file { s with pails := ps } k c
    { s.file k c with flags := ((List.range 16).map line).foldl (fun a r => a ||| r.2) (s.file k c).flags }
  refine ⟨?_, ?_, ?_, hpc, hregs, hmasks, ?_, coreFrame_of_pails s ps k c _⟩
  · simpa [State.pail] using hpail
  · simpa using hkeep
  · intro n _
    rw [hflags, getLsbD_foldl_flags, List.any_map]
    rfl
  · simp

/-- A command whose meaning is a reduction of one opcode completes as R79 says where its word issues. -/
theorem does_reduction {instr : Instr} {s : State} {i : Issue} {c w opc : Nat} {ident : VWord → Word}
    {start : VWord → Word → Word × BitVec 4} {op : VWord → Word → Word → Word × BitVec 4}
    (h : Claims.issues s i c w = true) (hop : opcOf w = opc)
    (hexec : exec instr s = .next (s.issue i [opc] pailWord (reduceOp ident start op))) :
    Claims.Does instr s fun t =>
      ReductionDone s t i.core.toNat c w (ident (vword w)) (start (vword w)) (op (vword w)) := by
  have ho : [opc].contains (opcOf w) = true := by simp [hop]
  refine ⟨_, hexec, ?_⟩
  rw [State.issue_of s i c w [opc] pailWord _ h ho]
  exact reduceOp_done ident start op s i.core.toNat c w

/-! ### The words that issue -/

theorem legalWord_of_issues {s : State} {i : Issue} {c w : Nat} (h : Claims.issues s i c w = true) : legalWord w = true := by
  simp only [Claims.issues, Bool.and_eq_true] at h
  obtain ⟨⟨⟨-, hlegal⟩, -⟩, -⟩ := h
  exact hlegal

/-- R75: a reduction with MZ = 1 is illegal. -/
theorem mz_of_legal_reduction {w : Nat} (h : legalWord w = true) (hop : opcOf w ∈ [0x40, 0x41, 0x42, 0x43]) :
    (vword w).mz = false := by
  simp only [List.mem_cons, List.not_mem_nil, or_false] at hop
  rcases hop with hop | hop | hop | hop <;>
  · simp only [legalWord, hop, usedMask, valuesOk, Bool.and_eq_true, Bool.not_eq_true'] at h
    obtain ⟨-, -, hmz⟩ := h
    exact hmz

/-- Settles O9: one lemma gives what a reduction leaves, for any identity, preparation and operation; each command is an instance of it. -/
theorem reductions : Obligations.Reductions := by
  unfold Obligations.Reductions
  intro s i c w h
  refine ⟨mz_of_legal_reduction (legalWord_of_issues h), fun hop => ?_, fun hop => ?_, fun hop => ?_, fun hop => ?_⟩
  · have hsum := does_reduction (instr := .rsum i) h hop rfl
    by_cases hfmt : (vword w).fmt = 4
    · simp only [if_pos hfmt] at hsum ⊢
      exact hsum
    · simp only [if_neg hfmt] at hsum ⊢
      exact hsum
  · exact does_reduction (instr := .rmax i) h hop rfl
  · exact does_reduction (instr := .rmin i) h hop rfl
  · exact does_reduction (instr := .rsumsq i) h hop rfl

end Sys2Proof.Machine
end

section
/-! SUPPORT. The routing epoch (R276), and the refutation of O41: a stack number that no stack has takes the epoch away from its request. -/

namespace Sys2Proof.Machine

/-- The injection epoch in which a command leaves the machine, where the command completes. -/
def epochAfter (i : Instr) (s : State) : Option Nat :=
  match exec i s with
  | .next t => some t.epochNow
  | .fault _ => none
  | .refused _ => none

theorem epochAfter_of_next {i : Instr} {s t : State} (h : exec i s = .next t) : epochAfter i s = some t.epochNow := by
  rw [epochAfter, h]

/-- No stack's number: the retirement flag of this stack, element farStack of OD 0x2400:03, is the register of the injection epoch,
OD 0x2600:04, because `odKey` adds the element's number to the entry's key and puts no bound on it. -/
def farStack : Nat := odKey 0x2600 0x04 0 - odKey 0x2400 0x03 0

/-- Fabric time has locked, context 0 is loaded and runs from slot 1, epoch 1 is requested for slot 9, and `farStack` waits to be retired
at the next step boundary. The herd book has no accumulator, as on a part whose device key matches its fuses. -/
def farStackDue : State :=
  { State.reset with
    time := { timeReset with everLock := true }
    hbm := { hbmReset with retireDue := [farStack] }
    herd := { herdReset with accs := [] }
    ctxs := [(0, { ctxNone with st := .loaded })]
    current := some 0
    switchBusy := 1
    rt := { rtReset with epochReq := some (1, 9) } }

theorem epochNow_farStackDue : farStackDue.epochNow = 0 := by decide +kernel

/-- Slot 1 begins the first step of context 0, and the boundary of that step sets the retirement flag of `farStack`. -/
theorem epochAfter_slotBoundary_farStackDue : epochAfter (.slotBoundary ⟨[], none, []⟩) farStackDue = some 1 := by
  decide +kernel

/-- Refutes O41: in `farStackDue` the epoch changes from 0 to 1 at slot 1, eight slots before the slot that was requested. The statement
is about every state, and so about one in which a stack that the module does not have is due to be retired. -/
theorem not_epochSelection : ¬ Obligations.EpochSelection := by
  unfold Obligations.EpochSelection
  intro h
  obtain ⟨-, -, -, -, hboundary⟩ := h farStackDue 0
  obtain ⟨t, hnext, -, hkept⟩ := hboundary 1 9 ⟨[], none, []⟩ rfl rfl
  obtain ⟨hsame, -⟩ := hkept (by decide)
  have hafter : some t.epochNow = some 1 := (epochAfter_of_next hnext).symm.trans epochAfter_slotBoundary_farStackDue
  rw [hsame, epochNow_farStackDue] at hafter
  exact absurd hafter (by decide)

end Sys2Proof.Machine
end
